-- ==== Sys2Proof/Word.lean ====
section
/-! DEFINITION. The quantities of the manual (00_scope.md, 4.1): every quantity is an unsigned integer with
a stated range, so each is a natural number; signed distances (odometry, corrections) are integers. -/

namespace Sys2Proof

/-- A station address; 1..63 names a station, 0 stands for none where a field says so. -/
abbrev Addr := Nat

/-- A segment id, 1..1023; 0 stands for none where a field says so. -/
abbrev Seg := Nat

/-- A distance or offset in millimetres. -/
abbrev Mm := Nat

/-- A time in milliseconds. -/
abbrev Ms := Nat

/-- A speed in mm/s. -/
abbrev Speed := Nat

/-- The bits of a frame in the order in which they stand on the line: `true` is a 1, sent recessive, and
`false` is a 0, sent dominant (R182, R199). -/
abbrev Bits := List Bool

end Sys2Proof
end

