-- ==== Sys2Proof/Syntax.lean ====
section
/-! DEFINITION. The commands of the block (one constructor of `Instr` for each row of the operations table),
and the records they carry, with the manual's own names. -/

namespace Sys2Proof

/-! ## Names with a fixed set of values -/

/-- The personality the KIND strap selects (00_scope.md, 1.1). -/
inductive Kind where
  | carriage | points
  deriving DecidableEq, Repr

/-- A direction of traversal of a segment (00_scope.md, 4.3). -/
inductive Dir where
  | up | down
  deriving DecidableEq, Repr

/-- An end of the carriage (00_scope.md, 4.4). -/
inductive End where
  | a | b
  deriving DecidableEq, Repr

/-- A position of the points. -/
inductive PointsPos where
  | normal | reverse
  deriving DecidableEq, Repr

/-- The state of a claim (00_scope.md, 4.6). -/
inductive ClaimState where
  | tentative | firm | standing
  deriving DecidableEq, Repr

/-- The ten carriage states, in the order of their codes in a POSITION (R200). -/
inductive CarState where
  | uncommissioned | unlocated | parked | undocking | ready | running | stopping | halted | docking | fault
  deriving DecidableEq, Repr

/-- The five points states, in the order of their codes in a POINTS notice (R81, R200). -/
inductive PointsState where
  | lockedNormal | lockedReverse | throwing | recovering | failed
  deriving DecidableEq, Repr

/-- The answers a points node gives to an ask (R31, R87), in the order of their codes (R200). -/
inductive AnswerCode where
  | queued | granted | refusedFailed | refusedNotClaimant | refusedListenIn | refusedUncommissioned
  deriving DecidableEq, Repr

/-- The reason of a HALT (R165). -/
inductive HaltReason where
  | console | estop
  deriving DecidableEq, Repr

/-- The three STOP conditions (chapter 1, 1.5). -/
inductive StopCond where
  | immediate | nextBoundary | authorityEnd
  deriving DecidableEq, Repr

/-! ## Records carried by requests -/

/-- The points field of a leg: the points node and the position the leg requires (R3). -/
structure PointsRef where
  node : Addr
  pos : PointsPos
  deriving DecidableEq, Repr

/-- One leg of an order (R3). -/
structure Leg where
  seg : Seg
  dir : Dir
  len : Mm
  limit : Speed
  convoy : Bool
  points : Option PointsRef
  deriving DecidableEq, Repr

/-- The pad record of an ORDER: it names the index of its leg (R192). -/
structure PadSpec where
  leg : Nat
  id : Nat
  offset : Mm
  dock : Bool
  deriving DecidableEq, Repr

/-- The order record of an ORDER request (R3). -/
structure OrderRec where
  id : Nat
  cls : Nat
  lead : End
  legs : List Leg
  pad : Option PadSpec
  deriving DecidableEq, Repr

/-- A location record (R117). -/
inductive LocRec where
  /-- NONE: no position is given. -/
  | none
  /-- PAD: docked on a pad, with the end that faces the pad. -/
  | pad (id : Nat) (spur : Seg) (offset : Mm) (dir : Dir) (facing : End)
  /-- TRACK: on one segment or across one boundary; `joint` gives the offset of the shared boundary on the
  head segment and on the tail segment. -/
  | track (headEnd : End) (headSeg : Seg) (headOff : Mm) (sense : Dir) (tailSeg : Seg) (tailOff : Mm)
      (joint : Option (Mm × Mm))
  deriving DecidableEq, Repr

/-- The sixteen fields of a carriage COMMISSION, in the order of the table of R195. -/
structure CommRec where
  length : Mm
  decel : Nat
  accel : Nat
  ceiling : Speed
  gust : Speed
  margin : Mm
  tol : Mm
  dockTol : Mm
  scale : Nat
  refresh : Ms
  posPeriod : Ms
  standoff : Mm
  hold : Mm
  resume : Mm
  dockSec : Nat
  undockSec : Nat
  deriving DecidableEq, Repr

/-- The three fields of a points COMMISSION (R80). -/
structure PointsComm where
  seg : Seg
  throwSec : Nat
  refresh : Ms
  deriving DecidableEq, Repr

/-- The requests a station may be sent (R192), each with its payload. -/
inductive Request where
  | order (o : OrderRec)
  | stop (c : StopCond)
  | drop
  | locate (l : LocRec)
  | commission (r : CommRec) (l : LocRec)
  | pointsCommission (r : PointsComm)
  | clearFault
  | clearStale (holder : Addr)
  | stationReset
  | query
  | pointsAsk (pos : PointsPos) (cls : Nat) (oid : Nat)
  | pointsFree
  deriving DecidableEq, Repr

/-! ## Records carried by notices -/

/-- One entry of a CLAIM (R200). -/
structure ClaimItem where
  seg : Seg
  dir : Dir
  st : ClaimState
  convoy : Bool
  deriving DecidableEq, Repr

/-- The fields of a POSITION notice (R119, R200). -/
structure PositionNotice where
  headSeg : Seg
  headOff : Mm
  dir : Dir
  tailSeg : Seg
  tailOff : Mm
  speed : Speed
  state : CarState
  period : Ms
  deriving DecidableEq, Repr

/-- The fields of a POINTS notice (R100, R200). -/
structure PointsNotice where
  seg : Seg
  state : PointsState
  qlen : Nat
  holder : Addr
  holderStale : Bool
  pos : PointsPos
  requester : Addr
  code : AnswerCode
  deriving DecidableEq, Repr

/-- The straps and input lines as they stand at a reset (00_scope.md, 1.2). -/
structure Pins where
  strapAddr : BitVec 6
  strapKind : Kind
  eStop : Bool
  driveFault : Bool
  gust : Bool
  jackUp : Bool
  jackDown : Bool
  lockNormal : Bool
  lockReverse : Bool
  deriving DecidableEq, Repr

/-! ## The commands -/

/-- The commands of the block: one constructor for each row of the operations table, in its order. A frame
heard carries its sender; a delivered request carries its sender and its payload; a timer's expiry and a line
event carry what tells one occurrence from another. -/
inductive Instr where
  | powerOn (p : Pins)
  | resetLine (p : Pins)
  | inboundRequestTaken (src : Addr) (req : Request)
  | requestToOtherStation (src target : Addr)
  | order (src : Addr) (o : OrderRec)
  | stop (src : Addr) (c : StopCond)
  | drop (src : Addr)
  | locate (src : Addr) (l : LocRec)
  | commission (src : Addr) (r : CommRec) (l : LocRec)
  | pointsCommission (src : Addr) (r : PointsComm)
  | clearFault (src : Addr)
  | pointsClearFault (src : Addr)
  | clearStale (src : Addr) (broadcast : Bool) (holder : Addr)
  | stationReset (src : Addr)
  | pointsStationReset (src : Addr)
  | query (src : Addr)
  | pointsAsk (src : Addr) (pos : PointsPos) (cls oid : Nat)
  | pointsFree (src : Addr)
  | halt (src origin : Addr) (reason : HaltReason)
  | pointsHalt (src origin : Addr) (reason : HaltReason)
  | resumeA (src : Addr) (token : Nat)
  | resumeB (src : Addr) (token : Nat)
  | claim (src : Addr) (cls : Nat) (period : Ms) (items : List ClaimItem)
  | pointsNodeClaim (src : Addr) (cls : Nat) (period : Ms) (items : List ClaimItem)
  | release (src : Addr) (segs : List Seg)
  | pointsNodeRelease (src : Addr) (segs : List Seg)
  | object (src target : Addr) (seg : Seg) (stated : ClaimState)
  | points (src : Addr) (n : PointsNotice)
  | position (src : Addr) (n : PositionNotice)
  | lineIdle
  | arbitrationLost (cls : Nat) (src : Addr)
  | bitError (dominantReadRecessive : Bool)
  | frameDeparture (ack : Bool)
  | spanAcquisitionStart
  | contestWindowExpiry
  | pointsTimeout
  | backoffExpiry
  | refreshExpiry
  | claimEntryStale (holder : Addr) (seg : Seg)
  | segmentViewEntryStale (holder : Addr)
  | positionEntryStale (carriage : Addr)
  | listenInExpiry
  | pointsListenInExpiry
  | overflowHoldExpiry
  | lineSilence
  | resumeWindowExpiry
  | positionPeriodExpiry
  | pointsPeriodicNotice
  | envelopeEvaluation (gust : Bool)
  | leaderEvaluation
  | odometryBatch (counts : Int)
  | standstillEvent
  | leadingBoundaryRead (checkOk : Bool) (first second : Seg)
  | trailingBoundaryRead (checkOk : Bool) (first second : Seg)
  | padMarkerRead (checkOk leading : Bool) (pad : Nat)
  | eStop
  | driveFault
  | jackPositionChange (up down : Bool)
  | dockTimeout
  | undockTimeout
  | lockInputChange (normal reverse : Bool)
  | throwTimeout
  | recoveryTimeout
  | frameCheckFailed (bits : Bits)
  | replyHeard (src target : Addr)
  | eStopRelease
  | driveFaultRelease
  deriving DecidableEq, Repr

end Sys2Proof
end

