-- ==== Sys2Proof/Decode.lean ====
section
/-! DEFINITION. The operations table gives no row any bits (its rows are commands and events of a block, not
encoded instructions), so no word spells a command. The frames of the Track Line are decoded at bit level in
Machine/Wire.lean. -/

namespace Sys2Proof

/-- The command a table word spells: none, for no row of the operations table has bits.
DESIGN CHOICE (assumption 5). -/
def decodeTableWord (_nbits _w : Nat) : Option Instr := none

end Sys2Proof
end

