-- ==== Sys2Proof/Config.lean ====
section
/-! DEFINITION. The constants the manual fixes for every part, and a free value: the offset a POSITION carries when
the offset held does not fit its field. The other free values, the payload bits of the frame kinds whose layout the
manual does not give, are declared in the same namespace beside their frames (Machine/Wire.lean). -/

namespace Sys2Proof.Config

/-- Entries of the inbound queue (R187). -/
def inboundCap : Nat := 2
/-- Frames of the transmit queue (R189). -/
def txCap : Nat := 10
/-- Entries of the claim table (R21). -/
def claimCap : Nat := 96
/-- The entry count at or below which a leaving entry clears VIEW_FULL (R23). -/
def viewClear : Nat := 87
/-- Entries of the points table (R31). -/
def pointsTabCap : Nat := 16
/-- Entries of the position table (R34). -/
def posTabCap : Nat := 16
/-- Entries of the own claim list (R64). -/
def ownCap : Nat := 12
/-- The largest span (R41). -/
def spanMax : Nat := 4
/-- The counted aborts that block a route (R60). -/
def attemptMax : Nat := 8
/-- Entries of the Segment View (R83). -/
def segViewCap : Nat := 8
/-- Entries of the request queue (R86). -/
def askCap : Nat := 6
/-- The top at which every 16-bit count and age holds. -/
def countTop : Nat := 65535

/-- The contest window (R54). -/
def windowMs : Ms := 400
/-- The points wait limit (R56). -/
def pointsWaitMs : Ms := 12000
/-- The listen-in period of both personalities (R37, R84). -/
def listenMs : Ms := 4000
/-- The overflow hold of the Segment View (R83). -/
def overflowMs : Ms := 4000
/-- The line-silence limit (R191). -/
def silenceMs : Ms := 3000
/-- The window of the resume pair (R169). -/
def resumeMs : Ms := 500
/-- The period of the envelope and leader evaluations (R122, R144). -/
def evalMs : Ms := 50
/-- The time of measured speed 0 that makes standstill (R108). -/
def standstillMs : Ms := 500
/-- The period of POINTS notices while uncommissioned (R80). -/
def bareNoticeMs : Ms := 1000

/-- The creep speed at a pad (R129). -/
def creep : Speed := 50
/-- The bound to which a distance is clamped before a square root (chapter 7, 7.2). -/
def distClamp : Mm := 2000000
/-- The largest offset a POSITION field carries (R200). -/
def offsetTop : Mm := 1048575

/-- FREE VALUE: what a POSITION carries for an offset above its 20-bit field; the manual states none.
DESIGN CHOICE (assumption 40). -/
opaque wideOffset : Mm → BitVec 20
end Sys2Proof.Config
end

