-- ==== Sys2Proof/Machine/State.lean ====
section
/-! DEFINITION. The state of the block: every register, table, queue, timer, latch and line the manual gives the
part in either personality, as plain data; the queue of waiting commands; and the state after POWER-ON.

Timers: `none` is stopped; a running timer holds the milliseconds since it started. A condition the manual
describes as presented by one block to another (the hold causes of R133) is computed from its one home. -/

namespace Sys2Proof.Machine

open Sys2Proof

/-- No rule of the manual stops the part, so nothing raises a machine fault: the faults of R172 are states the
part goes on from. The type has no value. -/
inductive Fault where
  deriving DecidableEq, Repr

/-- Why a command has no meaning. -/
inductive Refusal where
  /-- Raised by an arm of `exec` for a command without a meaning yet (safe: a claim about a next state cannot be
  proved from it). No arm of this model raises it. -/
  | notModelled (mnemonic : String)
  deriving DecidableEq, Repr

/-! ## Frames the part sends -/

/-- The blocks that produce frames (00_scope.md, 2): they stand in the offer line (R190). -/
inductive Block where
  | tli | os | ov | ce | pu | cs | segView | pa
  deriving DecidableEq, Repr

/-- The fault codes of both personalities (R98, R172). -/
inductive FaultCode where
  | estop | driveFault | overspeed | authorityOverrun | routeMismatch | headMarkerMissed | padMarkerMissed
  | positionDiscrepancy | tailMarkersMissed | firmClash | pointsLost | dockTimeout | undockTimeout
  | addressClash | throwFailed | lockLost
  deriving DecidableEq, Repr

/-- What a REPORT is about (R193). -/
inductive Subject where
  | order | stop | drop | locate | commission | clearFault | clearStale | stationReset | pointsAsk
  | pointsFree | orderEnd | fault
  deriving DecidableEq, Repr

/-- The sub-codes of BAD_ORDER (R4, R8). -/
inductive BadOrder where
  | legCount | duplicateSegment | legLength | speedZero | padPlacement | firstLeg
  deriving DecidableEq, Repr

/-- The reasons of REFUSED (R193); BAD_ORDER carries its sub-code and leg index. -/
inductive RefuseReason where
  | badOrder (sub : BadOrder) (leg : Nat)
  | storeFull | state | badLocation | notStandstill | stillPresent | wrongKind
  deriving DecidableEq, Repr

/-- The reasons of FAILED (R193). -/
inductive FailReason where
  | routeBlocked | misaligned | fault
  deriving DecidableEq, Repr

/-- The outcomes of a REPORT with their details (R193). -/
inductive ReportOutcome where
  | accepted | completed | stopped | cancelled
  | failed (r : FailReason)
  | refused (r : RefuseReason)
  | faultRaised (code : FaultCode)
  | clamped (marks : List Bool)
  deriving DecidableEq, Repr

/-- A REPORT (R193). -/
structure Report where
  subject : Subject
  outcome : ReportOutcome
  oid : Nat
  deriving DecidableEq, Repr

/-- The four brake-independent hold causes (R133). -/
structure HoldCauses where
  lineSilent : Bool
  listenIn : Bool
  halt : Bool
  convoyHold : Bool
  deriving DecidableEq, Repr

/-- The brake modes (R122). -/
inductive BrakeMode where
  | released | service | emergency
  deriving DecidableEq, Repr

/-- The halt latch when set: its source and reason (R165, R99). -/
structure Latch where
  source : Addr
  reason : HaltReason
  deriving DecidableEq, Repr

/-- The resume watcher when armed (R165). -/
structure Watcher where
  sender : Addr
  token : Nat
  timer : Ms
  deriving DecidableEq, Repr

/-- The fault record when set (R165, R98). -/
structure FaultRec where
  code : FaultCode
  seg : Seg
  off : Mm
  further : Nat
  last : Option FaultCode
  positional : Bool
  deriving DecidableEq, Repr

/-- The reasons of a span abort (R45, R48 to R53, R56). -/
inductive AbortReason where
  | localConflict | viewFull | outranked | firmConflict | objected | pointsNoAck | pointsRefused
  | pointsTimeout | pointsFailed | halted | lineSilent | stopped | faulted
  deriving DecidableEq, Repr

/-- The abort record when written (R40). -/
structure AbortRec where
  reason : AbortReason
  seg : Seg
  rival : Addr
  attempt : Nat
  oid : Nat
  deriving DecidableEq, Repr

/-- The phase of the active order (R6). -/
inductive OrderPhase where
  | waiting | underway | ending
  deriving DecidableEq, Repr

/-- The leg under the tail: REAR, or a leg index (R6). -/
inductive TailLeg where
  | rear
  | leg (k : Nat)
  deriving DecidableEq, Repr

/-- The four line counters (R180). -/
structure Counters where
  malformed : Nat
  unacked : Nat
  overflow : Nat
  displaced : Nat
  deriving DecidableEq, Repr

/-- The STATUS of a carriage node (R194). Fields that do not apply are 0 or none. -/
structure CarriageStatus where
  state : CarState
  holds : HoldCauses
  brake : BrakeMode
  activeId : Nat
  pendingId : Nat
  phase : Option OrderPhase
  headLeg : Nat
  tailLeg : Option TailLeg
  nextClaim : Nat
  endA : Seg × Mm
  endB : Seg × Mm
  headCoord : Int
  tailCoord : Int
  lastCorrection : Int
  authorityEnd : Mm
  latch : Option Latch
  fault : Option FaultRec
  abort : Option AbortRec
  abortCount : Nat
  tailMisses : Nat
  counters : Counters
  claims : Nat
  staleClaims : Nat
  viewFull : Bool
  leaderStale : Bool
  deriving DecidableEq, Repr

/-- An entry of a points node's request queue (R86). -/
structure AskEntry where
  requester : Addr
  pos : PointsPos
  cls : Nat
  oid : Nat
  deriving DecidableEq, Repr

/-- The grant record when a grant is held; `live` is GRANTED, and otherwise HELD_STALE (R95). -/
structure Grant where
  holder : Addr
  pos : PointsPos
  live : Bool
  deriving DecidableEq, Repr

/-- The STATUS of a points node (R194). -/
structure PointsStatus where
  seg : Seg
  state : PointsState
  listening : Bool
  grant : Option Grant
  queue : List AskEntry
  lastAnswer : Option (Addr × AnswerCode)
  unavailNormal : Bool
  unavailReverse : Bool
  latch : Option Latch
  fault : Option FaultRec
  askDrops : Nat
  counters : Counters
  entries : Nat
  staleEntries : Nat
  viewFull : Bool
  deriving DecidableEq, Repr

/-- The frames the part sends, with their fields (R192). Notices have target 0; a request names its target; a
reply goes to the console address. -/
inductive Frame where
  | halt (origin : Addr) (reason : HaltReason)
  | object (target : Addr) (seg : Seg) (stated : ClaimState)
  | release (segs : List Seg)
  | claim (cls : Nat) (period : Ms) (items : List ClaimItem)
  | points (n : PointsNotice)
  | pointsAsk (tgt : Addr) (pos : PointsPos) (cls oid : Nat)
  | pointsFree (tgt : Addr)
  | position (n : PositionNotice)
  | carriageStatus (tgt : Addr) (st : CarriageStatus)
  | pointsStatus (tgt : Addr) (st : PointsStatus)
  | report (tgt : Addr) (r : Report)
  deriving DecidableEq, Repr

/-- What must be known of a frame besides its content: that it is the announcement CLAIM of the span (R47), the POINTS-ASK of
a span leg (R51) or a frame of a refresh (R68), which the Claim Engine asks at its departure; or that it is the first frame
the station sends after an address clash, whatever waits beside it (R198). -/
inductive TxTag where
  | plain | announcement
  | ask (node : Addr) (seg : Seg)
  | refresh
  | first
  deriving DecidableEq, Repr

/-- A frame of the transmit queue, or one a block keeps for want of room (R189, R190). `cut` holds the segments
released, and `withdrawn` that the frame was withdrawn, while it was being sent: both act if it has to wait again, and a
withdrawn frame of a span also at its departure (R57). -/
structure TxEntry where
  frame : Frame
  block : Block
  periodic : Bool
  tag : TxTag
  sending : Bool
  cut : List Seg
  withdrawn : Bool
  deriving DecidableEq, Repr

/-- A request with its sender, as the inbound queue holds it (R187). -/
structure InEntry where
  src : Addr
  req : Request
  deriving DecidableEq, Repr

/-- The Track Line Interface (R180). The lists stand in time order, oldest first. DEDUCED (assumption 42). -/
structure Tli where
  addr : Addr
  kind : Kind
  inbound : List InEntry
  txq : List TxEntry
  /-- The frames kept by their blocks for want of room, in the order they were produced (R190). -/
  kept : List TxEntry
  /-- The producing blocks that keep a frame, in the order they joined, each with one place for each frame it keeps (R190).
  DEDUCED (assumption 16). -/
  offerLine : List Block
  /-- The POSITION the Position Unit keeps while one is being sent (R190). -/
  keptPosition : Option PositionNotice
  /-- The periodic POINTS notice kept while one is being sent (R190). -/
  keptPoints : Option PointsNotice
  silence : Ms
  silent : Bool
  clash : Bool
  /-- The line stands idle: 11 recessive bit times have been read, and no frame has begun since (R181). -/
  idle : Bool
  counters : Counters
  deriving DecidableEq, Repr

/-! ## Order Store -/

/-- The rear segment of the progress record (R6). -/
structure Rear where
  seg : Seg
  dir : Dir
  limit : Speed
  deriving DecidableEq, Repr

/-- The ACTIVE slot with its progress record (R6). -/
structure ActiveOrder where
  ord : OrderRec
  phase : OrderPhase
  headLeg : Nat
  tailLeg : TailLeg
  nextClaim : Nat
  rear : Option Rear
  deriving DecidableEq, Repr

/-- The Order Store (R6, R12). -/
structure OrderStore where
  active : Option ActiveOrder
  pending : Option OrderRec
  /-- The occupied-leg memory (R12). -/
  memory : List (Seg × Speed)
  /-- The active order is marked to end STOPPED when the jacks are up (R15). -/
  stopMark : Bool
  deriving DecidableEq, Repr

/-! ## Occupancy View -/

/-- An entry of the claim table (R21). -/
structure ClaimEntry where
  holder : Addr
  seg : Seg
  dir : Dir
  st : ClaimState
  convoy : Bool
  cls : Nat
  period : Ms
  age : Ms
  stale : Bool
  deriving DecidableEq, Repr

/-- An entry of the points table (R31); requester 0 while the node's last-answer record is empty. -/
structure PointsEntry where
  node : Addr
  seg : Seg
  state : PointsState
  holder : Addr
  holderStale : Bool
  pos : PointsPos
  requester : Addr
  code : AnswerCode
  age : Ms
  deriving DecidableEq, Repr

/-- An entry of the position table (R34). -/
structure PosEntry where
  carriage : Addr
  headSeg : Seg
  headOff : Mm
  tailSeg : Seg
  tailOff : Mm
  state : CarState
  period : Ms
  age : Ms
  stale : Bool
  deriving DecidableEq, Repr

/-- The Occupancy View (R21, R23, R31, R34, R37). -/
structure OccView where
  claims : List ClaimEntry
  viewFull : Bool
  pointsTab : List PointsEntry
  posTab : List PosEntry
  listen : Option Ms
  deriving DecidableEq, Repr

/-! ## Claim Engine -/

/-- The leg index of an own claim: NONE, REAR, or a leg of the active order (R64). -/
inductive OwnLeg where
  | none | rear
  | leg (k : Nat)
  deriving DecidableEq, Repr

/-- The points status of an own claim, where it is not none (R64). -/
inductive PtStatus where
  | asked | queued | granted | freed
  deriving DecidableEq, Repr

/-- The points status of an own claim with its node and required position (R64). -/
structure OwnPoints where
  node : Addr
  pos : PointsPos
  status : PtStatus
  deriving DecidableEq, Repr

/-- An entry of the own claim list (R64). -/
structure OwnClaim where
  leg : OwnLeg
  seg : Seg
  dir : Dir
  st : ClaimState
  convoy : Bool
  points : Option OwnPoints
  deriving DecidableEq, Repr

/-- The phases of a span transaction that last (R40, R41); LOCAL_CHECK is taken whole at one moment.
DEDUCED (assumption 44). -/
inductive SpanPhase where
  | contest | pointsWait
  deriving DecidableEq, Repr

/-- The span transaction record (R40), with the nodes whose ask was acknowledged (R57, step 4). -/
structure Span where
  first : Nat
  count : Nat
  phase : SpanPhase
  announced : Bool
  window : Option Ms
  pointsWait : Option Ms
  attempt : Nat
  acked : List Addr
  deriving DecidableEq, Repr

/-- A running backoff timer (R40). -/
structure Backoff where
  elapsed : Ms
  limit : Ms
  deriving DecidableEq, Repr

/-- The Claim Engine (R40, R43, R64, R66, R68, R73, R103). DEDUCED (assumption 43). -/
structure ClaimEngine where
  own : List OwnClaim
  span : Option Span
  backoff : Option Backoff
  attempts : Nat
  attemptLeg : Option Nat
  spanLimit : Nat
  failedHold : Option Addr
  abort : Option AbortRec
  abortCount : Nat
  /-- The first acquisition of the order is exempt from the lookahead condition (R43). -/
  exempt : Bool
  /-- The firm end (R66); none while no order is UNDERWAY or ENDING. -/
  firmEnd : Option Mm
  /-- The refresh countdown, as the time since it restarted (R68). -/
  refresh : Option Ms
  /-- A refresh is out: the countdown restarts when every frame of it is gone (R68). -/
  refreshOut : Bool
  /-- The rival and segment pairs of FIRM_CLASH since FAULT was entered (R73). -/
  clashMem : List (Addr × Seg)
  /-- The nodes of POINTS_LOST since FAULT was entered (R103). -/
  lostMem : List Addr
  /-- THE MODEL'S OWN: the last test of R42 found the conditions holding; the start follows as its own step. -/
  triggered : Bool
  deriving DecidableEq, Repr

/-! ## Position Unit -/

/-- An end record (R104). -/
structure EndRec where
  seg : Seg
  off : Mm
  aSense : Dir
  deriving DecidableEq, Repr

/-- The boundary a reader last had accepted, with its route coordinate (R110). -/
structure LastRead where
  first : Seg
  second : Seg
  coord : Int
  deriving DecidableEq, Repr

/-- What a reader keeps of the boundary it last had accepted, while no order runs (R110): the boundary, and the A-ward
distance of the end from it. DEDUCED (assumption 20). -/
structure EndRead where
  first : Seg
  second : Seg
  past : Int
  deriving DecidableEq, Repr

/-- The route form (R104): the head route coordinate, the tail trim, the rear offset at order start with the
tail coordinate it was taken at, and the boundaries last accepted. DEDUCED (assumption 20). -/
structure Route where
  x : Int
  trim : Int
  rearOff : Mm
  tail0 : Int
  lastLead : Option LastRead
  lastTrail : Option LastRead
  deriving DecidableEq, Repr

/-- A held location (R118): the record, the end records it gives (moved by the batches since its acceptance),
and the distance accumulated since. -/
structure HeldLoc where
  loc : LocRec
  pad : Bool
  headEnd : End
  a : EndRec
  b : EndRec
  moved : Int
  deriving DecidableEq, Repr

/-- The Position Unit (R104). -/
structure PosUnit where
  known : Bool
  endA : Option EndRec
  endB : Option EndRec
  route : Option Route
  /-- The boundaries the readers at end A and end B last had accepted, while there is no route form (R110). -/
  readA : Option EndRead
  readB : Option EndRead
  residual : Nat
  /-- The distances of the last ten batches, newest first (R108). -/
  window : List Int
  /-- The time for which the measured speed has been 0, held at 500 (R108). -/
  zeroFor : Ms
  standstill : Bool
  stillDist : Int
  lastCorrection : Int
  deferral : Option Seg
  tailMisses : Nat
  padRead : Option Int
  held : Option HeldLoc
  noticeHead : Option End
  /-- The time since the last POSITION was queued (R120). -/
  timer : Option Ms
  deriving DecidableEq, Repr

/-! ## Envelope Unit, Convoy Regulator, Dock Sequencer, Carriage Supervisor -/

/-- The Envelope Unit (R122), with the gust input. -/
structure Envelope where
  demand : Speed
  brake : BrakeMode
  target : Speed
  permit : Speed
  stopTarget : Option Mm
  padStop : Bool
  exceed : Nat
  rest : Bool
  timer : Ms
  gust : Bool
  deriving DecidableEq, Repr

/-- The leader record (R144). -/
structure Leader where
  addr : Addr
  tailSeg : Seg
  tailOff : Mm
  coord : Int
  gap : Mm
  stale : Bool
  deriving DecidableEq, Repr

/-- The Convoy Regulator (R144). -/
structure Convoy where
  leader : Option Leader
  limit : Option Speed
  hold : Bool
  timer : Ms
  deriving DecidableEq, Repr

/-- The jack drive command (R155). -/
inductive JackCmd where
  | off | lower | raise
  deriving DecidableEq, Repr

/-- The jack position (R155). -/
inductive JackPos where
  | up | down | between
  deriving DecidableEq, Repr

/-- The Dock Sequencer (R155), with the switch inputs. -/
structure Dock where
  cmd : JackCmd
  pos : JackPos
  dockTimer : Option Ms
  undockTimer : Option Ms
  upInput : Bool
  downInput : Bool
  deriving DecidableEq, Repr

/-- The Carriage Supervisor (R165), with the STOP condition held (R15) and the two inputs it watches (R171). -/
structure Supervisor where
  state : CarState
  comm : Option CommRec
  console : Option Addr
  latch : Option Latch
  watcher : Option Watcher
  fault : Option FaultRec
  stopCond : Option StopCond
  eStop : Bool
  driveFault : Bool
  deriving DecidableEq, Repr

/-! ## Points node -/

/-- An entry of the Segment View (R82). -/
structure SegEntry where
  holder : Addr
  st : ClaimState
  period : Ms
  age : Ms
  stale : Bool
  deriving DecidableEq, Repr

/-- The Segment View (R82 to R84). -/
structure SegView where
  entries : List SegEntry
  listen : Option Ms
  overflow : Option Ms
  deriving DecidableEq, Repr

/-- The Points Arbiter (00_scope.md 2.2, R80, R86, R87, R92, R95, R98, R99). -/
structure Arbiter where
  queue : List AskEntry
  grant : Option Grant
  lastAnswer : Option (Addr × AnswerCode)
  unavailNormal : Bool
  unavailReverse : Bool
  latch : Option Latch
  watcher : Option Watcher
  fault : Option FaultRec
  comm : Option PointsComm
  console : Option Addr
  askDrops : Nat
  /-- The periodic notice countdown, as the time since it restarted (R100). -/
  countdown : Option Ms
  deriving DecidableEq, Repr

/-- The motor outputs (R81). -/
inductive Motor where
  | off
  | toward (p : PointsPos)
  deriving DecidableEq, Repr

/-- The Throw Sequencer (R81), with the lock inputs. -/
structure Throw where
  state : PointsState
  motor : Motor
  timer : Option Ms
  target : PointsPos
  previous : PointsPos
  normalLock : Bool
  reverseLock : Bool
  deriving DecidableEq, Repr

/-! ## The state -/

/-- The whole block: the queue of waiting commands, the interface both personalities share, the nine blocks of
the carriage node less the interface, and the three blocks of the points node less the interface. The blocks of
the personality not selected keep their power-on values. DESIGN CHOICE (assumption 6). -/
structure State where
  pending : List Instr
  tli : Tli
  os : OrderStore
  ov : OccView
  ce : ClaimEngine
  pu : PosUnit
  eu : Envelope
  cr : Convoy
  ds : Dock
  cs : Supervisor
  sv : SegView
  pa : Arbiter
  ts : Throw
  deriving DecidableEq, Repr

namespace State

/-! Updating one block and no other. -/
def setPending (s : State) (v : List Instr) : State := { s with pending := v }
def setTli (s : State) (v : Tli) : State := { s with tli := v }
def setOs (s : State) (v : OrderStore) : State := { s with os := v }
def setOv (s : State) (v : OccView) : State := { s with ov := v }
def setCe (s : State) (v : ClaimEngine) : State := { s with ce := v }
def setPu (s : State) (v : PosUnit) : State := { s with pu := v }
def setEu (s : State) (v : Envelope) : State := { s with eu := v }
def setCr (s : State) (v : Convoy) : State := { s with cr := v }
def setDs (s : State) (v : Dock) : State := { s with ds := v }
def setCs (s : State) (v : Supervisor) : State := { s with cs := v }
def setSv (s : State) (v : SegView) : State := { s with sv := v }
def setPa (s : State) (v : Arbiter) : State := { s with pa := v }
def setTs (s : State) (v : Throw) : State := { s with ts := v }

/-- The POSITION with state UNCOMMISSIONED that a carriage node queues at POWER-ON (R119, R120). -/
def bootNotice : PositionNotice :=
  { headSeg := 0, headOff := 0, dir := .up, tailSeg := 0, tailOff := 0, speed := 0,
    state := .uncommissioned, period := 0 }

/-- The machine right after POWER-ON with no command waiting: every field at the value the manual gives
(R6, R39, R40, R64, R68, R101, R121, R143, R144, R155, R179, R180). The straps and input lines are outside the
part: as a DESIGN CHOICE the straps read address 1, carriage, no input is asserted and no idle line has been read.
DESIGN CHOICE (assumption 5). DESIGN CHOICE (assumption 6). -/
def reset : State :=
  { pending := [],
    tli := { addr := 1, kind := .carriage, inbound := [],
             txq := [{ frame := .position bootNotice, block := .pu, periodic := true, tag := .plain,
                       sending := false, cut := [], withdrawn := false }],
             kept := [], offerLine := [], keptPosition := none, keptPoints := none, silence := 0,
             silent := false, clash := false, idle := false,
             counters := { malformed := 0, unacked := 0, overflow := 0, displaced := 0 } },
    os := { active := none, pending := none, memory := [], stopMark := false },
    ov := { claims := [], viewFull := false, pointsTab := [], posTab := [], listen := some 0 },
    ce := { own := [], span := none, backoff := none, attempts := 0, attemptLeg := none, spanLimit := 4,
            failedHold := none, abort := none, abortCount := 0, exempt := false, firmEnd := none,
            refresh := none, refreshOut := false, clashMem := [], lostMem := [], triggered := false },
    pu := { known := false, endA := none, endB := none, route := none, readA := none, readB := none, residual := 0,
            window := [0, 0, 0, 0, 0, 0, 0, 0, 0, 0], zeroFor := 0, standstill := false, stillDist := 0,
            lastCorrection := 0, deferral := none, tailMisses := 0, padRead := none, held := none,
            noticeHead := none, timer := none },
    eu := { demand := 0, brake := .emergency, target := 0, permit := 0, stopTarget := none,
            padStop := false, exceed := 0, rest := false, timer := 0, gust := false },
    cr := { leader := none, limit := none, hold := false, timer := 0 },
    ds := { cmd := .off, pos := .between, dockTimer := none, undockTimer := none, upInput := false,
            downInput := false },
    cs := { state := .uncommissioned, comm := none, console := none, latch := none, watcher := none,
            fault := none, stopCond := none, eStop := false, driveFault := false },
    sv := { entries := [], listen := none, overflow := none },
    pa := { queue := [], grant := none, lastAnswer := none, unavailNormal := false,
            unavailReverse := false, latch := none, watcher := none, fault := none, comm := none,
            console := none, askDrops := 0, countdown := none },
    ts := { state := .failed, motor := .off, timer := none, target := .normal, previous := .normal,
            normalLock := false, reverseLock := false } }

end State

end Sys2Proof.Machine
end

