-- ==== Sys2Proof/WellFormed.lean ====
section
/-! DEFINITION. What a frame must be to be valid as far as its fields go (R184, R192, R199, R200): a frame
that is not so is malformed, discarded and counted. Commands that carry no frame are always well formed, but
for the identifiers they name. -/

namespace Sys2Proof

/-- A station address: 1..63; sender 0 is malformed (R184, R199). -/
def addrOk (a : Addr) : Bool := decide (1 ≤ a) && decide (a ≤ 63)

/-- A segment id: 1..1023; 0 is malformed where a segment is carried (R192, R200). -/
def segOk (g : Seg) : Bool := decide (1 ≤ g) && decide (g ≤ 1023)

/-- A leg as its fields carry it: a segment, a length of 0..1,048,575 and a limit of 0..4095 (R192). -/
def Leg.wf (l : Leg) : Bool :=
  segOk l.seg && decide (l.len ≤ 1048575) && decide (l.limit ≤ 4095) &&
    (match l.points with | none => true | some p => addrOk p.node)

/-- The payload bytes of an ORDER (R192). -/
def OrderRec.bytes (o : OrderRec) : Nat := 2 + 7 * o.legs.length + (if o.pad.isSome then 5 else 0)

/-- An ORDER whose payload fits a frame, with an order id, rank class and pad id it can carry (R192). -/
def OrderRec.wf (o : OrderRec) : Bool :=
  decide (1 ≤ o.id) && decide (o.id ≤ 255) && decide (o.cls ≤ 3) && decide (o.bytes ≤ 136) &&
    o.legs.all Leg.wf &&
    (match o.pad with | none => true | some p => decide (1 ≤ p.id) && decide (p.id ≤ 255))

/-- A location record as its bytes carry it; a segment or pad id out of range is refused, not malformed (R196). -/
def LocRec.wf : LocRec → Bool
  | .none => true
  | .pad id spur off _ _ => decide (id ≤ 255) && decide (spur < 65536) && decide (off < 16777216)
  | .track _ hs ho _ tseg toff j =>
    decide (hs < 65536) && decide (ho < 16777216) && decide (tseg < 65536) && decide (toff < 16777216) &&
      (match j with | .none => true | .some (a, b) => decide (a < 16777216) && decide (b < 16777216))

/-- A carriage COMMISSION as its bytes carry it (R195). -/
def CommRec.wf (r : CommRec) : Bool :=
  [r.length, r.decel, r.ceiling, r.gust, r.margin, r.tol, r.scale, r.refresh, r.posPeriod, r.standoff].all
      (fun v => decide (v < 65536)) &&
    [r.accel, r.dockTol, r.dockSec, r.undockSec].all (fun v => decide (v < 256)) &&
    [r.hold, r.resume].all (fun v => decide (v < 16777216))

/-- A points COMMISSION as its bytes carry it (R195). -/
def PointsComm.wf (r : PointsComm) : Bool :=
  decide (r.seg < 65536) && decide (r.throwSec < 256) && decide (r.refresh < 65536)

/-- The payload of a request is one its kind can carry (R192). -/
def Request.wf : Request → Bool
  | .order o => o.wf
  | .locate l => l.wf
  | .commission r l => r.wf && l.wf
  | .pointsCommission r => r.wf
  | .clearStale h => decide (h ≤ 63)
  | .pointsAsk _ cls oid => decide (cls ≤ 3) && decide (oid ≤ 255)
  | .stop _ | .drop | .clearFault | .stationReset | .query | .pointsFree => true

/-- A CLAIM payload: a rank class, a 10-bit refresh period and 1..4 entries with a segment each (R22, R200). -/
def claimWf (cls : Nat) (period : Ms) (items : List ClaimItem) : Bool :=
  decide (cls ≤ 3) && decide (period ≤ 1023) && decide (1 ≤ items.length) && decide (items.length ≤ 4) &&
    items.all (fun i => segOk i.seg)

/-- A RELEASE payload: 1..4 segment ids (R24, R192). -/
def releaseWf (segs : List Seg) : Bool :=
  decide (1 ≤ segs.length) && decide (segs.length ≤ 4) && segs.all segOk

/-- Whether a carriage state is one of codes 2..9, a state that carries a position (R200). -/
def CarState.carriesPosition : CarState → Bool
  | .uncommissioned | .unlocated => false
  | _ => true

/-- A POSITION payload (R200). -/
def PositionNotice.wf (n : PositionNotice) : Bool :=
  decide (n.headSeg ≤ 1023) && decide (n.tailSeg ≤ 1023) && decide (n.headOff ≤ 1048575) &&
    decide (n.tailOff ≤ 1048575) && decide (n.speed ≤ 4095) && decide (n.period ≤ 4095) &&
    (!n.state.carriesPosition || (decide (1 ≤ n.headSeg) && decide (1 ≤ n.tailSeg)))

/-- A POINTS payload (R200). -/
def PointsNotice.wf (n : PointsNotice) : Bool :=
  decide (n.seg ≤ 1023) && decide (n.qlen ≤ 6) && decide (n.holder ≤ 63) && decide (n.requester ≤ 63)

/-- A command is well formed when the frame it carries, if it carries one, is not malformed by its fields. -/
def Instr.wf : Instr → Bool
  | .inboundRequestTaken src r => addrOk src && r.wf
  | .requestToOtherStation src t => addrOk src && addrOk t
  | .order src o => addrOk src && o.wf
  | .locate src l => addrOk src && l.wf
  | .commission src r l => addrOk src && r.wf && l.wf
  | .pointsCommission src r => addrOk src && r.wf
  | .stop src _ | .drop src | .clearFault src | .pointsClearFault src | .stationReset src
  | .pointsStationReset src | .query src | .pointsFree src => addrOk src
  | .clearStale src _ h => addrOk src && decide (h ≤ 63)
  | .pointsAsk src _ cls oid => addrOk src && decide (cls ≤ 3) && decide (oid ≤ 255)
  | .halt src o _ | .pointsHalt src o _ => addrOk src && addrOk o
  | .resumeA src t | .resumeB src t => addrOk src && decide (t ≤ 65535)
  | .claim src cls p items | .pointsNodeClaim src cls p items => addrOk src && claimWf cls p items
  | .release src segs | .pointsNodeRelease src segs => addrOk src && releaseWf segs
  | .object src t g _ => addrOk src && addrOk t && segOk g
  | .points src n => addrOk src && n.wf
  | .position src n => addrOk src && n.wf
  | .replyHeard src t => addrOk src && addrOk t
  | .arbitrationLost cls src => decide (cls ≤ 7) && addrOk src
  | .claimEntryStale h g => addrOk h && segOk g
  | .segmentViewEntryStale h => addrOk h
  | .positionEntryStale a => addrOk a
  | .leadingBoundaryRead _ g h | .trailingBoundaryRead _ g h => segOk g && segOk h
  | .padMarkerRead _ _ p => decide (1 ≤ p) && decide (p ≤ 255)
  | .powerOn _ | .resetLine _ | .lineIdle | .bitError _ | .frameDeparture _ | .spanAcquisitionStart
  | .contestWindowExpiry | .pointsTimeout | .backoffExpiry | .refreshExpiry | .listenInExpiry
  | .pointsListenInExpiry | .overflowHoldExpiry | .lineSilence | .resumeWindowExpiry
  | .positionPeriodExpiry | .pointsPeriodicNotice | .envelopeEvaluation _ | .leaderEvaluation
  | .odometryBatch _ | .standstillEvent | .eStop | .driveFault | .jackPositionChange _ _ | .dockTimeout
  | .undockTimeout | .lockInputChange _ _ | .throwTimeout | .recoveryTimeout | .frameCheckFailed _
  | .eStopRelease | .driveFaultRelease => true

end Sys2Proof
end

