-- ==== Sys2Proof/Machine/Operands.lean ====
section
/-! DEFINITION. The operand forms: integer arithmetic, ranks and compatibility, route coordinates, the checks of
orders and locations, and the clamping of commissioning records. Nothing here reads or writes the state. -/

namespace Sys2Proof.Machine

open Sys2Proof

/-! ## Arithmetic -/

/-- The root found so far, `r`, is extended bit by bit from bit `k - 1` down. -/
def isqrtBits : Nat → Nat → Nat → Nat
  | 0, r, _ => r
  | k + 1, r, n => if (r + 2 ^ k) * (r + 2 ^ k) ≤ n then isqrtBits k (r + 2 ^ k) n else isqrtBits k r n

/-- The floor of the square root of an unsigned 32-bit integer (00_scope.md, 4.1; R142). -/
def isqrt (n : Nat) : Nat := isqrtBits 16 0 n

/-- A 16-bit count rises by 1 and holds at its top (R40, R104, R165, R180). -/
def satInc (n : Nat) : Nat := min (n + 1) Config.countTop

/-- A value clamped to its nearer bound. -/
def clampTo (lo hi v : Nat) : Nat := max lo (min hi v)

/-- A signed travel offset held within 0..`hi` (R109). -/
def holdWithin (i : Int) (hi : Nat) : Nat := min i.toNat hi

/-- A list without its later repeats, in order. -/
def nub (l : List Nat) : List Nat := l.foldl (fun acc a => if a ∈ acc then acc else acc ++ [a]) []

/-- An address joins a list in ascending order, unless it stands there. -/
def insertAddr (a : Addr) : List Addr → List Addr
  | [] => [a]
  | b :: rest => if a < b then a :: b :: rest else if a = b then b :: rest else b :: insertAddr a rest

/-- The addresses of a list in ascending order, each once (R29). -/
def ascending (l : List Addr) : List Addr := l.foldr insertAddr []

/-- A list cut into pieces of at most 4, in order (R67, R68). -/
def chunk4 {α : Type} : List α → List (List α)
  | a :: b :: c :: d :: rest => [a, b, c, d] :: chunk4 rest
  | [] => []
  | l => [l]

/-! ## Directions, ends and ranks -/

/-- The opposite direction. -/
def flip : Dir → Dir
  | .up => .down
  | .down => .up

/-- The other end. -/
def otherEnd : End → End
  | .a => .b
  | .b => .a

/-- A direction that leads toward end `e`, turned into one that leads from B toward A, and back (R105): itself
for end A, the opposite for end B. -/
def turn (e : End) (d : Dir) : Dir :=
  match e with
  | .a => d
  | .b => flip d

/-- Two claims on one segment are compatible when both carry the convoy mark and name one direction (R27). -/
def compatible (d1 : Dir) (c1 : Bool) (d2 : Dir) (c2 : Bool) : Bool := c1 && c2 && decide (d1 = d2)

/-- The A-ward distance turned into a travel distance, and a travel distance into an A-ward one (R106). -/
def travelDistance (lead : End) (d : Int) : Int :=
  match lead with
  | .a => d
  | .b => -d

/-- The rank of class and address `c1`, `a1` is better than that of `c2`, `a2`: the lower class, and between
equal classes the lower address (R21). -/
def outranks (c1 : Nat) (a1 : Addr) (c2 : Nat) (a2 : Addr) : Bool :=
  decide (c1 < c2) || (decide (c1 = c2) && decide (a1 < a2))

/-- FIRM or STANDING: STANDING is treated as FIRM wherever a claim's state is tested (00_scope.md, 4.6). -/
def firmState : ClaimState → Bool
  | .tentative => false
  | .firm | .standing => true

/-! ## Route coordinates (R1) -/

/-- Leg `k` of a leg list, counted from 1. -/
def legAt (legs : List Leg) (k : Nat) : Option Leg := if k = 0 then none else legs[k - 1]?

/-- The end of leg `k`: the sum of the lengths of legs 1 to `k`. -/
def legEnd (legs : List Leg) (k : Nat) : Mm := ((legs.take k).map Leg.len).sum

/-- The start of leg `k`: the sum of the lengths of legs 1 to `k` − 1. -/
def legStart (legs : List Leg) (k : Nat) : Mm := legEnd legs (k - 1)

/-- The route end: the end of the last leg. -/
def routeEnd (legs : List Leg) : Mm := legEnd legs legs.length

/-- The travel offset of a segment offset on a leg. -/
def travelOf (l : Leg) (o : Mm) : Mm :=
  match l.dir with
  | .up => o
  | .down => l.len - o

/-- The segment offset of a travel offset on a leg. -/
def segOffOf (l : Leg) (t : Mm) : Mm :=
  match l.dir with
  | .up => t
  | .down => l.len - t

/-- The route coordinate of a segment offset on leg `k`; the offset is taken as at most the leg's length. -/
def coordOf (legs : List Leg) (k : Nat) (o : Mm) : Mm :=
  match legAt legs k with
  | none => 0
  | some l => legStart legs k + travelOf l (min o l.len)

/-- The leg on which a route coordinate lies: a boundary belongs to the leg it opens, and the route end to the
last leg. `k` is the index of the first leg of the list given, `at0` its start. -/
def legOfCoord : List Leg → Nat → Mm → Mm → Nat
  | [], k, _, _ => k - 1
  | l :: rest, k, at0, c => if c < at0 + l.len then k else legOfCoord rest (k + 1) (at0 + l.len) c

/-- The segment and segment offset of a route coordinate (R1, the conversion back). -/
def pointOf (legs : List Leg) (c : Mm) : Option (Seg × Mm) :=
  let k := legOfCoord legs 1 0 c
  (legAt legs k).map (fun l => (l.seg, segOffOf l (c - legStart legs k)))

/-- The index of the leg on a segment, counted from 1, at or after leg `lo`. -/
def legOnSeg (legs : List Leg) (lo : Nat) (g : Seg) : Option Nat :=
  ((legs.drop (lo - 1)).findIdx? (fun l => l.seg = g)).map (fun i => i + lo)

/-- The pad of an order's last leg, if it carries one. -/
def lastPad (o : OrderRec) : Option PadSpec := o.pad.filter (fun p => p.leg = o.legs.length)

/-- The route coordinate of the destination pad: the start of the last leg plus the pad offset (R116). -/
def padCoord (o : OrderRec) (p : PadSpec) : Mm := legStart o.legs o.legs.length + p.offset

/-- An offset on the rear segment that has advanced by `adv` along the rear's direction; it holds at 0 (R109).
DEDUCED (assumption 51). -/
def rearOffset (d : Dir) (off : Mm) (adv : Int) : Mm :=
  match d with
  | .up => ((off : Int) + adv).toNat
  | .down => ((off : Int) - adv).toNat

/-- An offset in the end form moved by an A-ward distance along its A-sense; it does not fall below 0 (R107). -/
def moveEnd (e : EndRec) (d : Int) : EndRec :=
  match e.aSense with
  | .up => { e with off := ((e.off : Int) + d).toNat }
  | .down => { e with off := ((e.off : Int) - d).toNat }

/-! ## The structural test and the stored form of an order (R4, R5) -/

/-- The index, from `i`, of the first leg whose segment is already among those seen. -/
def firstDuplicate : List Seg → Nat → List Leg → Option Nat
  | _, _, [] => none
  | seen, i, l :: rest => if l.seg ∈ seen then some i else firstDuplicate (l.seg :: seen) (i + 1) rest

/-- The index, counted from 1, of the first leg that fails a per-leg test. -/
def firstLeg (p : Leg → Bool) (legs : List Leg) : Option Nat := (legs.findIdx? p).map (· + 1)

/-- A leg's length is below 2,000, above 600,000, or below the carriage length plus twice the tolerance. -/
def badLength (c : CommRec) (l : Leg) : Bool :=
  decide (l.len < 2000) || decide (600000 < l.len) || decide (l.len < c.length + 2 * c.tol)

/-- The leg index at which the pad is misplaced: on a leg other than the last, or too near the leg's end.
DESIGN CHOICE (assumption 47). -/
def badPad (c : CommRec) (o : OrderRec) : Option Nat :=
  match o.pad with
  | none => none
  | some p =>
    if p.leg ≠ o.legs.length then some p.leg
    else match legAt o.legs p.leg with
      | none => some p.leg
      | some l => if p.offset + c.margin > l.len then some p.leg else none

/-- The structural tests of R4, in their order: the first that fails, with the leg index reported. -/
def structuralTest (c : CommRec) (o : OrderRec) : Option (BadOrder × Nat) :=
  if o.legs.length = 0 ∨ o.legs.length > 16 then some (.legCount, 0)
  else match firstDuplicate [] 1 o.legs with
  | some i => some (.duplicateSegment, i)
  | none =>
    match firstLeg (badLength c) o.legs with
    | some i => some (.legLength, i)
    | none =>
      match firstLeg (fun l => l.limit = 0) o.legs with
      | some i => some (.speedZero, i)
      | none => (badPad c o).map (fun i => (.padPlacement, i))

/-- A leg as stored: its limit at most the ceiling, its convoy mark cleared on a points leg (R5). -/
def storedLeg (c : CommRec) (l : Leg) : Leg :=
  { l with limit := min l.limit c.ceiling, convoy := l.convoy && l.points.isNone }

/-- An order as stored (R5). -/
def storedOrder (c : CommRec) (o : OrderRec) : OrderRec := { o with legs := o.legs.map (storedLeg c) }

/-! ## Commissioning records (R80, R195) -/

/-- The position period as clamped: 0, or 100..4095. -/
def clampPeriod (v : Ms) : Ms := if v = 0 then 0 else clampTo 100 4095 v

/-- The convoy resume as clamped against the hold already clamped: at or below it, the hold plus 2,000 capped
at 100,000; above 100,000, to 100,000. -/
def clampResume (hold v : Mm) : Mm := if v ≤ hold then min (hold + 2000) 100000 else min v 100000

/-- A carriage commissioning record as clamped, field by field in the order of the table (R195). -/
def clampComm (r : CommRec) : CommRec :=
  let ceiling := clampTo 100 3000 r.ceiling
  let standoff := clampTo 5000 50000 r.standoff
  let hold := clampTo standoff 98000 r.hold
  { length := clampTo 4000 40000 r.length
    decel := clampTo 50 800 r.decel
    accel := min r.accel 3
    ceiling := ceiling
    gust := clampTo 50 ceiling r.gust
    margin := clampTo 500 5000 r.margin
    tol := clampTo 50 1000 r.tol
    dockTol := clampTo 5 50 r.dockTol
    scale := clampTo 1 65535 r.scale
    refresh := clampTo 200 1000 r.refresh
    posPeriod := clampPeriod r.posPeriod
    standoff := standoff
    hold := hold
    resume := clampResume hold r.resume
    dockSec := clampTo 5 60 r.dockSec
    undockSec := clampTo 5 60 r.undockSec }

/-- The sixteen fields in the order of the table. -/
def commFields (r : CommRec) : List Nat :=
  [r.length, r.decel, r.accel, r.ceiling, r.gust, r.margin, r.tol, r.dockTol, r.scale, r.refresh,
    r.posPeriod, r.standoff, r.hold, r.resume, r.dockSec, r.undockSec]

/-- A mark for each clamped field, in the order of the table (R193). -/
def commMarks (r : CommRec) : List Bool :=
  List.zipWith (fun a b => decide (a ≠ b)) (commFields r) (commFields (clampComm r))

/-- A points commissioning record as clamped (R80, R195). -/
def clampPointsComm (r : PointsComm) : PointsComm :=
  { seg := clampTo 1 1023 r.seg, throwSec := clampTo 2 15 r.throwSec, refresh := clampTo 200 1000 r.refresh }

/-- A mark for each clamped field of a points COMMISSION. -/
def pointsCommMarks (r : PointsComm) : List Bool :=
  let c := clampPointsComm r
  [decide (r.seg ≠ c.seg), decide (r.throwSec ≠ c.throwSec), decide (r.refresh ≠ c.refresh)]

/-! ## Locations (R117) -/

/-- A TRACK tail at the joint is taken as lying on the head segment at the head's joint offset (R117). -/
def normalLoc : LocRec → LocRec
  | .track e hs ho sense ts to' (some (jh, jt)) =>
    if ts ≠ hs ∧ to' = jt then .track e hs ho sense hs jh none else .track e hs ho sense ts to' (some (jh, jt))
  | l => l

/-- A point lies beyond another on a segment in a sense. -/
def beyond (sense : Dir) (o base : Mm) : Bool :=
  match sense with
  | .up => decide (base < o)
  | .down => decide (o < base)

/-- The magnitude of a difference of offsets. -/
def apart (a b : Mm) : Mm := (a - b) + (b - a)

/-- The segments a location record names. -/
def locSegs : LocRec → List Seg
  | .none => []
  | .pad _ spur _ _ _ => [spur]
  | .track _ hs _ _ ts _ _ => [hs, ts]

/-- The head-to-tail distance of a TRACK record in normal form. DEDUCED (assumption 23). -/
def trackSpan : LocRec → Mm
  | .track _ hs ho _ ts to' j =>
    if hs = ts then apart ho to'
    else match j with
      | none => 0
      | some (jh, jt) => apart ho jh + apart jt to'
  | _ => 0

/-- Whether a location record is refused with BAD_LOCATION: the cases of R117 and of R196. DEDUCED (assumption 23). -/
def badLocation (c : CommRec) (jacks : JackPos) (l : LocRec) : Bool :=
  !(locSegs l).all segOk ||
  match normalLoc l with
  | .none => false
  | .pad id _ off dir _ => decide (id = 0) || decide (jacks = .up) || (decide (dir = .up) && decide (off < c.length))
  | .track e hs ho sense ts to' j =>
    decide (jacks ≠ .up) ||
      (if hs = ts then !beyond sense ho to'
       else match j with
         | none => true
         | some (jh, _) => !beyond sense ho jh) ||
      decide (c.tol < apart (trackSpan (.track e hs ho sense ts to' j)) c.length)

/-- The end records of a record of two ends, given the end named first. -/
def pairEnds (e : End) (first second : EndRec) : EndRec × EndRec :=
  match e with
  | .a => (first, second)
  | .b => (second, first)

/-- The location an accepted PAD or TRACK record holds: the end records it gives (R118), none for NONE.
DEDUCED (assumption 23). -/
def heldOf (c : CommRec) (l : LocRec) : Option HeldLoc :=
  match normalLoc l with
  | .none => none
  | .pad id spur off dir facing =>
    let near : EndRec := { seg := spur, off := off, aSense := turn facing dir }
    let far : EndRec :=
      { seg := spur, aSense := turn facing dir,
        off := match dir with
          | .up => off - c.length
          | .down => off + c.length }
    let ends := pairEnds facing near far
    some { loc := .pad id spur off dir facing, pad := true, headEnd := facing, a := ends.1, b := ends.2, moved := 0 }
  | .track e hs ho sense ts to' j =>
    let tailSense : Dir :=
      match j with
      | none => sense
      | some (_, jt) => if hs = ts then sense else if to' < jt then .up else .down
    let head : EndRec := { seg := hs, off := ho, aSense := turn e sense }
    let tail : EndRec := { seg := ts, off := to', aSense := turn e tailSense }
    let ends := pairEnds e head tail
    some { loc := .track e hs ho sense ts to' j, pad := false, headEnd := e, a := ends.1, b := ends.2, moved := 0 }

/-! ## Points positions -/

/-- The state of points locked at a position. -/
def lockedAt : PointsPos → PointsState
  | .normal => .lockedNormal
  | .reverse => .lockedReverse

/-- The other position. -/
def otherPos : PointsPos → PointsPos
  | .normal => .reverse
  | .reverse => .normal

/-- The position at which points stand locked, if they are. -/
def lockedPos : PointsState → Option PointsPos
  | .lockedNormal => some .normal
  | .lockedReverse => some .reverse
  | _ => none

/-- The stricter of two STOP conditions, from IMMEDIATE through NEXT_BOUNDARY to AUTHORITY_END (R15). -/
def stricter : StopCond → StopCond → StopCond
  | .immediate, _ | _, .immediate => .immediate
  | .nextBoundary, _ | _, .nextBoundary => .nextBoundary
  | .authorityEnd, .authorityEnd => .authorityEnd

/-- The jack position the two switch inputs show (R155). -/
def jackPosOf (up down : Bool) : JackPos :=
  match up, down with
  | true, false => .up
  | false, true => .down
  | _, _ => .between

end Sys2Proof.Machine
end

