-- ==== Sys2Proof/Machine/Flags.lean ====
section
/-! DEFINITION. The conditions and values computed from the state: who is the console, whether the carriage is
located, moving or at rest, the hold causes, the ends' positions, the firm end, the effective position period,
the sole-claimant test. Nothing here writes the state. -/

namespace Sys2Proof.Machine

open Sys2Proof

/-! ## The node -/

/-- The console address of the personality selected (R165, R80). -/
def console (s : State) : Option Addr :=
  match s.tli.kind with
  | .carriage => s.cs.console
  | .points => s.pa.console

/-- The commissioning record; while there is none, all its fields read 0 (no rule then uses one). -/
def cfg (s : State) : CommRec :=
  s.cs.comm.getD
    { length := 0, decel := 0, accel := 0, ceiling := 0, gust := 0, margin := 0, tol := 0, dockTol := 0,
      scale := 0, refresh := 0, posPeriod := 0, standoff := 0, hold := 0, resume := 0, dockSec := 0,
      undockSec := 0 }

/-- A carriage is located while its position is known (R165, 10). -/
def located (s : State) : Bool := s.pu.known

/-- RUNNING, STOPPING or HALTED: the states of a full evaluation (R123). -/
def movingState : CarState → Bool
  | .running | .stopping | .halted => true
  | _ => false

/-- The carriage is at rest: in a moving state, demand 0 and the standstill flag set (R138). -/
def atRest (s : State) : Bool := movingState s.cs.state && decide (s.eu.demand = 0) && s.pu.standstill

/-- The hold causes present (R133), each from the block that presents it. DEDUCED (assumption 43). -/
def holdCauses (s : State) : HoldCauses :=
  { lineSilent := s.tli.silent, listenIn := s.ov.listen.isSome, halt := s.cs.latch.isSome,
    convoyHold := s.cr.hold }

/-- Some hold cause is present. DEDUCED (assumption 43). -/
def held (s : State) : Bool :=
  s.tli.silent || s.ov.listen.isSome || s.cs.latch.isSome || s.cr.hold

/-- The ceiling now: the gust ceiling while the gust input is asserted (R43, R124). -/
def ceilingNow (s : State) : Speed := if s.eu.gust then (cfg s).gust else (cfg s).ceiling

/-- The measured speed: the magnitude of the sum of the last ten batches, times 10 (R108). -/
def measuredSpeed (s : State) : Speed := s.pu.window.sum.natAbs * 10

/-- The active order while its phase is UNDERWAY or ENDING. -/
def started (s : State) : Option ActiveOrder := s.os.active.filter (fun a => decide (a.phase ≠ .waiting))

/-- The rank class the CLAIMs of this node carry: that of the order UNDERWAY or ENDING, or 3 (R68).
DEDUCED (assumption 25). -/
def claimClass (s : State) : Nat :=
  match started s with
  | some a => a.ord.cls
  | none => 3

/-! ## Outputs (R122, R137, R155, R81) -/

/-- The brake release output. DEDUCED (assumption 45). -/
def brakeReleaseOut (s : State) : Bool := decide (s.eu.brake = .released)

/-- The emergency brake line. DEDUCED (assumption 45). -/
def emergencyOut (s : State) : Bool := decide (s.eu.brake = .emergency)

/-- The speed demand output. DEDUCED (assumption 45). -/
def demandOut (s : State) : Speed := s.eu.demand

/-! ## Positions (R109) -/

/-- The tail route coordinate, before any holding. -/
def tailCoord (s : State) (r : Route) : Int := r.x - (cfg s).length + r.trim

/-- The segment and segment offset of a route coordinate held within leg `k`. -/
def onLeg (legs : List Leg) (k : Nat) (c : Int) : Seg × Mm :=
  match legAt legs k with
  | none => (0, 0)
  | some l => (l.seg, segOffOf l (holdWithin (c - legStart legs k) l.len))

/-- The head's segment and offset in the route form. -/
def routeHead (a : ActiveOrder) (r : Route) : Seg × Mm := onLeg a.ord.legs a.headLeg r.x

/-- The tail's segment and offset in the route form. -/
def routeTail (s : State) (a : ActiveOrder) (r : Route) : Seg × Mm :=
  match a.tailLeg with
  | .leg k => onLeg a.ord.legs k (tailCoord s r)
  | .rear =>
    match a.rear with
    | none => (0, 0)
    | some rr => (rr.seg, rearOffset rr.dir r.rearOff (tailCoord s r - r.tail0))

/-- The end record of an end. -/
def endRec (s : State) (e : End) : Option EndRec :=
  match e with
  | .a => s.pu.endA
  | .b => s.pu.endB

/-- The segment and offset of an end: by R109 in the route form, and otherwise its end record. -/
def endPos (s : State) (e : End) : Seg × Mm :=
  match s.pu.route, s.os.active with
  | some r, some a => if e = a.ord.lead then routeHead a r else routeTail s a r
  | _, _ =>
    match endRec s e with
    | some x => (x.seg, x.off)
    | none => (0, 0)

/-- The end that POSITION notices name as the head; A stands in while there is none. -/
def noticeEnd (s : State) : End := s.pu.noticeHead.getD .a

/-- The head's segment and offset, by the notice head (R104, R172). -/
def headPos (s : State) : Seg × Mm := if s.pu.known then endPos s (noticeEnd s) else (0, 0)

/-- The tail's segment and offset. -/
def tailPos (s : State) : Seg × Mm := if s.pu.known then endPos s (otherEnd (noticeEnd s)) else (0, 0)

/-- The A-sense of the leg or rear segment under an end in the route form (R105). -/
def routeSense (a : ActiveOrder) (e : End) : Dir :=
  let d : Dir :=
    if e = a.ord.lead then
      match legAt a.ord.legs a.headLeg with
      | some l => l.dir
      | none => .up
    else
      match a.tailLeg with
      | .leg k =>
        match legAt a.ord.legs k with
        | some l => l.dir
        | none => .up
      | .rear =>
        match a.rear with
        | some rr => rr.dir
        | none => .up
  turn a.ord.lead d

/-- The direction of travel on the head segment a POSITION carries (R119). -/
def travelDir (s : State) : Dir :=
  match s.pu.route, s.os.active with
  | some _, some a =>
    match legAt a.ord.legs a.headLeg with
    | some l => l.dir
    | none => .up
  | _, _ =>
    match endRec s (noticeEnd s) with
    | some x => turn (noticeEnd s) x.aSense
    | none => .up

/-- The occupied segments: under the tail, under the head, and held under deferred release (R65). -/
def occupied (s : State) : List Seg :=
  if s.pu.known then
    nub ((match s.pu.deferral with
      | some g => [g]
      | none => []) ++ [(tailPos s).1, (headPos s).1])
  else []

/-! ## The own claim list -/

/-- The own entry on a segment. -/
def ownOn (s : State) (g : Seg) : Option OwnClaim := s.ce.own.find? (fun e => decide (e.seg = g))

/-- The entries ahead of the occupied segments: after the entry of the segment under the head (R65). -/
def aheadSegs (s : State) : List Seg :=
  match s.ce.own.findIdx? (fun e => decide (e.seg = (headPos s).1)) with
  | none => []
  | some i => (s.ce.own.drop (i + 1)).map OwnClaim.seg

/-- Whether an own entry's leg follows the one before it in unbroken sequence (R66). -/
def follows : Option OwnLeg → OwnLeg → Bool
  | none, .none => false
  | none, _ => true
  | some .rear, .rear => true
  | some .rear, .leg k => decide (k = 1)
  | some (.leg j), .leg k => decide (k = j + 1)
  | some _, _ => false

/-- The last leg reached by a walk over FIRM entries in sequence, 0 if it reaches none or only REAR ones. -/
def firmWalk : Option OwnLeg → Nat → List OwnClaim → Nat
  | _, last, [] => last
  | prev, last, e :: rest =>
    if firmState e.st && follows prev e.leg then
      firmWalk (some e.leg)
        (match e.leg with
          | .leg k => k
          | _ => last) rest
    else last

/-- The firm end (R66): the end of the last leg of the walk that begins at the first entry on the tail's
segment, the rear segment or a segment under deferred release; none while no order is UNDERWAY or ENDING. -/
def firmEndOf (s : State) : Option Mm :=
  match started s with
  | none => none
  | some a =>
    let base : List Seg :=
      (tailPos s).1 ::
        ((match a.rear with
          | some r => [r.seg]
          | none => []) ++
        (match s.pu.deferral with
          | some g => [g]
          | none => []))
    some (legEnd a.ord.legs (firmWalk none 0 (s.ce.own.dropWhile (fun e => decide (e.seg ∉ base)))))

/-- The authority end: the firm end less M, held at 0 (R2, R66). -/
def authorityEnd (s : State) : Option Mm := s.ce.firmEnd.map (· - (cfg s).margin)

/-- The effective position period (R120); 0 while uncommissioned. -/
def effPeriod (s : State) : Ms :=
  match s.cs.comm with
  | none => 0
  | some c =>
    if s.ce.own.any OwnClaim.convoy then (if c.posPeriod = 0 then 250 else min c.posPeriod 250)
    else c.posPeriod

/-- The CLAIM entry of an own entry. -/
def itemOf (e : OwnClaim) : ClaimItem := { seg := e.seg, dir := e.dir, st := e.st, convoy := e.convoy }

/-- The own entry belongs to the legs of a span. -/
def inSpan (sp : Span) (e : OwnClaim) : Bool :=
  match e.leg with
  | .leg k => decide (sp.first ≤ k) && decide (k < sp.first + sp.count)
  | _ => false

/-- The segments of the span in flight, in route order. -/
def spanSegs (s : State) : List Seg :=
  match s.ce.span with
  | none => []
  | some sp => (s.ce.own.filter (inSpan sp)).map OwnClaim.seg

/-! ## The two views -/

/-- The blocking test of R28 on one entry, for a claim of direction `d`, mark `c`, class `cls` and address `a`. -/
def blocks (d : Dir) (c : Bool) (cls : Nat) (a : Addr) (e : ClaimEntry) : Bool :=
  !compatible d c e.dir e.convoy && (firmState e.st || e.stale || outranks e.cls e.holder cls a)

/-- The blocking entry with the best rank among those of a list. -/
def bestRank : List ClaimEntry → Option ClaimEntry
  | [] => none
  | e :: rest =>
    match bestRank rest with
    | none => some e
    | some f => if outranks f.cls f.holder e.cls e.holder then some f else some e

/-- The blocking test (R28): the holder of the blocking entry with the best rank, or none for "clear". -/
def blockedBy (s : State) (g : Seg) (d : Dir) (c : Bool) (cls : Nat) : Option Addr :=
  (bestRank (s.ov.claims.filter (fun e => decide (e.seg = g) && blocks d c cls s.tli.addr e))).map
    ClaimEntry.holder

/-- The granted question of R33. -/
def grantedBy (me : Addr) (e : PointsEntry) (g : Seg) (p : PointsPos) : Bool :=
  decide (e.seg = g) && decide (e.holder = me) && !e.holderStale && decide (e.pos = p) &&
    decide (e.state = lockedAt p)

/-- The granted question of R33 asked of the points table: a missing entry answers "not granted". -/
def tableGrants (s : State) (n : Addr) (g : Seg) (p : PointsPos) : Bool :=
  s.ov.pointsTab.any (fun k => decide (k.node = n) && grantedBy s.tli.addr k g p)

/-- The points node is listening in: the timer runs, or line silence is reported (R84). -/
def listeningIn (s : State) : Bool := s.sv.listen.isSome || s.tli.silent

/-- The Segment View holds an entry of the station without the STALE mark. -/
def liveIn (s : State) (x : Addr) : Bool :=
  s.sv.entries.any (fun e => decide (e.holder = x) && !e.stale)

/-- The sole-claimant test (R85). -/
def soleClaimant (s : State) (x : Addr) : Bool :=
  liveIn s x && s.sv.entries.all (fun e => decide (e.holder = x) || e.stale) && s.sv.overflow.isNone

/-- The unavailable mark of a position (R92). -/
def unavail (s : State) (p : PointsPos) : Bool :=
  match p with
  | .normal => s.pa.unavailNormal
  | .reverse => s.pa.unavailReverse

/-- The lock input of a position. -/
def lockOf (s : State) (p : PointsPos) : Bool :=
  match p with
  | .normal => s.ts.normalLock
  | .reverse => s.ts.reverseLock

/-- The points are moving (R81). -/
def pointsMoving (s : State) : Bool := decide (s.ts.state = .throwing) || decide (s.ts.state = .recovering)

end Sys2Proof.Machine
end

