-- ==== Sys2Proof/Machine/Ops.lean ====
section
/-! DEFINITION. The shared operations: the transmit queue and its offer line, REPORTs and POSITION notices, the
own claim list and its releases, span aborts, entries to a carriage state, the raising of a fault. -/

namespace Sys2Proof.Machine

open Sys2Proof

/-! ## Counters -/

/-- A malformed frame is counted; a frame, whole or not, ends the idle line (R184, R188, R181). -/
def countMalformed (s : State) : State :=
  s.setTli { s.tli with idle := false, counters := { s.tli.counters with malformed := satInc s.tli.counters.malformed } }

/-- An inbound overflow is counted (R187). -/
def countOverflow (s : State) : State :=
  s.setTli { s.tli with counters := { s.tli.counters with overflow := satInc s.tli.counters.overflow } }

/-! ## The transmit queue (R189, R190) -/

/-- The line class of a frame (R192). -/
def frameClass : Frame → Nat
  | .halt _ _ => 0
  | .object _ _ _ | .release _ => 1
  | .claim _ _ _ | .points _ => 2
  | .pointsAsk _ _ _ _ | .pointsFree _ => 3
  | .position _ => 4
  | .carriageStatus _ _ | .pointsStatus _ _ | .report _ _ => 5

/-- The index of the first frame in queue order: by class, and within a class by time of entry (R189). -/
def classIdx (q : List TxEntry) : Option Nat :=
  let best := q.foldl (fun m e => min m (frameClass e.frame)) 8
  q.findIdx? (fun e => decide (frameClass e.frame = best))

/-- The index of the frame the station sends next: the REPORT that must be the first frame after an address clash, while one
waits (R198), and otherwise the first in queue order (R189). DEDUCED (assumption 56). -/
def nextIdx (q : List TxEntry) : Option Nat :=
  match q.findIdx? (fun e => decide (e.tag = .first)) with
  | some i => some i
  | none => classIdx q

/-- The frame being sent. -/
def sendingEntry (t : Tli) : Option TxEntry := t.txq.find? TxEntry.sending

def isPosition (e : TxEntry) : Bool :=
  match e.frame with
  | .position _ => true
  | _ => false

def isPeriodicPoints (e : TxEntry) : Bool :=
  match e.frame with
  | .points _ => e.periodic
  | _ => false

/-- A transmit displacement is counted. -/
def Counters.displace (c : Counters) : Counters := { c with displaced := satInc c.displaced }

/-- A frame that has to wait for room: its block keeps it and joins the end of the offer line, with each frame it keeps
(R190). DEDUCED (assumption 16). DEDUCED (assumption 42). -/
def keepFrame (e : TxEntry) (t : Tli) : Tli :=
  { t with kept := t.kept ++ [e], offerLine := t.offerLine ++ [e.block] }

/-- A frame waits behind the kept ones where its own block keeps a frame (R190). -/
def waitsBehind (e : TxEntry) (kept : List TxEntry) : Bool := kept.any (fun k => decide (k.block = e.block))

/-- A frame offered that replaces no other: the last four rows of R190. DEDUCED (assumption 42).
DESIGN CHOICE (assumption 54). DESIGN CHOICE (assumption 66). DEDUCED (assumption 79). -/
def offerPlain (e : TxEntry) (t : Tli) : Tli :=
  if e.periodic then
    if t.txq.length < Config.txCap then { t with txq := t.txq ++ [e] }
    else { t with counters := t.counters.displace }
  else if waitsBehind e t.kept then keepFrame e t
  else if t.txq.length < Config.txCap then { t with txq := t.txq ++ [e] }
  else match t.txq.findIdx? (fun k => k.periodic && !k.sending) with
    | some i => { t with txq := t.txq.eraseIdx i ++ [e], counters := t.counters.displace }
    | none => keepFrame e t

/-- A frame offered to the transmit queue (R190); while the clash flag is set it is discarded without count
(R183). A newer POSITION, or periodic POINTS notice, replaces a waiting one, and is kept while one is being sent. -/
def offerTli (e : TxEntry) (t : Tli) : Tli :=
  if t.clash then t
  else match e.frame with
  | .position n =>
    if t.txq.any (fun k => isPosition k && !k.sending) then
      { t with txq := t.txq.map (fun k => if isPosition k && !k.sending then { k with frame := .position n } else k) }
    else if t.txq.any isPosition then { t with keptPosition := some n }
    else offerPlain e t
  | .points n =>
    if e.periodic && t.txq.any (fun k => isPeriodicPoints k && !k.sending) then
      { t with txq := t.txq.map (fun k =>
          if isPeriodicPoints k && !k.sending then { k with frame := .points n } else k) }
    else if e.periodic && t.txq.any isPeriodicPoints then { t with keptPoints := some n }
    else offerPlain e t
  | _ => offerPlain e t

/-- The oldest frame a block keeps, by its index. -/
def oldestKept (kept : List TxEntry) (b : Block) : Option Nat := kept.findIdx? (fun k => decide (k.block = b))

/-- The next place to open goes to the block first in the offer line, for its oldest kept frame (R190). -/
def nextPlace (t : Tli) : Option (Block × Nat) :=
  t.offerLine.findSome? (fun b => (oldestKept t.kept b).map (fun i => (b, i)))

/-- A block places its oldest kept frame, and the next place goes to the next in line: the block's first place in the line
is gone, and with it the block, if it keeps no other frame (R190). DEDUCED (assumption 16). -/
def placeKept (b : Block) (i : Nat) (t : Tli) : Tli :=
  { t with txq := t.txq ++ t.kept[i]?.toList, kept := t.kept.eraseIdx i, offerLine := t.offerLine.erase b }

/-- The offer line places its kept frames while there is room (R190). -/
def fillLoop : Nat → Tli → Tli
  | 0, t => t
  | n + 1, t =>
    if t.txq.length < Config.txCap then
      match nextPlace t with
      | none => t
      | some (b, i) => fillLoop n (placeKept b i t)
    else t

/-- The places that have opened are filled from the offer line. -/
def fill (t : Tli) : Tli := fillLoop Config.txCap t

/-- A kept frame that its block has withdrawn takes its place in the offer line with it: the places left are those of the
frames still kept (R190). DEDUCED (assumption 16). -/
def pruneLine (t : Tli) : Tli := { t with offerLine := t.kept.map TxEntry.block }

/-- A CLAIM loses its entries for the released segments, and is withdrawn when none is left; a frame being sent
takes the change only if it waits again (R67, R189). DEDUCED (assumption 18). -/
def cutClaim (segs : List Seg) (e : TxEntry) : Option TxEntry :=
  match e.frame with
  | .claim c p items =>
    if e.sending then some { e with cut := e.cut ++ segs }
    else
      let left := items.filter (fun i => decide (i.seg ∉ segs))
      if left.isEmpty then none else some { e with frame := .claim c p left }
  | _ => some e

/-- The waiting and kept CLAIMs of this node are edited for released segments (R67, step 2). -/
def editClaims (segs : List Seg) (t : Tli) : Tli :=
  fill (pruneLine { t with txq := t.txq.filterMap (cutClaim segs), kept := t.kept.filterMap (cutClaim segs) })

/-- Whether a frame is the announcement, or a POINTS-ASK, of the span in flight over the given segments. -/
def isSpanFrame (segs : List Seg) (e : TxEntry) : Bool :=
  match e.tag with
  | .ask _ g => decide (g ∈ segs)
  | .announcement => true
  | _ => false

/-- The waiting announcement and POINTS-ASKs of an aborted span are withdrawn; one being sent only if it waits again
(R57, step 1). DEDUCED (assumption 18). -/
def withdrawSpanFrames (segs : List Seg) (t : Tli) : Tli :=
  fill (pruneLine
    { t with txq := (t.txq.filter (fun e => !(isSpanFrame segs e && !e.sending))).map
               (fun e => if isSpanFrame segs e then { e with withdrawn := true } else e),
             kept := t.kept.filter (fun e => !isSpanFrame segs e) })

/-- The notice kept while its like was being sent, which replaces that one as soon as it loses the line (R190). -/
def keptLike (t : Tli) (e : TxEntry) : Option Frame :=
  match e.frame with
  | .position _ => t.keptPosition.map .position
  | .points _ => if e.periodic then t.keptPoints.map .points else none
  | _ => none

/-- A frame that stops being sent waits again at its place: the kept POSITION or POINTS notice replaces it, what was
withdrawn leaves, and what was released is cut (R57, R182, R183, R190). DEDUCED (assumption 18).
DEDUCED (assumption 53). -/
def waitAgain (t : Tli) : Tli :=
  let again (e : TxEntry) : Option TxEntry :=
    if !e.sending then some e
    else match keptLike t e with
      | some f => some { e with sending := false, cut := [], withdrawn := false, frame := f }
      | none => if e.withdrawn then none else cutClaim e.cut { e with sending := false, cut := [] }
  let q := t.txq.filterMap again
  let sentPosition := t.txq.any (fun e => e.sending && isPosition e)
  let sentPoints := t.txq.any (fun e => e.sending && isPeriodicPoints e)
  fill { t with txq := q,
                keptPosition := if sentPosition then none else t.keptPosition,
                keptPoints := if sentPoints then none else t.keptPoints }

/-- The refresh countdown restarts when every frame of the refresh has left, been withdrawn or been discarded
(R68). -/
def settleRefresh (s : State) : State :=
  if s.ce.refreshOut && !s.tli.txq.any (fun e => decide (e.tag = .refresh)) then
    s.setCe { s.ce with refreshOut := false, refresh := some 0 }
  else s

/-- A block queues a frame. -/
def offer (b : Block) (periodic : Bool) (tag : TxTag) (f : Frame) (s : State) : State :=
  settleRefresh (s.setTli (offerTli
    { frame := f, block := b, periodic := periodic, tag := tag, sending := false, cut := [], withdrawn := false }
    s.tli))

/-- A block queues a REPORT to the console address; while there is none, no REPORT is produced (R193). -/
def report (b : Block) (subject : Subject) (out : ReportOutcome) (oid : Nat) (s : State) : State :=
  match console s with
  | none => s
  | some c => offer b false .plain (.report c { subject := subject, outcome := out, oid := oid }) s

/-! ## POSITION notices (R119, R120) -/

/-- The offset field of a POSITION: the offset itself, or a free value where it does not fit.
DESIGN CHOICE (assumption 40). -/
def noticeOffset (o : Mm) : Mm := if o ≤ Config.offsetTop then o else (Config.wideOffset o).toNat

/-- The POSITION as it stands now (R119). -/
def positionNotice (s : State) : PositionNotice :=
  { headSeg := (headPos s).1, headOff := noticeOffset (headPos s).2,
    dir := if s.pu.known then travelDir s else .up,
    tailSeg := (tailPos s).1, tailOff := noticeOffset (tailPos s).2,
    speed := min (measuredSpeed s) 4095, state := s.cs.state, period := effPeriod s }

/-- The Position Unit queues a POSITION and measures its period from it; after an address clash it queues none
until a reset clears the clash, and before COMMISSION no period runs (R120). DESIGN CHOICE (assumption 78). -/
def queuePosition (s : State) : State :=
  if s.tli.clash then s
  else
    let s1 := offer .pu true .plain (.position (positionNotice s)) s
    s1.setPu { s1.pu with timer := if s1.cs.comm.isSome then some 0 else none }

/-! ## The own claim list (R64 to R67) -/

/-- The Claim Engine hands a new firm end (R66). -/
def refirm (s : State) : State := s.setCe { s.ce with firmEnd := firmEndOf s }

/-- The own claim list changes: the firm end is recomputed (R66), and where the effective position period has
changed and has already passed, a POSITION is queued at once (R120). DESIGN CHOICE (assumption 71). -/
def setOwn (own : List OwnClaim) (s : State) : State :=
  let s1 := refirm (s.setCe { s.ce with own := own })
  if effPeriod s ≠ effPeriod s1 ∧ effPeriod s1 ≠ 0 ∧ (s1.pu.timer.any (fun t => decide (effPeriod s1 ≤ t))) = true
  then queuePosition s1
  else s1

/-- The Claim Engine queues one CLAIM of own entries, non-periodic, with a rank class (R46, R55, R71, R73, R75). -/
def queueClaim (tag : TxTag) (cls : Nat) (entries : List OwnClaim) (s : State) : State :=
  if entries.isEmpty then s
  else offer .ce false tag (.claim cls (cfg s).refresh (entries.map itemOf)) s

/-- RELEASE notices naming segments, at most 4 ids each, in order (R67, step 3). -/
def queueReleases (segs : List Seg) (s : State) : State :=
  (chunk4 segs).foldl (fun t ids => offer .ce false .plain (.release ids) t) s

/-- One POINTS-FREE to each node (R67, step 4). DESIGN CHOICE (assumption 77). -/
def queueFrees (nodes : List Addr) (s : State) : State :=
  (nub nodes).foldl (fun t n => offer .ce false .plain (.pointsFree n) t) s

/-- The node of a released entry whose points status is queued, granted or freed (R67, step 4). -/
def freeNode (e : OwnClaim) : Option Addr :=
  match e.points with
  | none => none
  | some p =>
    match p.status with
    | .asked => none
    | _ => some p.node

/-- Entries leave the list in one step of R67: waiting CLAIMs are edited, RELEASEs name the segments `named`, and
one POINTS-FREE goes to each node of `frees`. -/
def releaseStep (gone named : List Seg) (frees : List Addr) (s : State) : State :=
  let s1 := setOwn (s.ce.own.filter (fun e => decide (e.seg ∉ gone))) s
  let s2 := settleRefresh (s1.setTli (editClaims gone s1.tli))
  queueFrees frees (queueReleases named s2)

/-- The own entries on a set of segments, in list order. -/
def ownOf (gone : List Seg) (s : State) : List OwnClaim := s.ce.own.filter (fun e => decide (e.seg ∈ gone))

/-- Own entries are released (R67). DESIGN CHOICE (assumption 77). -/
def releaseOwn (gone : List Seg) (s : State) : State :=
  let leaving := ownOf gone s
  if leaving.isEmpty then s
  else releaseStep (leaving.map OwnClaim.seg) (leaving.map OwnClaim.seg) (leaving.filterMap freeNode) s

/-! ## The span transaction -/

/-- The abort record is written and the count rises (R57, step 5). -/
def recordAbort (reason : AbortReason) (seg : Seg) (rival : Addr) (attempt : Nat) (s : State) : State :=
  let oid := match s.os.active with
    | some a => a.ord.id
    | none => 0
  s.setCe { s.ce with abort := some { reason := reason, seg := seg, rival := rival, attempt := attempt, oid := oid },
                      abortCount := satInc s.ce.abortCount }

/-- The next leg to claim is set (R11). -/
def setNextClaim (k : Nat) (s : State) : State :=
  match s.os.active with
  | none => s
  | some a => s.setOs { s.os with active := some { a with nextClaim := k } }

/-- The span in flight ends without an abort's record (R57 steps 1 to 4 and 6): its waiting frames are withdrawn,
its entries leave together with those on `more` in one step of R67, the span's own named in the RELEASE only when it
was announced, and its acknowledged asks are freed. DEDUCED (assumption 17). DEDUCED (assumption 27).
DESIGN CHOICE (assumption 77). -/
def endSpan (more : List Seg) (s : State) : State :=
  match s.ce.span with
  | none => releaseOwn more s
  | some sp =>
    let segs := spanSegs s
    let leaving := ownOf (segs ++ more) s
    let others := leaving.filter (fun e => decide (e.seg ∉ segs))
    let s1 := s.setTli (withdrawSpanFrames segs s.tli)
    let s2 := releaseStep (leaving.map OwnClaim.seg)
      ((if sp.announced then leaving else others).map OwnClaim.seg)
      (others.filterMap freeNode ++ sp.acked) s1
    let s3 := setNextClaim sp.first s2
    s3.setCe { s3.ce with span := none }

/-- An abort taken after the local check (R57), naming a segment and a rival. -/
def abortSpan (reason : AbortReason) (seg : Seg) (rival : Addr) (s : State) : State :=
  match s.ce.span with
  | none => s
  | some sp => recordAbort reason seg rival sp.attempt (endSpan [] s)

/-- A local event aborts the span in flight, naming its first segment with rival 0 (R50). -/
def abortLocal (reason : AbortReason) (s : State) : State :=
  abortSpan reason ((spanSegs s).headD 0) 0 s

/-- The attempt state at order start and order end (R40). -/
def resetAttempts (s : State) : State :=
  s.setCe { s.ce with backoff := none, attempts := 0, attemptLeg := none, spanLimit := Config.spanMax,
                      failedHold := none }

/-! ## Blocks that clear at a state change -/

/-- The Convoy Regulator clears its state (R153). -/
def clearConvoy (s : State) : State := s.setCr { s.cr with leader := none, limit := none, hold := false }

/-- The brake mode on entry to a state (R137); a moving state leaves it. -/
def entryBrake (st : CarState) (b : BrakeMode) : BrakeMode :=
  match st with
  | .uncommissioned | .unlocated | .fault => .emergency
  | .ready | .parked | .undocking | .docking => .service
  | .running | .stopping | .halted => b

/-- States on whose entry the drift reference is set (R107). -/
def driftState : CarState → Bool
  | .ready | .parked | .undocking | .docking => true
  | _ => false

/-- The Carriage Supervisor enters a state other than FAULT: demand, brake and rest (R123, R137, R138), the drift
reference (R107), the convoy state (R153), the STOP held, and a POSITION with the new state (R120).
DEDUCED (assumption 30). -/
def enterState (st : CarState) (s : State) : State :=
  if st = s.cs.state then s
  else
    let moving := movingState st
    let s1 := s.setCs { s.cs with state := st, stopCond := if st = .stopping then s.cs.stopCond else none }
    let s2 := s1.setEu
      { s1.eu with demand := if moving then s1.eu.demand else 0,
                   brake := entryBrake st s1.eu.brake,
                   exceed := if moving then s1.eu.exceed else 0,
                   rest := moving && decide (s1.eu.demand = 0) && s1.pu.standstill,
                   stopTarget := if st = .stopping then s1.eu.stopTarget else none }
    let s3 := if driftState st then s2.setPu { s2.pu with stillDist := 0 } else s2
    queuePosition (if moving then s3 else clearConvoy s3)

/-! ## The order leaves the ACTIVE slot -/

/-- The occupied-leg memory an order writes as it leaves (R12): the segments and limits from the tail leg to the
head leg, and the rear segment still held. DEDUCED (assumption 28). -/
def memoryOf (a : ActiveOrder) : List (Seg × Speed) :=
  let lo := match a.tailLeg with
    | .leg k => k
    | .rear => 1
  let legs := (a.ord.legs.take a.headLeg).drop (lo - 1)
  ((match a.rear with
    | some r => [(r.seg, r.limit)]
    | none => []) ++ legs.map (fun l => (l.seg, l.limit))).take 2

/-- What a reader keeps of the boundary it last had accepted as the order ends, its end at a route coordinate (R110).
DEDUCED (assumption 20). -/
def keepRead (lead : End) (at' : Int) (l : LastRead) : EndRead :=
  { first := l.first, second := l.second, past := travelDistance lead (at' - l.coord) }

/-- The boundary last accepted that the reader at an end keeps as the order ends. -/
def readKept (s : State) (a : ActiveOrder) (r : Route) (e : End) : Option EndRead :=
  if e = a.ord.lead then r.lastLead.map (keepRead a.ord.lead r.x)
  else r.lastTrail.map (keepRead a.ord.lead (tailCoord s r))

/-- The Position Unit converts the route form into the end form (R105). -/
def toEndForm (s : State) : State :=
  match s.pu.route, s.os.active with
  | some r, some a =>
    let mk (e : End) : EndRec :=
      { seg := (endPos s e).1, off := (endPos s e).2, aSense := routeSense a e }
    s.setPu { s.pu with endA := some (mk .a), endB := some (mk .b), route := none, padRead := none,
                        readA := readKept s a r .a, readB := readKept s a r .b }
  | _, _ => s.setPu { s.pu with route := none, padRead := none }

/-- The active order leaves the slot, whatever the reason, and one UNDERWAY or ENDING writes the whole memory anew
(R12, R40, R77, R105, R116, R122, R153). DEDUCED (assumption 27). DESIGN CHOICE (assumption 57). -/
def orderLeaves (s : State) : State :=
  let s1 := endSpan [] s
  let s2 := match started s1 with
    | some a => s1.setOs { s1.os with memory := memoryOf a }
    | none => s1
  let s3 := toEndForm s2
  let s4 := s3.setOs { s3.os with active := none, stopMark := false }
  let s5 := resetAttempts (s4.setCe
    { s4.ce with own := s4.ce.own.map (fun e => { e with leg := .none }), firmEnd := none, exempt := false })
  let s6 := s5.setEu { s5.eu with padStop := false, stopTarget := none }
  clearConvoy s6

/-! ## Faults (R172 to R174) -/

/-- The positional codes (R172). -/
def positionalCode : FaultCode → Bool
  | .routeMismatch | .headMarkerMissed | .padMarkerMissed | .positionDiscrepancy | .tailMarkersMissed => true
  | _ => false

/-- ESTOP and DRIVE_FAULT stop the jacks (R162). -/
def stopsJacks (c : FaultCode) : Bool := decide (c = .estop) || decide (c = .driveFault)

/-- The jack drive command becomes OFF and the timers stop. -/
def jacksOff (s : State) : State :=
  s.setDs { s.ds with cmd := .off, dockTimer := none, undockTimer := none }

/-- The segments kept in the list for a FIRM_CLASH (R73). -/
def clashSegs (s : State) : List Seg := s.ce.clashMem.map Prod.snd

/-- A further fault (R174, R98): the count, the last further code and the positional mark. -/
def FaultRec.add (f : FaultRec) (c : FaultCode) : FaultRec :=
  { f with further := satInc f.further, last := some c, positional := f.positional || positionalCode c }

/-- The Order Store ends the active order FAILED FAULT and then cancels the pending one (R19). -/
def failOrders (s : State) : State :=
  let s1 := match s.os.active with
    | some a => report .os .orderEnd (.failed .fault) a.ord.id s
    | none => s
  match s1.os.pending with
  | some o => report .os .orderEnd .cancelled o.id s1
  | none => s1

/-- The claims of a carriage as it enters FAULT: a span in flight aborts FAULTED, and in the same step the claims
ahead of the occupied segments are released, less a clash entry (R78). -/
def faultClaims (s : State) : State :=
  let ahead := (aheadSegs s).filter (fun g => decide (g ∉ clashSegs s))
  match s.ce.span with
  | none => releaseOwn ahead s
  | some sp => recordAbort .faulted ((spanSegs s).headD 0) 0 sp.attempt (endSpan ahead s)

/-- A first fault (R173), in the order of its list. DEDUCED (assumption 29). DEDUCED (assumption 75). -/
def firstFault (code : FaultCode) (seg : Seg) (off : Mm) (s : State) : State :=
  let oid := match s.os.active with
    | some a => a.ord.id
    | none => 0
  let s1 := s.setCs
    { s.cs with state := .fault, stopCond := none,
                fault := some { code := code, seg := seg, off := off, further := 0, last := none,
                                positional := positionalCode code } }
  let s2 := s1.setEu { s1.eu with demand := 0, brake := .emergency, stopTarget := none, padStop := false,
                                  exceed := 0, rest := false }
  let s3 := report .cs .fault (.faultRaised code) oid s2
  let s4 := failOrders s3
  let s5 := orderLeaves (faultClaims s4)
  let s6 := s5.setOs { s5.os with pending := none }
  let s7 := if stopsJacks code then jacksOff s6 else s6
  queuePosition s7

/-- A further fault (R174). -/
def furtherFault (code : FaultCode) (s : State) : State :=
  let s1 := s.setCs { s.cs with fault := s.cs.fault.map (fun f => f.add code) }
  let s2 := report .cs .fault (.faultRaised code) 0 s1
  if stopsJacks code then jacksOff s2 else s2

/-- A fault is raised with a code and a named position (R172). -/
def raiseFaultAt (code : FaultCode) (seg : Seg) (off : Mm) (s : State) : State :=
  if s.cs.state = .fault then furtherFault code s else firstFault code seg off s

/-- A fault that names the notice head's position, 0 and 0 while the position is unknown (R172). -/
def raiseFault (code : FaultCode) (s : State) : State :=
  raiseFaultAt code (headPos s).1 (headPos s).2 s

/-- FIRM_CLASH (R73): the pair enters the clash memory, so that its entry is kept; the fault is raised; and one
CLAIM carrying the entry is queued. A pair already in the memory in FAULT raises nothing. DEDUCED (assumption 25). -/
def raiseClash (rival : Addr) (g : Seg) (s : State) : State :=
  if s.cs.state = .fault ∧ (rival, g) ∈ s.ce.clashMem then s
  else
    let s1 := s.setCe { s.ce with clashMem := s.ce.clashMem ++ [(rival, g)] }
    let s2 := raiseFaultAt .firmClash g 0 s1
    queueClaim .plain (claimClass s2) (s2.ce.own.filter (fun e => decide (e.seg = g))) s2

/-- The carriage leaves FAULT: the record clears, and the memories of R73 and R103 empty. -/
def forgetFault (s : State) : State :=
  let s1 := s.setCs { s.cs with fault := none }
  s1.setCe { s1.ce with clashMem := [], lostMem := [] }

/-- The entry under the head takes state STANDING and its CLAIM is queued, unless it stands so already (R71). -/
def makeStanding (s : State) : State :=
  let g := (headPos s).1
  if s.ce.own.any (fun e => decide (e.seg = g) && decide (e.st ≠ .standing)) then
    let s1 := setOwn (s.ce.own.map (fun e => if e.seg = g then { e with st := .standing } else e)) s
    queueClaim .plain (claimClass s1) (s1.ce.own.filter (fun e => decide (e.seg = g))) s1
  else s

/-- The Carriage Supervisor enters PARKED (R71). DESIGN CHOICE (assumption 76). -/
def enterParked (s : State) : State := enterState .parked (makeStanding s)

/-- Entry to UNLOCATED: every own claim is released, the position becomes unknown and the occupied-leg memory is
cleared (R12, R78, R115). DESIGN CHOICE (assumption 76). -/
def enterUnlocated (s : State) : State :=
  let s1 := releaseOwn (s.ce.own.map OwnClaim.seg) s
  let s2 := s1.setPu
    { s1.pu with known := false, endA := none, endB := none, route := none, readA := none, readB := none,
                 lastCorrection := 0, deferral := none, padRead := none, held := none }
  let s3 := s2.setOs { s2.os with memory := [] }
  enterState .unlocated s3

/-- The faults of inputs asserted as the carriage leaves UNLOCATED, or comes up from a reset (R171, R178).
DESIGN CHOICE (assumption 26). DEDUCED (assumption 38). -/
def inputFaults (s : State) : State :=
  let s1 := if s.cs.eStop then raiseFault .estop s else s
  if s1.cs.driveFault then raiseFault .driveFault s1 else s1

/-! ## The acquisition trigger (R42, R43) -/

/-- The lookahead (R43). -/
def lookahead (s : State) : Mm :=
  2 * (ceilingNow s * ceilingNow s / (2 * (cfg s).decel)) + (cfg s).margin

/-- The remaining authority (R43). -/
def remaining (s : State) (x : Int) : Mm := (((authorityEnd s).getD 0 : Nat) - x).toNat

/-- The first leg the Claim Engine would claim lies on a segment already in its list (R44). -/
def firstLegHeld (s : State) (a : ActiveOrder) : Bool :=
  match legAt a.ord.legs a.nextClaim with
  | none => false
  | some l => (ownOn s l.seg).isSome

/-- All the conditions of R42, with the lookahead of R43 and the first leg of R44. DEDUCED (assumption 8).
DEDUCED (assumption 19). -/
def acquisitionReady (s : State) : Bool :=
  match s.os.active, s.pu.route with
  | some a, some r =>
    decide (s.cs.state = .running) && decide (a.phase = .underway) &&
    s.ce.span.isNone && s.ce.backoff.isNone &&
    decide (a.nextClaim ≤ a.ord.legs.length) &&
    s.cs.latch.isNone && s.ov.listen.isNone && !s.tli.silent &&
    decide (s.ce.own.length < Config.ownCap) && s.ce.failedHold.isNone &&
    (s.ce.exempt || decide (remaining s r.x ≤ lookahead s)) &&
    !firstLegHeld s a
  | _, _ => false

/-- The Claim Engine tests the conditions of R42: where they hold, the acquisition starts as the step
SPAN_ACQUISITION_START that follows. DEDUCED (assumption 8). -/
def testTrigger (s : State) : State :=
  if acquisitionReady s then s.setCe { s.ce with triggered := true } else s

/-! ## The head against the firm end (R140) -/

/-- AUTHORITY_OVERRUN when the head route coordinate exceeds the firm end in a moving state.
DESIGN CHOICE (assumption 22). -/
def overrunTest (s : State) : State :=
  match s.pu.route, s.ce.firmEnd with
  | some r, some f =>
    if movingState s.cs.state && (started s).isSome && decide ((f : Int) < r.x) then
      raiseFault .authorityOverrun s
    else s
  | _, _ => s

end Sys2Proof.Machine
end

