-- ==== Sys2Proof/Machine/Movement.lean ====
section
/-! DEFINITION. The life of an order across the blocks: its start, promotion and ending, the jack motions, the rest
event, the counted aborts and the blocked route, and the taking of a held location. -/

namespace Sys2Proof.Machine

open Sys2Proof

/-! ## Order start (R8, R76, R105, R160) -/

/-- The first-leg test: the segment under the leading end is leg 1's, and leg 1 runs in the direction that moves
that end away from the other (R8). -/
def firstLegOk (o : OrderRec) (s : State) : Bool :=
  match endRec s o.lead, legAt o.legs 1 with
  | some e, some l => decide (e.seg = l.seg) && decide (l.dir = turn o.lead e.aSense)
  | _, _ => false

/-- The rear segment at order start (R8): none when the tail lies on leg 1's segment; its direction leads toward
leg 1, and its limit comes from the occupied-leg memory, or is the ceiling (R12). -/
def rearAtStart (o : OrderRec) (l1 : Leg) (tail : EndRec) (s : State) : Option Rear :=
  if tail.seg = l1.seg then none
  else some { seg := tail.seg, dir := turn o.lead tail.aSense,
              limit := match s.os.memory.find? (fun m => decide (m.1 = tail.seg)) with
                | some m => m.2
                | none => (cfg s).ceiling }

/-- An own entry tied to the order (R76). -/
def tieEntry (l1 : Leg) (rear : Option Rear) (deferral : Option Seg) (e : OwnClaim) : OwnClaim :=
  if e.seg = l1.seg then
    { e with leg := .leg 1, dir := l1.dir, convoy := l1.convoy,
             points := match e.points with
               | some p => some p
               | none => l1.points.map (fun p => { node := p.node, pos := p.pos, status := .freed }) }
  else match rear with
    | some r =>
      if e.seg = r.seg then { e with leg := .rear, dir := r.dir, convoy := false }
      else if deferral = some e.seg then { e with leg := .rear } else e
    | none => if deferral = some e.seg then { e with leg := .rear } else e

/-- The tied list, in route order from the tail (R64, R76): deferred entries, the rear segment, leg 1.
DEDUCED (assumption 24). -/
def tieOwn (l1 : Leg) (rear : Option Rear) (deferral : Option Seg) (own : List OwnClaim) : List OwnClaim :=
  let tied := own.map (tieEntry l1 rear deferral)
  let isRear (e : OwnClaim) : Bool := rear.any (fun r => decide (r.seg = e.seg))
  tied.filter (fun e => decide (e.leg = .rear) && !isRear e) ++
    tied.filter (fun e => decide (e.leg = .rear) && isRear e) ++
    tied.filter (fun e => decide (e.leg ≠ .rear))

/-- Whether the tying changed an entry's direction or mark (R76). -/
def tieChanged (before after : List OwnClaim) : Bool :=
  after.any (fun e => before.any (fun b => decide (b.seg = e.seg) &&
    (decide (b.dir ≠ e.dir) || decide (b.convoy ≠ e.convoy))))

/-- The destination pad lies behind the head by more than the tolerance with no pad read: PAD_MARKER_MISSED
(R116). -/
def padWatch (s : State) : State :=
  match started s, s.pu.route with
  | some a, some r =>
    match lastPad a.ord with
    | some p =>
      if s.pu.padRead.isNone && decide (((padCoord a.ord p + (cfg s).tol : Nat) : Int) < r.x) then
        raiseFault .padMarkerMissed s
      else s
    | none => s
  | _, _ => s

/-- The jacks have come up with no STOP marked: HALTED while the latch is set, and otherwise RUNNING (R160). -/
def leaveUndocking (s : State) : State :=
  let s1 := jacksOff s
  if s1.cs.latch.isSome then enterState .halted s1 else testTrigger (enterState .running s1)

/-- The CS enters UNDOCKING (R71, R160): the jack drive rises under its timer, the STANDING entry becomes FIRM with
a CLAIM; if the jacks are already UP the undocking completes at once. DESIGN CHOICE (assumption 72). -/
def startUndocking (s : State) : State :=
  let s1 := s.setDs { s.ds with cmd := .raise, undockTimer := some 0 }
  let s2 := enterState .undocking s1
  let standing := s2.ce.own.filter (fun e => decide (e.st = .standing))
  let s3 := if standing.isEmpty then s2 else
    setOwn (s2.ce.own.map (fun e => if e.st = .standing then { e with st := .firm } else e)) s2
  let s4 := queueClaim .plain (claimClass s3) (standing.map (fun e => { e with st := .firm })) s3
  if s4.ds.pos = .up then leaveUndocking s4 else s4

/-- The boundary a reader kept, as the order that starts holds it: with its route coordinate, that of the reader's end being
given (R110). DEDUCED (assumption 20). -/
def readBack (lead : End) (at' : Int) (k : EndRead) : LastRead :=
  { first := k.first, second := k.second, coord := at' - travelDistance lead k.past }

/-- The boundary the reader at an end has kept. -/
def keptRead (s : State) (e : End) : Option EndRead :=
  match e with
  | .a => s.pu.readA
  | .b => s.pu.readB

/-- The order in the ACTIVE slot starts, its first-leg test passed (R8); the firm end then handed is tested against the head
(R140). DESIGN CHOICE (assumption 22). DESIGN CHOICE (assumption 64). DESIGN CHOICE (assumption 73).
DEDUCED (assumption 75). -/
def beginOrder (o : OrderRec) (s : State) : State :=
  match endRec s o.lead, endRec s (otherEnd o.lead), legAt o.legs 1 with
  | some head, some tail, some l1 =>
    let rear := rearAtStart o l1 tail s
    let x : Int := (travelOf l1 (min head.off l1.len) : Nat)
    let s1 := s.setPu
      { s.pu with route := some { x := x, trim := 0, rearOff := tail.off, tail0 := x - (cfg s).length,
                                  lastLead := (keptRead s o.lead).map (readBack o.lead x),
                                  lastTrail := (keptRead s (otherEnd o.lead)).map
                                    (readBack o.lead (x - (cfg s).length)) },
                  readA := none, readB := none, noticeHead := some o.lead, padRead := none }
    let s2 := s1.setOs
      { s1.os with active := some { ord := o, phase := .underway, headLeg := 1,
                                    tailLeg := if rear.isSome then .rear else .leg 1,
                                    nextClaim := 2, rear := rear },
                   stopMark := false }
    let s3 := resetAttempts (s2.setCe { s2.ce with exempt := true })
    let own := tieOwn l1 rear s3.pu.deferral s3.ce.own
    let s4 := setOwn own s3
    let s5 := if tieChanged s3.ce.own own then queueClaim .plain o.cls own s4 else s4
    let s6 := if s5.cs.state = .parked then startUndocking s5 else enterState .running s5
    testTrigger (overrunTest (padWatch s6))
  | _, _, _ => s

/-- The order in the ACTIVE slot is tested and starts, or leaves with REFUSED FIRST_LEG and the pending order is
promoted and tested in turn (R8, R9). The count bounds the promotions: at most one order is pending. -/
def startActive : Nat → State → State
  | 0, s => s
  | n + 1, s =>
    match s.os.active with
    | none => s
    | some a =>
      if firstLegOk a.ord s then beginOrder a.ord s
      else
        let s1 := report .os .order (.refused (.badOrder .firstLeg 0)) a.ord.id s
        match s1.os.pending with
        | none => s1.setOs { s1.os with active := none }
        | some p =>
          startActive n (s1.setOs
            { s1.os with active := some { ord := p, phase := .waiting, headLeg := 1, tailLeg := .leg 1,
                                          nextClaim := 2, rear := none },
                         pending := none })

/-- An order stored in the ACTIVE slot, not yet started (R6). DESIGN CHOICE (assumption 48). -/
def waitingOrder (o : OrderRec) : ActiveOrder :=
  { ord := o, phase := .waiting, headLeg := 1, tailLeg := .leg 1, nextClaim := 2, rear := none }

/-- Promotion (R9): the pending order moves into the ACTIVE slot, and starts unless the latch is set. -/
def promote (s : State) : State :=
  match s.os.pending with
  | none => s
  | some p =>
    let s1 := s.setOs { s.os with active := some (waitingOrder p), pending := none }
    if s1.cs.latch.isNone then startActive 2 s1 else s1

/-! ## Order endings (R13, R14, R16, R18, R77) -/

/-- The active order ends with an outcome: its REPORT, the slot, the new state READY or PARKED, the release of the
claims ahead where the ending asks for it, and the promotion. DEDUCED (assumption 75). -/
def endOrder (out : ReportOutcome) (releaseAhead parked : Bool) (s : State) : State :=
  match s.os.active with
  | none => s
  | some a =>
    let s1 := orderLeaves (report .os .orderEnd out a.ord.id s)
    let s2 := if parked then enterParked s1 else enterState .ready s1
    let s3 := if releaseAhead then releaseOwn (aheadSegs s2) s2 else s2
    promote s3

/-- Docking completes (R158). -/
def dockDone (s : State) : State := endOrder .completed false true (jacksOff s)

/-- The CS enters DOCKING (R157); with the jacks already DOWN the docking completes at once. -/
def startDocking (s : State) : State :=
  let s1 := enterState .docking (s.setDs { s.ds with cmd := .lower, dockTimer := some 0 })
  if s1.ds.pos = .down then dockDone s1 else s1

/-- Undocking completes (R16, R160). -/
def undockDone (s : State) : State :=
  if s.os.stopMark then endOrder .stopped true false (jacksOff s) else leaveUndocking s

/-- The alignment check at rest after a pad stop (R14, R156). -/
def alignmentCheck (s : State) : State :=
  match s.os.active, s.pu.route, s.pu.padRead with
  | some a, some r, some p =>
    if (r.x - p).natAbs ≤ (cfg s).dockTol then
      if (lastPad a.ord).any PadSpec.dock then startDocking s else endOrder .completed false false s
    else endOrder (.failed .misaligned) false false s
  | _, _, _ => s

/-- At rest in RUNNING at the authority end, with the first leg to claim on a segment that cannot leave the list:
the route is blocked (R44). -/
def blockedAtRest (a : ActiveOrder) (s : State) : Bool :=
  match s.pu.route with
  | some r => s.ce.span.isNone && firstLegHeld s a && decide (remaining s r.x = 0)
  | none => false

/-- The three conditions of R13, at a rest. -/
def arrived (a : ActiveOrder) (s : State) : Bool :=
  match s.pu.route with
  | some r =>
    decide (s.eu.demand = 0) && decide (a.ord.legs.length < a.nextClaim) &&
      decide (((routeEnd a.ord.legs : Nat) : Int) - (cfg s).margin ≤ r.x)
  | none => false

/-- The rest event (R138): the Order Store ends orders on it, and the Dock Sequencer checks the alignment.
DEDUCED (assumption 30). -/
def restEvent (s : State) : State :=
  let s1 := s.setEu { s.eu with rest := true }
  match s1.os.active with
  | none => s1
  | some a =>
    match a.phase, s1.cs.state with
    | .ending, .running | .ending, .stopping | .ending, .halted => endOrder (.failed .routeBlocked) true false s1
    | .underway, .stopping => endOrder .stopped true false s1
    | .underway, .running =>
      if s1.eu.padStop then alignmentCheck s1
      else if blockedAtRest a s1 then endOrder (.failed .routeBlocked) true false s1
      else if arrived a s1 then
        if (lastPad a.ord).isSome then raiseFault .padMarkerMissed s1 else endOrder .completed false false s1
      else s1
    | _, _ => s1

/-! ## Counted aborts (R58 to R60) -/

/-- The reasons that count as attempts (R58). -/
def counts : AbortReason → Bool
  | .halted | .lineSilent | .stopped | .faulted => false
  | _ => true

/-- The reasons that may shrink the span limit (R59). -/
def shrinks : AbortReason → Bool
  | .localConflict | .outranked | .firmConflict | .objected => true
  | _ => false

/-- The route is reported blocked: the order enters ENDING, and a carriage already at rest ends it (R18, R60,
R138). -/
def routeBlocked (s : State) : State :=
  match s.os.active with
  | none => s
  | some a =>
    let s1 := s.setOs { s.os with active := some { a with phase := .ending } }
    if atRest s1 then restEvent s1 else s1

/-- A counted abort: the span limit shrinks when the named segment stood at position 2 or more, the attempt counter
rises, and the backoff starts or the route is blocked (R58 to R60). -/
def countAttempt (reason : AbortReason) (pos : Nat) (s : State) : State :=
  let s1 := s.setCe
    { s.ce with attempts := s.ce.attempts + 1,
                spanLimit := if shrinks reason && decide (2 ≤ pos) then min s.ce.spanLimit (pos - 1)
                             else s.ce.spanLimit }
  if s1.ce.attempts < Config.attemptMax then
    s1.setCe { s1.ce with backoff := some { elapsed := 0, limit := 250 * s1.ce.attempts + 15 * s1.tli.addr } }
  else routeBlocked s1

/-- The position of a segment in the span in flight, counted from 1 (R45, R48, R49). -/
def spanPos (g : Seg) (s : State) : Nat :=
  match (spanSegs s).findIdx? (fun h => decide (h = g)) with
  | some i => i + 1
  | none => 0

/-- An abort of the span in flight with all that follows from it: the counted ones count (R57 to R60), the firm end handed
is tested against the head (R140), and the trigger is tested (R42). DESIGN CHOICE (assumption 22). -/
def spanAbort (reason : AbortReason) (seg : Seg) (rival : Addr) (s : State) : State :=
  if s.ce.span.isNone then s
  else
    let s1 := abortSpan reason seg rival s
    testTrigger (overrunTest (if counts reason then countAttempt reason (spanPos seg s) s1 else s1))

/-! ## The located claims (R75, R118) -/

/-- The own entries taken at a location, from tail to head (R75). -/
def locatedClaims (h : HeldLoc) : List OwnClaim :=
  let head := match h.headEnd with
    | .a => h.a
    | .b => h.b
  let tail := match h.headEnd with
    | .a => h.b
    | .b => h.a
  let mk (e : EndRec) (st : ClaimState) : OwnClaim :=
    { leg := .none, seg := e.seg, dir := turn h.headEnd e.aSense, st := st, convoy := false, points := none }
  if h.pad then [mk head .standing]
  else if tail.seg = head.seg then [mk head .firm]
  else [mk tail .firm, mk head .firm]

/-- The live FIRM or STANDING entries of the claim table that conflict with an own entry (R75). -/
def clashesOf (e : OwnClaim) (s : State) : List ClaimEntry :=
  s.ov.claims.filter (fun c => decide (c.seg = e.seg) && firmState c.st && !c.stale &&
    !compatible e.dir e.convoy c.dir c.convoy)

/-- The held location is taken: the end records, the claims and their CLAIM, the state, the clashes the view
shows, and the faults of inputs that stand asserted (R75, R118, R171). DESIGN CHOICE (assumption 26).
DESIGN CHOICE (assumption 70). -/
def takeLocation (h : HeldLoc) (s : State) : State :=
  let s1 := s.setPu
    { s.pu with known := true, endA := some h.a, endB := some h.b, route := none, readA := none, readB := none,
                stillDist := 0, held := none,
                noticeHead := some h.headEnd }
  let own := locatedClaims h
  let s2 := queueClaim .plain 3 own (setOwn own s1)
  let s3 := enterState (if h.pad then .parked else .ready) s2
  let s4 := own.foldl (fun t e => (clashesOf e s3).foldl (fun u c => raiseClash c.holder e.seg u) t) s3
  inputFaults s4

/-- The location is taken when one is held, in UNLOCATED, with neither listen-in nor line silence (R75, R177). -/
def tryLocate (s : State) : State :=
  match s.pu.held with
  | none => s
  | some h =>
    if s.cs.state = .unlocated ∧ s.ov.listen.isNone ∧ s.tli.silent = false then takeLocation h s else s

end Sys2Proof.Machine
end

