-- ==== Sys2Proof/Machine/PointsOps.lean ====
section
/-! DEFINITION. The shared operations of the points node: POINTS notices, the fault record, the Segment View and
what the Points Arbiter does when it changes, serving, throws, failure. -/

namespace Sys2Proof.Machine

open Sys2Proof

/-! ## POINTS notices (R100) -/

/-- The points segment, 0 while uncommissioned. -/
def pointsSeg (s : State) : Seg :=
  match s.pa.comm with
  | some c => c.seg
  | none => 0

/-- The POINTS notice as it stands now (R100). -/
def pointsNotice (s : State) : PointsNotice :=
  { seg := pointsSeg s, state := s.ts.state, qlen := s.pa.queue.length,
    holder := match s.pa.grant with
      | some g => g.holder
      | none => 0,
    holderStale := s.pa.grant.any (fun g => !g.live),
    pos := match s.pa.grant with
      | some g => g.pos
      | none => .normal,
    requester := match s.pa.lastAnswer with
      | some a => a.1
      | none => 0,
    code := match s.pa.lastAnswer with
      | some a => a.2
      | none => .queued }

/-- A non-periodic POINTS notice is queued. -/
def queuePoints (s : State) : State := offer .pa false .plain (.points (pointsNotice s)) s

/-- What of the state a POINTS notice must announce when it changes: the points state, the holder with its stale
mark, the queue length (R100). -/
def announced (s : State) : PointsState × Option (Addr × Bool) × Nat :=
  (s.ts.state, s.pa.grant.map (fun g => (g.holder, g.live)), s.pa.queue.length)

/-- One event that changes several of these queues one notice (R100). DEDUCED (assumption 33). -/
def noticeIfChanged (before after : State) : State :=
  if announced before = announced after then after else queuePoints after

/-- An answer becomes the last-answer record and is sent in a POINTS notice of its own (R87). -/
def answer (x : Addr) (c : AnswerCode) (s : State) : State :=
  queuePoints (s.setPa { s.pa with lastAnswer := some (x, c) })

/-! ## Faults of the points node (R98) -/

/-- A fault is raised at the Points Arbiter: a first one writes the record, a later one is a further fault, and
each queues REPORT FAULT_RAISED (R98). -/
def raisePoints (code : FaultCode) (s : State) : State :=
  let rec' := match s.pa.fault with
    | none => { code := code, seg := pointsSeg s, off := 0, further := 0, last := none, positional := false }
    | some f => f.add code
  report .pa .fault (.faultRaised code) 0 (s.setPa { s.pa with fault := some rec' })

/-- The points become FAILED: the motor stops, the grant and the queue go (R93, R97, R98). -/
def pointsFail (s : State) : State :=
  let s1 := s.setTs { s.ts with state := .failed, motor := .off, timer := none }
  s1.setPa { s1.pa with grant := none, queue := [] }

/-- The points lock at a position: the motor and the throw timer stop (R91, R92, R98). -/
def lockAt (p : PointsPos) (s : State) : State :=
  s.setTs { s.ts with state := lockedAt p, motor := .off, timer := none }

/-- The one lock input asserted, if exactly one is (R81, R98). -/
def soleLock (normal reverse : Bool) : Option PointsPos :=
  match normal, reverse with
  | true, false => some .normal
  | false, true => some .reverse
  | _, _ => none

/-- The state of the points the lock inputs show at a reset (R81). -/
def stateOfLocks (normal reverse : Bool) : PointsState :=
  match soleLock normal reverse with
  | some p => lockedAt p
  | none => .failed

/-- The fault record that the lock inputs leave at a reset: LOCK_LOST when they show no position (R81). -/
def faultOfLocks (normal reverse : Bool) (seg : Seg) : Option FaultRec :=
  match soleLock normal reverse with
  | some _ => none
  | none => some { code := .lockLost, seg := seg, off := 0, further := 0, last := none, positional := false }

/-! ## Serving (R89, R90) -/

/-- The head is granted (R89). -/
def grantHead (h : AskEntry) (rest : List AskEntry) (s : State) : State :=
  s.setPa { s.pa with grant := some { holder := h.requester, pos := h.pos, live := true }, queue := rest,
                      lastAnswer := some (h.requester, .granted) }

/-- A throw begins toward a position from the one at which the points are locked (R90).
DESIGN CHOICE (assumption 50). -/
def beginThrow (target previous : PointsPos) (s : State) : State :=
  s.setTs { s.ts with state := .throwing, motor := .toward target, timer := some 0, target := target,
                      previous := previous }

/-- Serving is tested: the head is granted, or a throw begins for it, or nothing changes (R89, R90). The caller
announces what changed. -/
def serve (s : State) : State :=
  match s.pa.queue, lockedPos s.ts.state with
  | h :: rest, some at' =>
    if s.pa.comm.isSome && s.pa.grant.isNone && !listeningIn s && soleClaimant s h.requester then
      if h.pos = at' then grantHead h rest s
      else if s.pa.latch.isNone then beginThrow h.pos at' s
      else s
    else s
  | _, _ => s

/-- An event that may open serving: serving is tested after it, and one notice announces all it changed.
DEDUCED (assumption 33). -/
def serveAfter (before after : State) : State := noticeIfChanged before (serve after)

/-! ## The Segment View (R82, R83) -/

/-- A claim on the points segment by a holder (R82, R22): its entry is updated, or stored, or the overflow hold
timer starts. -/
def storeSegClaim (x : Addr) (period : Ms) (st : ClaimState) (s : State) : State :=
  let e : SegEntry := { holder := x, st := st, period := clampTo 200 1000 period, age := 0, stale := false }
  if s.sv.entries.any (fun k => decide (k.holder = x)) then
    s.setSv { s.sv with entries := s.sv.entries.map (fun k => if k.holder = x then e else k) }
  else if s.sv.entries.length < Config.segViewCap then s.setSv { s.sv with entries := s.sv.entries ++ [e] }
  else s.setSv { s.sv with overflow := some 0 }

/-- A holder's entry leaves the view. -/
def dropSegClaim (x : Addr) (s : State) : State :=
  s.setSv { s.sv with entries := s.sv.entries.filter (fun k => decide (k.holder ≠ x)) }

/-- The changes the Segment View presents: which holders have an entry, and which carry the STALE mark (R82). -/
def viewShape (s : State) : List (Addr × Bool) := s.sv.entries.map (fun e => (e.holder, e.stale))

/-- The grant state follows the holder's entry (R95), and the queue entries of requesters without a live entry
leave (R88). -/
def followView (s : State) : State :=
  s.setPa { s.pa with grant := s.pa.grant.map (fun g => { g with live := liveIn s g.holder }),
                      queue := s.pa.queue.filter (fun q => liveIn s q.requester) }

/-- The Points Arbiter acts on a change of the view, serving is tested, and one notice announces it (R82). -/
def afterView (before after : State) : State :=
  if viewShape before = viewShape after then noticeIfChanged before after
  else serveAfter before (followView after)

/-- The station holds the grant. -/
def holdsGrant (x : Addr) (s : State) : Bool := s.pa.grant.any (fun g => decide (g.holder = x))

/-- The grant is freed (R96): the record becomes none, one POINTS notice shows holder 0, and serving is tested; what
serving changes has a further notice. DEDUCED (assumption 33). -/
def freeGrant (s : State) : State :=
  let s1 := queuePoints (s.setPa { s.pa with grant := none })
  serveAfter s1 s1

/-- A station's entry leaves the request queue. -/
def dropAsk (x : Addr) (s : State) : State :=
  s.setPa { s.pa with queue := s.pa.queue.filter (fun q => decide (q.requester ≠ x)) }

/-- A holder's claim on the segment is withdrawn, by RELEASE or CLEAR-STALE: its entry leaves, its grant is freed
or its queue entry leaves, and serving is tested (R82, R88, R96, R197). -/
def withdrawClaim (x : Addr) (s : State) : State :=
  let s1 := dropSegClaim x s
  if holdsGrant x s then freeGrant (dropAsk x s1) else afterView s s1

/-! ## Recovery (R92) -/

/-- The unavailable mark of a position is set. -/
def setUnavail (p : PointsPos) (s : State) : State :=
  match p with
  | .normal => s.setPa { s.pa with unavailNormal := true }
  | .reverse => s.setPa { s.pa with unavailReverse := true }

/-- A station's ask for a position leaves the queue and is answered REFUSED_FAILED in a notice of its own. -/
def refuseQueued (p : PointsPos) (x : Addr) (s : State) : State :=
  answer x .refusedFailed
    (s.setPa { s.pa with queue := s.pa.queue.filter (fun q => !(decide (q.requester = x) && decide (q.pos = p))) })

/-- The points have locked at the end of a motion: serving is tested, and one notice shows the state as it then stands, be
it a throw back that serving has begun at once (R90 to R92, R100). DEDUCED (assumption 33). -/
def lockServed (s : State) : State := queuePoints (serve s)

/-- A recovery ends at the previous position: the target is marked unavailable, every entry that requires it is
refused in queue order, and serving is tested for those that remain (R92). DEDUCED (assumption 35). -/
def recoverPrevious (s : State) : State :=
  let target := s.ts.target
  let s1 := setUnavail target (lockAt s.ts.previous s)
  let refused := (s1.pa.queue.filter (fun q => decide (q.pos = target))).map AskEntry.requester
  if refused.isEmpty then lockServed s1
  else
    let s2 := refused.foldl (fun t x => refuseQueued target x t) s1
    serveAfter s2 s2

/-- What a lock asserted does to points in THROWING or RECOVERING (R91, R92): `before` is the state against which
the notice is judged where no motion ends. DEDUCED (assumption 34). DEDUCED (assumption 35). -/
def lockArrives (before s : State) : State :=
  match s.ts.state with
  | .throwing => if lockOf s s.ts.target then lockServed (lockAt s.ts.target s) else noticeIfChanged before s
  | .recovering =>
    if lockOf s s.ts.previous then recoverPrevious s
    else if lockOf s s.ts.target then lockServed (lockAt s.ts.target s)
    else noticeIfChanged before s
  | _ => noticeIfChanged before s

end Sys2Proof.Machine
end

