-- ==== Sys2Proof/Machine/LineOps.lean ====
section
/-! DEFINITION. The shared operations of a frame's arrival: line silence, the resume watcher, the address clash,
the inbound queue and the delivery of a request to its block. -/

namespace Sys2Proof.Machine

open Sys2Proof

/-! ## What the resume watcher sees (R169) -/

/-- A frame as the resume watcher sees it. -/
inductive Seen where
  | resumeA (token : Nat)
  | resumeB (token : Nat)
  | other
  deriving DecidableEq, Repr

/-- The table of R169: the watcher after a frame from `src`, and whether the pair is complete. -/
def watchStep (con : Option Addr) (w : Option Watcher) (src : Addr) (f : Seen) : Option Watcher × Bool :=
  match f with
  | .resumeA t =>
    (if con = some src then some { sender := src, token := t, timer := 0 } else none, false)
  | .resumeB t =>
    match w with
    | none => (none, false)
    | some w => (none, decide (src = w.sender) && decide (t = w.token))
  | .other => (none, false)

/-- The watcher of the node. -/
def watcherOf (s : State) : Option Watcher :=
  match s.tli.kind with
  | .carriage => s.cs.watcher
  | .points => s.pa.watcher

/-- The watcher of the node is set. -/
def setWatcher (w : Option Watcher) (s : State) : State :=
  match s.tli.kind with
  | .carriage => s.setCs { s.cs with watcher := w }
  | .points => s.setPa { s.pa with watcher := w }

/-- The watcher acts on a frame heard. -/
def watch (src : Addr) (f : Seen) (s : State) : State :=
  setWatcher (watchStep (console s) (watcherOf s) src f).1 s

/-- The frame completes the resume pair. -/
def completes (src : Addr) (f : Seen) (s : State) : Bool :=
  (watchStep (console s) (watcherOf s) src f).2

/-! ## A valid frame from another station (R185, R191) -/

/-- The view of the node starts a listen-in of 4,000 ms (R37, R84). -/
def startListen (s : State) : State :=
  match s.tli.kind with
  | .carriage => s.setOv { s.ov with listen := some 0 }
  | .points => s.setSv { s.sv with listen := some 0 }

/-- The line-silence timer restarts; a silence that was reported ends, and a listen-in starts (R191). The line is not idle
after a frame until it has been read idle again (R181). -/
def heard (s : State) : State :=
  let s1 := s.setTli { s.tli with silence := 0, silent := false, idle := false }
  if s.tli.silent then startListen s1 else s1

/-- An address clash (R183): the interface stops transmitting and its queues empty, what is timed to be sent
stops (R68, R100, R120), and the clash is reported: a fault on a carriage node, FAILED points on a points node.
DESIGN CHOICE (assumption 6). DEDUCED (assumption 13). -/
def addressClash (s : State) : State :=
  let s1 := s.setTli { s.tli with clash := true, idle := false, txq := [], kept := [], offerLine := [], keptPosition := none,
                                  keptPoints := none }
  let s2 := s1.setCe { s1.ce with refresh := none, refreshOut := false }
  let s3 := s2.setPu { s2.pu with timer := none }
  let s4 := s3.setPa { s3.pa with countdown := none }
  match s.tli.kind with
  | .carriage => raiseFault .addressClash s4
  | .points => raisePoints .addressClash (pointsFail s4)

/-- A frame heard: malformed by its fields it is discarded and counted (R184); any other restarts the silence timer,
reaches the resume watcher, and is handed to the blocks that use it (R185, R191, R169). One with this station's own address
as sender, which another station has sent, raises the address clash first (R183). DEDUCED (assumption 11).
DEDUCED (assumption 13). DESIGN CHOICE (assumption 67). -/
def hear (valid : Bool) (src : Addr) (f : Seen) (act : State → State) (s : State) : State :=
  if !valid then countMalformed s
  else
    let s1 := watch src f (heard s)
    act (if src = s.tli.addr then addressClash s1 else s1)

/-- A frame is handed to the Occupancy View, but for one with this station's own address as sender (R21).
DEDUCED (assumption 13). -/
def toView (src : Addr) (act : State → State) (s : State) : State := if src = s.tli.addr then s else act s

/-- A step of one personality does not occur on a node of the other: nothing changes. DEDUCED (assumption 7). -/
def onKind (k : Kind) (act : State → State) (s : State) : State := if s.tli.kind = k then act s else s

/-! ## The inbound queue (R187, R188) -/

/-- The node is commissioned. -/
def commissioned (s : State) : Bool :=
  match s.tli.kind with
  | .carriage => s.cs.comm.isSome
  | .points => s.pa.comm.isSome

/-- The sender of a request is one it may be taken from (R188). -/
def senderOk (src : Addr) (req : Request) (s : State) : Bool :=
  decide (console s = some src) ||
    (match req with
      | .commission _ _ | .pointsCommission _ => !commissioned s
      | .pointsAsk _ _ _ | .pointsFree => decide (s.tli.kind = .points)
      | _ => false)

/-- A COMMISSION has the length of its personality's record; the other is malformed (R192). DEDUCED (assumption 7). -/
def fits (k : Kind) : Request → Bool
  | .commission _ _ => decide (k = .carriage)
  | .pointsCommission _ => decide (k = .points)
  | _ => true

/-- A request addressed to this station is judged at its check bit (R187, R188). No request can be addressed to a
station of address 0 (R180). DESIGN CHOICE (assumption 9). DEDUCED (assumption 11). DEDUCED (assumption 12). -/
def arrive (src : Addr) (req : Request) (s : State) : State :=
  hear (addrOk src && req.wf && fits s.tli.kind req && decide (s.tli.addr ≠ 0)) src .other
    (fun t =>
      if !senderOk src req t then countMalformed t
      else if t.tli.inbound.length < Config.inboundCap then
        t.setTli { t.tli with inbound := t.tli.inbound ++ [{ src := src, req := req }] }
      else countOverflow t) s

/-- The oldest request may be delivered: the transmit queue can take a non-periodic frame, and the offer line is
empty (R187). DEDUCED (assumption 10). -/
def canDeliver (t : Tli) : Bool :=
  (decide (t.txq.length < Config.txCap) || t.txq.any (fun e => e.periodic && !e.sending)) && t.offerLine.isEmpty

/-- The delivery of a request to its block: it is the oldest of the inbound queue and may be delivered, and leaves
the queue. A delivery that finds the inbound queue empty stands for the arrival and the delivery in one (DESIGN
CHOICE), and one that can only be malformed here, the COMMISSION of the other personality, for its arrival alone; a request
that is not the oldest waits. DESIGN CHOICE (assumption 9). DEDUCED (assumption 10). -/
def deliver (src : Addr) (req : Request) (act : State → State) (s : State) : State :=
  let s1 := if s.tli.inbound.isEmpty || !fits s.tli.kind req then arrive src req s else s
  if s1.tli.inbound.head? = some { src := src, req := req } ∧ canDeliver s1.tli = true then
    act (s1.setTli { s1.tli with inbound := s1.tli.inbound.tail })
  else s1

/-- A request whose kind the personality does not take is answered WRONG_KIND by the interface (R188).
DEDUCED (assumption 7). -/
def wrongKind (subject : Subject) (s : State) : State := report .tli subject (.refused .wrongKind) 0 s

/-- A frame that is being sent at STATION-RESET: it completes on the line (R189) and is withdrawn should it have to wait
again; one of the span in flight then counts as sent (R40, R57), and one of a refresh belongs to no refresh any more.
DEDUCED (assumption 53). -/
def finishing (e : TxEntry) : TxEntry :=
  { e with withdrawn := true, tag := if e.tag = .refresh then .plain else e.tag }

/-- The Track Line Interface at STATION-RESET (R180, R198): address and kind are kept, and the line stands as it is; of the
transmit queue only a frame being sent is left (R189); all else starts anew. DEDUCED (assumption 53). -/
def resetTli (t : Tli) : Tli :=
  { t with inbound := [], txq := (t.txq.filter TxEntry.sending).map finishing, kept := [], offerLine := [],
           keptPosition := none, keptPoints := none, silence := 0, silent := false, clash := false,
           counters := { malformed := 0, unacked := 0, overflow := 0, displaced := 0 } }

/-- The first of a STATION-RESET (R198): the interface starts anew, and then the REPORT ACCEPTED is queued, which after an
address clash is the first frame the node sends. DEDUCED (assumption 56). -/
def resetReport (b : Block) (s : State) : State :=
  let s1 := s.setTli (resetTli s.tli)
  match console s1 with
  | none => s1
  | some c =>
    offer b false (if s.tli.clash then .first else .plain)
      (.report c { subject := .stationReset, outcome := .accepted, oid := 0 }) s1

/-! ## The yard halt latch (R167, R168) -/

/-- The latch is set if it is clear: in RUNNING the CS enters HALTED and a span in flight aborts HALTED.
DEDUCED (assumption 75). -/
def setLatch (src : Addr) (reason : HaltReason) (s : State) : State :=
  if s.cs.latch.isSome then s
  else
    let s1 := s.setCs { s.cs with latch := some { source := src, reason := reason } }
    let s2 := if s1.cs.state = .running then enterState .halted s1 else s1
    spanAbort .halted ((spanSegs s2).headD 0) 0 s2

end Sys2Proof.Machine
end

