-- ==== Sys2Proof/Machine/Points.lean ====
section
/-! DEFINITION. The points node's commands (chapter 5): commissioning, the Segment View, asks and frees, the halt
latch, throws, failure and clearing, the periodic notice, STATION-RESET. -/

namespace Sys2Proof.Machine

open Sys2Proof

/-! ## Commissioning (R80) -/

/-- What the Points Arbiter does with a COMMISSION (R80, R195). While an address clash is held the periodic notices
stay stopped (R100). DEDUCED (assumption 36). DESIGN CHOICE (assumption 68). -/
def takePointsCommission (src : Addr) (r : PointsComm) (s : State) : State :=
  if s.pa.comm.isSome then report .pa .commission (.refused .state) 0 s
  else
    let c := clampPointsComm r
    let s1 := s.setPa { s.pa with comm := some c, console := some src,
                                  countdown := if s.tli.clash then none else some 0 }
    let s2 := s1.setSv { s1.sv with listen := some 0 }
    let s3 := report .pa .commission (if c = r then .accepted else .clamped (pointsCommMarks r)) 0 s2
    queuePoints s3

/-- POINTS_COMMISSION (R80): a carriage node receives a points COMMISSION as malformed (R192). -/
def execPointsCommission (src : Addr) (r : PointsComm) (s : State) : Host.Outcome State Fault Refusal :=
  .next (deliver src (.pointsCommission r) (onKind .points (takePointsCommission src r)) s)

/-! ## Asks and frees (R87, R88, R96) -/

/-- The answer a POINTS-ASK draws, or none when the queue is full (R87). -/
def askAnswer (x : Addr) (pos : PointsPos) (s : State) : Option AnswerCode :=
  if s.pa.comm.isNone then some .refusedUncommissioned
  else if listeningIn s then some .refusedListenIn
  else if s.ts.state = .failed ∨ unavail s pos then some .refusedFailed
  else if !liveIn s x then some .refusedNotClaimant
  else if s.pa.queue.any (fun q => decide (q.requester = x)) ∨ s.pa.queue.length < Config.askCap then some .queued
  else none

/-- A queued ask: it replaces its requester's entry in place, or joins as the newest (R86, R87). -/
def queueAsk (e : AskEntry) (s : State) : State :=
  if s.pa.queue.any (fun q => decide (q.requester = e.requester)) then
    s.setPa { s.pa with queue := s.pa.queue.map (fun q => if q.requester = e.requester then e else q) }
  else s.setPa { s.pa with queue := s.pa.queue ++ [e] }

/-- A POINTS-ASK is answered, refused, queued or dropped, its requester holding no grant; after an answer serving is
tested, and what it changes has a further notice (R87, R100). -/
def answerAsk (x : Addr) (pos : PointsPos) (cls oid : Nat) (s : State) : State :=
  match askAnswer x pos s with
  | none => s.setPa { s.pa with askDrops := satInc s.pa.askDrops }
  | some c =>
    let s1 := if c = .queued then queueAsk { requester := x, pos := pos, cls := cls, oid := oid } s else dropAsk x s
    let s2 := answer x c s1
    serveAfter s2 s2

/-- What the Points Arbiter does with a POINTS-ASK: a grant its requester holds is freed first (R87). -/
def takeAsk (x : Addr) (pos : PointsPos) (cls oid : Nat) (s : State) : State :=
  answerAsk x pos cls oid (if holdsGrant x s then freeGrant s else s)

/-- POINTS_ASK (R87): a carriage node answers WRONG_KIND (R188). -/
def execPointsAsk (src : Addr) (pos : PointsPos) (cls oid : Nat) (s : State) : Host.Outcome State Fault Refusal :=
  .next (deliver src (.pointsAsk pos cls oid) (fun t =>
    match t.tli.kind with
    | .carriage => wrongKind .pointsAsk t
    | .points => takeAsk src pos cls oid t) s)

/-- What the Points Arbiter does with a POINTS-FREE: the grant is freed, or the queue entry leaves, or nothing
changes (R88, R96). -/
def takeFree (x : Addr) (s : State) : State :=
  if holdsGrant x s then freeGrant s
  else if s.pa.queue.any (fun q => decide (q.requester = x)) then serveAfter s (dropAsk x s)
  else s

/-- POINTS_FREE (R96): a carriage node answers WRONG_KIND (R188). -/
def execPointsFree (src : Addr) (s : State) : Host.Outcome State Fault Refusal :=
  .next (deliver src .pointsFree (fun t =>
    match t.tli.kind with
    | .carriage => wrongKind .pointsFree t
    | .points => takeFree src t) s)

/-! ## The Segment View (R82, R83) -/

/-- The entries of a CLAIM that name the points segment are applied in order; while uncommissioned the view stores
none (R80, R82). -/
def applySegClaims (src : Addr) (period : Ms) (items : List ClaimItem) (s : State) : State :=
  match s.pa.comm with
  | none => s
  | some c =>
    (items.filter (fun i => decide (i.seg = c.seg))).foldl (fun t i => storeSegClaim src period i.st t) s

/-- POINTS_NODE_CLAIM (R82, R83). -/
def execPointsNodeClaim (src : Addr) (cls : Nat) (period : Ms) (items : List ClaimItem) (s : State) :
    Host.Outcome State Fault Refusal :=
  .next (onKind .points (hear (addrOk src && claimWf cls period items) src .other
    (fun t => afterView t (applySegClaims src period items t))) s)

/-- POINTS_NODE_RELEASE (R82, R88, R96). -/
def execPointsNodeRelease (src : Addr) (segs : List Seg) (s : State) : Host.Outcome State Fault Refusal :=
  .next (onKind .points (hear (addrOk src && releaseWf segs) src .other (fun t =>
    if t.pa.comm.any (fun c => decide (c.seg ∈ segs)) then withdrawClaim src t else t)) s)

/-- An entry's age reaches four refresh periods: a TENTATIVE one is deleted, and a FIRM or STANDING one takes the STALE
mark (R82, R26). -/
def ageOutSeg (holder : Addr) (s : State) : State :=
  let named (e : SegEntry) : Bool := decide (e.holder = holder) && !e.stale
  let left := s.sv.entries.filter (fun e => !(named e && decide (e.st = .tentative)))
  s.setSv { s.sv with entries := left.map (fun e =>
    if named e then { e with stale := true, age := max e.age (4 * e.period) } else e) }

/-- SEGMENT_VIEW_ENTRY_STALE (R82). -/
def execSegmentViewEntryStale (holder : Addr) (s : State) : Host.Outcome State Fault Refusal :=
  .next (onKind .points (fun s => afterView s (ageOutSeg holder s)) s)

/-- POINTS_LISTEN_IN_EXPIRY (R84). -/
def execPointsListenInExpiry (s : State) : Host.Outcome State Fault Refusal :=
  .next (onKind .points (fun s =>
    if s.sv.listen.isNone then s else serveAfter s (s.setSv { s.sv with listen := none })) s)

/-- OVERFLOW_HOLD_EXPIRY (R83). -/
def execOverflowHoldExpiry (s : State) : Host.Outcome State Fault Refusal :=
  .next (onKind .points (fun s =>
    if s.sv.overflow.isNone then s else serveAfter s (s.setSv { s.sv with overflow := none })) s)

/-! ## The halt latch (R99) -/

/-- POINTS_HALT (R99): every HALT heard sets the latch, and the latch records its origin and reason.
DEDUCED (assumption 32). -/
def execPointsHalt (src origin : Addr) (reason : HaltReason) (s : State) : Host.Outcome State Fault Refusal :=
  .next (onKind .points (hear (addrOk src && addrOk origin) src .other (fun t =>
    t.setPa { t.pa with latch := some { source := origin, reason := reason } })) s)

/-! ## The periodic notice (R100) -/

/-- POINTS_PERIODIC_NOTICE (R100): the countdown expires and restarts. -/
def execPointsPeriodicNotice (s : State) : Host.Outcome State Fault Refusal :=
  .next (onKind .points (fun s =>
    if s.pa.countdown.isNone then s
    else offer .pa true .plain (.points (pointsNotice s)) (s.setPa { s.pa with countdown := some 0 })) s)

/-! ## Locks, throws and recoveries (R91 to R93, R97) -/

/-- A lock loss (R97). DEDUCED (assumption 75). -/
def lockLost (s : State) : State := queuePoints (raisePoints .lockLost (pointsFail s))

/-- LOCK_INPUT_CHANGE (R91, R92, R97): the inputs as they now stand. -/
def execLockInputChange (normal reverse : Bool) (s : State) : Host.Outcome State Fault Refusal :=
  .next (onKind .points (fun s =>
    let s1 := s.setTs { s.ts with normalLock := normal, reverseLock := reverse }
    match lockedPos s.ts.state with
    | some p => if soleLock normal reverse = some p then s1 else lockLost s1
    | none => lockArrives s s1) s)

/-- THROW_TIMEOUT (R92): in THROWING the throw timer reaches the limit, and a recovery begins; a lock input that
already stands asserted ends it at once. DEDUCED (assumption 4). DEDUCED (assumption 34). -/
def execThrowTimeout (s : State) : Host.Outcome State Fault Refusal :=
  .next (onKind .points (fun s =>
    if s.ts.state = .throwing then
      lockArrives s (s.setTs { s.ts with state := .recovering, motor := .toward s.ts.previous, timer := some 0 })
    else s) s)

/-- RECOVERY_TIMEOUT (R93): in RECOVERING the throw timer reaches the limit, and the points are FAILED.
DEDUCED (assumption 4). DEDUCED (assumption 75). -/
def execRecoveryTimeout (s : State) : Host.Outcome State Fault Refusal :=
  .next (onKind .points (fun s =>
    if s.ts.state = .recovering then queuePoints (raisePoints .throwFailed (pointsFail s)) else s) s)

/-! ## CLEAR-FAULT (R98) -/

/-- Both unavailable marks are cleared. -/
def clearMarks (s : State) : State := s.setPa { s.pa with unavailNormal := false, unavailReverse := false }

/-- What the Points Arbiter does with a CLEAR-FAULT (R98). DESIGN CHOICE (assumption 68). -/
def takePointsClear (s : State) : State :=
  let refuse (r : RefuseReason) : State := report .pa .clearFault (.refused r) 0 s
  let accept (t : State) : State := report .pa .clearFault .accepted 0 t
  if pointsMoving s ∨ s.tli.clash then refuse .state
  else match lockedPos s.ts.state with
    | some _ => accept (clearMarks s)
    | none =>
      match soleLock s.ts.normalLock s.ts.reverseLock with
      | none => refuse .stillPresent
      | some p =>
        let s1 := clearMarks (lockAt p s)
        serveAfter s (accept (s1.setPa { s1.pa with fault := none }))

/-- POINTS_CLEAR_FAULT (R98). -/
def execPointsClearFault (src : Addr) (s : State) : Host.Outcome State Fault Refusal :=
  .next (onKind .points (deliver src .clearFault takePointsClear) s)

/-! ## STATION-RESET (R101, R198) -/

/-- A fault record whose first code is ADDRESS_CLASH gives way to what the lock inputs show (R101, R81).
DEDUCED (assumption 36). -/
def relock (s : State) : State :=
  if s.pa.fault.any (fun f => decide (f.code = .addressClash)) then
    let s1 := s.setTs { s.ts with state := stateOfLocks s.ts.normalLock s.ts.reverseLock, motor := .off, timer := none }
    s1.setPa { s1.pa with fault := faultOfLocks s1.ts.normalLock s1.ts.reverseLock (pointsSeg s1) }
  else s

/-- The points node after STATION-RESET (R101). DEDUCED (assumption 33). -/
def pointsReset (s : State) : State :=
  let s1 := resetReport .pa s
  let s2 := s1.setSv { entries := [], listen := some 0, overflow := none }
  let s3 := s2.setPa { s2.pa with queue := [], askDrops := 0, lastAnswer := none, watcher := none, countdown := some 0,
                                  grant := s2.pa.grant.map (fun g => { g with live := false }) }
  queuePoints (relock s3)

/-- What the Points Arbiter does with a STATION-RESET (R101, R198). -/
def takePointsReset (s : State) : State :=
  if pointsMoving s then report .pa .stationReset (.refused .state) 0 s else pointsReset s

/-- POINTS_STATION_RESET (R101). -/
def execPointsStationReset (src : Addr) (s : State) : Host.Outcome State Fault Refusal :=
  .next (onKind .points (deliver src .stationReset takePointsReset) s)

end Sys2Proof.Machine
end

