-- ==== Sys2Proof/Machine/View.lean ====
section
/-! DEFINITION. The Occupancy View's commands (chapter 2): RELEASE, POSITION, CLEAR-STALE, the ages of its tables and
the end of listen-in. CLAIM and POINTS, which it shares with the Claim Engine, are in Machine/Claims.lean. -/

namespace Sys2Proof.Machine

open Sys2Proof

/-! ## The claim table -/

/-- Entries leave the claim table; VIEW_FULL clears when 87 or fewer are left (R23). -/
def keepClaims (keep : ClaimEntry → Bool) (s : State) : State :=
  let left := s.ov.claims.filter keep
  s.setOv { s.ov with claims := left,
                      viewFull := s.ov.viewFull &&
                        !(decide (left.length < s.ov.claims.length) && decide (left.length ≤ Config.viewClear)) }

/-- One entry of a CLAIM is applied to the claim table (R22, R23). -/
def applyClaimItem (src : Addr) (cls : Nat) (period : Ms) (i : ClaimItem) (s : State) : State :=
  let e : ClaimEntry :=
    { holder := src, seg := i.seg, dir := i.dir, st := i.st, convoy := i.convoy, cls := cls,
      period := clampTo 200 1000 period, age := 0, stale := false }
  let same (k : ClaimEntry) : Bool := decide (k.holder = src) && decide (k.seg = i.seg)
  if s.ov.claims.any same then
    s.setOv { s.ov with claims := s.ov.claims.map (fun k => if same k then e else k) }
  else if s.ov.claims.length < Config.claimCap then s.setOv { s.ov with claims := s.ov.claims ++ [e] }
  else s.setOv { s.ov with viewFull := true }

/-- A CLAIM is applied entry by entry, in the order the frame carries them (R22). -/
def applyClaim (src : Addr) (cls : Nat) (period : Ms) (items : List ClaimItem) (s : State) : State :=
  items.foldl (fun t i => applyClaimItem src cls period i t) s

/-- A RELEASE removes the sender's entries on the named segments (R24). -/
def applyRelease (src : Addr) (segs : List Seg) (s : State) : State :=
  keepClaims (fun e => !(decide (e.holder = src) && decide (e.seg ∈ segs))) s

/-- RELEASE heard by a carriage node (R24, R30): the Claim Engine, told of it, has nothing to do. -/
def execRelease (src : Addr) (segs : List Seg) (s : State) : Host.Outcome State Fault Refusal :=
  .next (onKind .carriage (hear (addrOk src && releaseWf segs) src .other
    (toView src (applyRelease src segs))) s)

/-- CLAIM_ENTRY_STALE (R26): the entry's age reaches four refresh periods; a TENTATIVE one is deleted, and a FIRM or
STANDING one takes the STALE mark. DEDUCED (assumption 4). -/
def execClaimEntryStale (holder : Addr) (seg : Seg) (s : State) : Host.Outcome State Fault Refusal :=
  .next (onKind .carriage (fun s =>
    let named (e : ClaimEntry) : Bool := decide (e.holder = holder) && decide (e.seg = seg) && !e.stale
    let s1 := keepClaims (fun e => !(named e && decide (e.st = .tentative))) s
    s1.setOv { s1.ov with claims := s1.ov.claims.map (fun e =>
      if named e then { e with stale := true, age := max e.age (4 * e.period) } else e) }) s)

/-! ## CLEAR-STALE (R25, R82, R197) -/

/-- The view of the node removes a holder's entries, as a CLEAR-STALE from `src` says (R25, R82). -/
def clearHolder (src h : Addr) (s : State) : State :=
  match s.tli.kind with
  | .carriage => toView src (keepClaims (fun e => decide (e.holder ≠ h))) s
  | .points => withdrawClaim h s

/-- CLEAR_STALE (R197): addressed from the console it acts and is answered ACCEPTED; broadcast from the console it
acts and draws no REPORT; a broadcast from another sender is counted as malformed (R188). -/
def execClearStale (src : Addr) (broadcast : Bool) (holder : Addr) (s : State) : Host.Outcome State Fault Refusal :=
  .next (if broadcast then
      hear (addrOk src && decide (holder ≤ 63)) src .other
        (fun t => if console t = some src then clearHolder src holder t else countMalformed t) s
    else
      deliver src (.clearStale holder)
        (fun t => report (match t.tli.kind with
          | .carriage => .ov
          | .points => .segView) .clearStale .accepted 0 (clearHolder src holder t)) s)

/-! ## The position table (R34 to R36) -/

/-- A segment is that of a leg at or ahead of the head leg, while an order is UNDERWAY or ENDING. -/
def onRouteSeg (s : State) (g : Seg) : Bool :=
  match started s with
  | none => false
  | some a => (a.ord.legs.drop (a.headLeg - 1)).any (fun l => decide (l.seg = g))

/-- An entry is on route (R36). -/
def onRoute (s : State) (e : PosEntry) : Bool := onRouteSeg s e.headSeg || onRouteSeg s e.tailSeg

/-- One candidate is evicted before another: not on route, then stale, then older, then the higher address. -/
def evictBefore (s : State) (e f : PosEntry) : Bool :=
  let a := onRoute s e
  let b := onRoute s f
  if a ≠ b then !a
  else if e.stale ≠ f.stale then e.stale
  else if e.age ≠ f.age then decide (f.age < e.age)
  else decide (f.carriage < e.carriage)

/-- The candidate evicted first. -/
def evictPick (s : State) : List PosEntry → Option PosEntry
  | [] => none
  | e :: rest =>
    match evictPick s rest with
    | none => some e
    | some f => if evictBefore s e f then some e else some f

/-- The entry a POSITION is stored as: a period of 1..99 is stored as 100 (R34). -/
def posEntryOf (src : Addr) (n : PositionNotice) : PosEntry :=
  { carriage := src, headSeg := n.headSeg, headOff := n.headOff, tailSeg := n.tailSeg, tailOff := n.tailOff,
    state := n.state, period := if n.period = 0 then 0 else max n.period 100, age := 0, stale := false }

/-- A POSITION is applied (R34, R36). -/
def applyPosition (src : Addr) (n : PositionNotice) (s : State) : State :=
  let e := posEntryOf src n
  let others := s.ov.posTab.filter (fun k => decide (k.carriage ≠ src))
  if !n.state.carriesPosition then s.setOv { s.ov with posTab := others }
  else if s.ov.posTab.any (fun k => decide (k.carriage = src)) then
    s.setOv { s.ov with posTab := s.ov.posTab.map (fun k => if k.carriage = src then e else k) }
  else if s.ov.posTab.length < Config.posTabCap then s.setOv { s.ov with posTab := s.ov.posTab ++ [e] }
  else
    let leader := s.cr.leader.map Leader.addr
    match evictPick s (s.ov.posTab.filter (fun k => decide (some k.carriage ≠ leader))) with
    | none => s
    | some v =>
      if onRoute s v && !onRoute s e then s
      else s.setOv { s.ov with posTab := s.ov.posTab.filter (fun k => decide (k.carriage ≠ v.carriage)) ++ [e] }

/-- POSITION (R34): on a points node the frame is heard and not used (R185). -/
def execPosition (src : Addr) (n : PositionNotice) (s : State) : Host.Outcome State Fault Refusal :=
  .next (hear (addrOk src && n.wf) src .other (onKind .carriage (toView src (applyPosition src n))) s)

/-- The stale limit of a position entry (R35). -/
def staleLimit (e : PosEntry) : Ms := if e.period = 0 then 10000 else max (3 * e.period) 750

/-- POSITION_ENTRY_STALE (R35): the entry's age reaches its stale limit, and it takes the stale mark.
DEDUCED (assumption 4). -/
def execPositionEntryStale (carriage : Addr) (s : State) : Host.Outcome State Fault Refusal :=
  .next (onKind .carriage (fun s =>
    s.setOv { s.ov with posTab := s.ov.posTab.map (fun e =>
      if e.carriage = carriage ∧ e.stale = false then
        { e with stale := true, age := max e.age (staleLimit e) } else e) }) s)

/-! ## Listen-in (R37, R75) -/

/-- LISTEN_IN_EXPIRY (R37): LISTEN_IN is withdrawn, a held location may be taken, and the trigger is tested. -/
def execListenInExpiry (s : State) : Host.Outcome State Fault Refusal :=
  .next (onKind .carriage (fun s =>
    if s.ov.listen.isNone then s
    else testTrigger (tryLocate (s.setOv { s.ov with listen := none }))) s)

end Sys2Proof.Machine
end

