-- ==== Sys2Proof/Machine/Clock.lean ====
section
/-! DEFINITION. The part's own time: what one millisecond does to the timers and ages, and the command that stands for
the first event due when no command waits. -/

namespace Sys2Proof.Machine

open Sys2Proof

/-! ## One millisecond -/

/-- A running timer counts one millisecond and holds at a top; a stopped one stays stopped.
DESIGN CHOICE (assumption 41). -/
def runTimer (top : Ms) (t : Option Ms) : Option Ms := t.map (fun v => min (v + 1) top)

/-- The ages of the Occupancy View and its listen-in timer (R26, R31, R35, R37). -/
def tickView (v : OccView) : OccView :=
  { v with claims := v.claims.map (fun e => { e with age := satInc e.age }),
           pointsTab := v.pointsTab.map (fun e => { e with age := satInc e.age }),
           posTab := v.posTab.map (fun e => { e with age := satInc e.age }),
           listen := runTimer Config.listenMs v.listen }

/-- The window, the points wait, the backoff and the refresh countdown (R40, R54, R56, R58, R68). -/
def tickClaims (c : ClaimEngine) : ClaimEngine :=
  { c with span := c.span.map (fun sp =>
             { sp with window := runTimer Config.windowMs sp.window,
                       pointsWait := runTimer Config.pointsWaitMs sp.pointsWait }),
           backoff := c.backoff.map (fun b => { b with elapsed := min (b.elapsed + 1) b.limit }),
           refresh := runTimer Config.countTop c.refresh }

/-- The time at measured speed 0 and the position period timer (R108, R120). -/
def tickPosition (s : State) : PosUnit :=
  { s.pu with zeroFor := if measuredSpeed s = 0 then min (s.pu.zeroFor + 1) Config.standstillMs else s.pu.zeroFor,
              timer := runTimer Config.countTop s.pu.timer }

/-- One millisecond passes on a carriage node. -/
def tickCarriage (s : State) : State :=
  { s with ov := tickView s.ov, ce := tickClaims s.ce, pu := tickPosition s
           eu := { s.eu with timer := min (s.eu.timer + 1) Config.evalMs }
           cr := { s.cr with timer := min (s.cr.timer + 1) Config.evalMs }
           ds := { s.ds with dockTimer := runTimer Config.countTop s.ds.dockTimer,
                             undockTimer := runTimer Config.countTop s.ds.undockTimer }
           cs := { s.cs with watcher := s.cs.watcher.map (fun w =>
                     { w with timer := min (w.timer + 1) Config.resumeMs }) } }

/-- One millisecond passes on a points node. -/
def tickPoints (s : State) : State :=
  { s with sv := { s.sv with entries := s.sv.entries.map (fun e => { e with age := satInc e.age }),
                             listen := runTimer Config.listenMs s.sv.listen,
                             overflow := runTimer Config.overflowMs s.sv.overflow }
           pa := { s.pa with watcher := s.pa.watcher.map (fun w =>
                               { w with timer := min (w.timer + 1) Config.resumeMs }),
                             countdown := runTimer Config.countTop s.pa.countdown }
           ts := { s.ts with timer := runTimer Config.countTop s.ts.timer } }

/-- One millisecond passes: each running timer and each age rises by 1, and the line-silence timer while silence is not
reported (R191). DESIGN CHOICE (assumption 1). DESIGN CHOICE (assumption 41). -/
def tick (s : State) : State :=
  let s1 := if s.tli.silent then s
    else s.setTli { s.tli with silence := min (s.tli.silence + 1) Config.silenceMs }
  match s.tli.kind with
  | .carriage => tickCarriage s1
  | .points => tickPoints s1

/-! ## The event due -/

/-- A timer has reached its limit. -/
def reached (limit : Ms) (t : Option Ms) : Bool := t.any (fun v => decide (limit ≤ v))

/-- The command that stands for the delivery of a request (R187). -/
def deliveryOf (k : Kind) (e : InEntry) : Instr :=
  match e.req with
  | .order o => .order e.src o
  | .stop c => .stop e.src c
  | .drop => .drop e.src
  | .locate l => .locate e.src l
  | .commission r l => .commission e.src r l
  | .pointsCommission r => .pointsCommission e.src r
  | .clearFault =>
    match k with
    | .carriage => .clearFault e.src
    | .points => .pointsClearFault e.src
  | .clearStale h => .clearStale e.src false h
  | .stationReset =>
    match k with
    | .carriage => .stationReset e.src
    | .points => .pointsStationReset e.src
  | .query => .query e.src
  | .pointsAsk p c o => .pointsAsk e.src p c o
  | .pointsFree => .pointsFree e.src

/-- The delivery due, if the oldest request may be delivered (R187). -/
def dueDelivery (s : State) : Option Instr :=
  match s.tli.inbound with
  | [] => none
  | e :: _ => if canDeliver s.tli && fits s.tli.kind e.req then some (deliveryOf s.tli.kind e) else none

/-- An event is due when its condition holds. -/
def dueIf (c : Bool) (i : Instr) : Option Instr := if c then some i else none

/-- The first claim table entry that has reached four refresh periods (R26). -/
def dueClaim (s : State) : Option Instr :=
  (s.ov.claims.find? (fun e => !e.stale && decide (4 * e.period ≤ e.age))).map
    (fun e => .claimEntryStale e.holder e.seg)

/-- The first position entry that has reached its stale limit (R35). -/
def duePos (s : State) : Option Instr :=
  (s.ov.posTab.find? (fun e => !e.stale && decide (staleLimit e ≤ e.age))).map
    (fun e => .positionEntryStale e.carriage)

/-- The first Segment View entry that has reached four refresh periods (R82). -/
def dueSeg (s : State) : Option Instr :=
  (s.sv.entries.find? (fun e => !e.stale && decide (4 * e.period ≤ e.age))).map
    (fun e => .segmentViewEntryStale e.holder)

/-- The window closes in CONTEST (R54). -/
def dueWindow (s : State) : Bool :=
  s.ce.span.any (fun sp => decide (sp.phase = .contest) && reached Config.windowMs sp.window)

/-- The points wait runs out in POINTS_WAIT (R56). -/
def dueWait (s : State) : Bool :=
  s.ce.span.any (fun sp => decide (sp.phase = .pointsWait) && reached Config.pointsWaitMs sp.pointsWait)

/-- The events that may be due on a carriage node, in the order in which they are taken.
DESIGN CHOICE (assumption 3). -/
def carriageEvents (s : State) : List (Option Instr) :=
  [dueIf s.ce.triggered .spanAcquisitionStart,
   dueIf (reached Config.listenMs s.ov.listen) .listenInExpiry,
   dueClaim s, duePos s,
   dueIf (dueWindow s) .contestWindowExpiry,
   dueIf (dueWait s) .pointsTimeout,
   dueIf (s.ce.backoff.any (fun b => decide (b.limit ≤ b.elapsed))) .backoffExpiry,
   dueIf (reached (cfg s).refresh s.ce.refresh) .refreshExpiry,
   dueIf (reached Config.resumeMs (s.cs.watcher.map Watcher.timer)) .resumeWindowExpiry,
   dueIf (decide (effPeriod s ≠ 0) && reached (effPeriod s) s.pu.timer) .positionPeriodExpiry,
   dueIf (decide (measuredSpeed s = 0) && !s.pu.standstill && decide (Config.standstillMs ≤ s.pu.zeroFor))
     .standstillEvent,
   dueIf (reached (1000 * (cfg s).dockSec) s.ds.dockTimer) .dockTimeout,
   dueIf (reached (1000 * (cfg s).undockSec) s.ds.undockTimer) .undockTimeout,
   dueIf (decide (Config.evalMs ≤ s.cr.timer)) .leaderEvaluation,
   dueIf (decide (Config.evalMs ≤ s.eu.timer)) (.envelopeEvaluation s.eu.gust)]

/-- The throw limit in milliseconds (R80). -/
def throwMs (s : State) : Ms :=
  match s.pa.comm with
  | some c => 1000 * c.throwSec
  | none => 0

/-- The period of the points notices (R100). -/
def noticeMs (s : State) : Ms :=
  match s.pa.comm with
  | some c => c.refresh
  | none => Config.bareNoticeMs

/-- The events that may be due on a points node, in the order in which they are taken. -/
def pointsEvents (s : State) : List (Option Instr) :=
  [dueIf (reached Config.listenMs s.sv.listen) .pointsListenInExpiry,
   dueSeg s,
   dueIf (reached Config.overflowMs s.sv.overflow) .overflowHoldExpiry,
   dueIf (decide (s.ts.state = .throwing) && reached (throwMs s) s.ts.timer) .throwTimeout,
   dueIf (decide (s.ts.state = .recovering) && reached (throwMs s) s.ts.timer) .recoveryTimeout,
   dueIf (reached Config.resumeMs (s.pa.watcher.map Watcher.timer)) .resumeWindowExpiry,
   dueIf (reached (noticeMs s) s.pa.countdown) .pointsPeriodicNotice]

/-- A frame waits while the line stands idle: the station begins to send (R181). DESIGN CHOICE (assumption 2). -/
def dueSend (s : State) : Bool :=
  s.tli.idle && !s.tli.clash && (sendingEntry s.tli).isNone && !s.tli.txq.isEmpty

/-- The first event due, when no command waits: a delivery, line silence, then the blocks' own events, and at the bit time
that follows them the start of a frame on an idle line. Where the manual
lets events that fall together be taken in either order, this order is the model's (DESIGN CHOICE).
DESIGN CHOICE (assumption 1). -/
def dueEvent (s : State) : Option Instr :=
  let own := match s.tli.kind with
    | .carriage => carriageEvents s
    | .points => pointsEvents s
  (dueDelivery s :: dueIf (!s.tli.silent && decide (Config.silenceMs ≤ s.tli.silence)) .lineSilence ::
    (own ++ [dueIf (dueSend s) .lineIdle])).findSome? id

end Sys2Proof.Machine
end

