-- ==== Sys2Proof/Machine/Claims.lean ====
section
/-! DEFINITION. The Claim Engine's commands (chapters 3 and 4 and section 5.10): the span transaction, the CLAIM,
OBJECT and POINTS notices, and the refresh. -/

namespace Sys2Proof.Machine

open Sys2Proof

/-! ## Starting an acquisition (R42 to R46) -/

/-- The legs of the span that begins at the next leg to claim (R44): at most 4, the span limit, the free entries and
the legs left, and none from a leg whose segment is already held. -/
def chooseSpan (a : ActiveOrder) (limit : Nat) (s : State) : List Leg :=
  ((a.ord.legs.drop (a.nextClaim - 1)).take
    (min Config.spanMax (min limit (Config.ownCap - s.ce.own.length)))).takeWhile
      (fun l => (ownOn s l.seg).isNone)

/-- The first span leg answered "blocked", with its position in the span and the blocking holder (R45). -/
def firstBlocked (cls : Nat) (s : State) : Nat → List Leg → Option (Nat × Seg × Addr)
  | _, [] => none
  | p, l :: rest =>
    match blockedBy s l.seg l.dir l.convoy cls with
    | some h => some (p, l.seg, h)
    | none => firstBlocked cls s (p + 1) rest

/-- The own entries of a span, TENTATIVE, from a leg index on (R46). -/
def spanEntries : Nat → List Leg → List OwnClaim
  | _, [] => []
  | k, l :: rest =>
    { leg := .leg k, seg := l.seg, dir := l.dir, st := .tentative, convoy := l.convoy,
      points := l.points.map (fun p => { node := p.node, pos := p.pos, status := .asked }) } ::
      spanEntries (k + 1) rest

/-- The POINTS-ASKs of a span, in route order (R46). -/
def queueAsks (cls oid : Nat) (legs : List Leg) (s : State) : State :=
  legs.foldl (fun t l =>
    match l.points with
    | none => t
    | some p => offer .ce false (.ask p.node l.seg) (.pointsAsk p.node p.pos cls oid) t) s

/-- The attempt state is reset when the first leg differs from the attempt leg (R44). -/
def attemptAt (k : Nat) (s : State) : State :=
  if s.ce.attemptLeg = some k then s
  else s.setCe { s.ce with attempts := 0, spanLimit := Config.spanMax, attemptLeg := some k }

/-- The announcement of a span whose local check passed (R46); the firm end handed is tested against the head (R140).
DEDUCED (assumption 19). -/
def announce (a : ActiveOrder) (legs : List Leg) (s : State) : State :=
  let entries := spanEntries a.nextClaim legs
  let s1 := s.setCe
    { s.ce with exempt := false,
                span := some { first := a.nextClaim, count := legs.length, phase := .contest, announced := false,
                               window := none, pointsWait := none, attempt := s.ce.attempts + 1, acked := [] } }
  let s2 := setNextClaim (a.nextClaim + legs.length) (setOwn (s1.ce.own ++ entries) s1)
  overrunTest (queueAsks a.ord.cls a.ord.id legs (queueClaim .announcement a.ord.cls entries s2))

/-- An abort at the local check (R45, R57): nothing was sent, the record is written and the attempt counts.
DEDUCED (assumption 19). -/
def abortAtCheck (reason : AbortReason) (seg : Seg) (rival : Addr) (pos : Nat) (s : State) : State :=
  let s1 := recordAbort reason seg rival (s.ce.attempts + 1) (s.setCe { s.ce with exempt := false })
  testTrigger (countAttempt reason pos s1)

/-- A span is opened, its local check made at one moment, and it is announced or aborted (R44 to R46).
DEDUCED (assumption 44). -/
def openSpan (a : ActiveOrder) (s : State) : State :=
  let s1 := attemptAt a.nextClaim s
  let legs := chooseSpan a s1.ce.spanLimit s1
  if s1.ov.viewFull then
    abortAtCheck .viewFull ((legs.map Leg.seg).headD 0) 0 0 s1
  else match firstBlocked a.ord.cls s1 1 legs with
    | some (p, g, h) => abortAtCheck .localConflict g h p s1
    | none => announce a legs s1

/-- SPAN_ACQUISITION_START (R42): where the conditions hold the Claim Engine opens a span; where they do not, nothing
starts. DEDUCED (assumption 8). -/
def execSpanAcquisitionStart (s : State) : Host.Outcome State Fault Refusal :=
  .next (onKind .carriage (fun s =>
    let s1 := s.setCe { s.ce with triggered := false }
    if acquisitionReady s1 then
      match s1.os.active with
      | some a => openSpan a s1
      | none => s1
    else s1) s)

/-! ## Commit (R54 to R56) -/

/-- Every points leg of the span has status granted (R54). -/
def commitTest (sp : Span) (s : State) : Bool :=
  (s.ce.own.filter (inSpan sp)).all (fun e =>
    match e.points with
    | none => true
    | some p => decide (p.status = .granted))

/-- A frame that waits at the commit of its span is no longer the span's: its departure is no report of a later span's
(R51). DEDUCED (assumption 49). -/
def untag (e : TxEntry) : TxEntry :=
  match e.tag with
  | .ask _ _ => if e.withdrawn then e else { e with tag := .plain }
  | _ => e

/-- The asks still waiting leave the span that has committed. DEDUCED (assumption 49). -/
def untagAsks (t : Tli) : Tli := { t with txq := t.txq.map untag, kept := t.kept.map untag }

/-- The span commits (R55). DEDUCED (assumption 49). -/
def commit (sp : Span) (s : State) : State :=
  let own := s.ce.own.map (fun e => if inSpan sp e then { e with st := .firm } else e)
  let s1 := (s.setTli (untagAsks s.tli)).setCe { s.ce with span := none, attempts := 0, spanLimit := Config.spanMax, attemptLeg := none }
  let s2 := setOwn own s1
  let s3 := queueClaim .plain (claimClass s2) (own.filter (inSpan sp)) s2
  testTrigger (overrunTest s3)

/-- The status of an own points field after the granted question (R53): a grant seen sets it granted, and a grant gone
sets it queued again. -/
def askedStatus (st : PtStatus) (granted : Bool) : PtStatus :=
  match st, granted with
  | _, true => .granted
  | .granted, false => .queued
  | st, false => st

/-- The status of an own entry's points field is changed. -/
def mapPoints (f : OwnClaim → OwnPoints → PtStatus) (own : List OwnClaim) : List OwnClaim :=
  own.map (fun e => { e with points := e.points.map (fun p => { p with status := f e p }) })

/-- The Claim Engine asks the granted question of every points leg of the span, as its window closes (R33, R54).
DESIGN CHOICE (assumption 62). -/
def askTable (sp : Span) (s : State) : State :=
  s.setCe { s.ce with own := mapPoints (fun e p =>
    if inSpan sp e then askedStatus p.status (tableGrants s p.node e.seg p.pos) else p.status) s.ce.own }

/-- CONTEST_WINDOW_EXPIRY (R54): the window of an announced span closes in CONTEST; the grants are asked for, and the span
commits or enters POINTS_WAIT. DEDUCED (assumption 4). -/
def execContestWindowExpiry (s : State) : Host.Outcome State Fault Refusal :=
  .next (onKind .carriage (fun s =>
    match s.ce.span with
    | none => s
    | some sp =>
      if sp.phase = .contest ∧ sp.window.isSome then
        let s1 := askTable sp s
        if commitTest sp s1 then commit sp s1
        else s1.setCe { s1.ce with span := some { sp with phase := .pointsWait, window := some Config.windowMs } }
      else s) s)

/-- What a POINTS_TIMEOUT names: the first points leg of the span not granted, with its node (R56).
DEDUCED (assumption 37). -/
def timeoutNames (sp : Span) (s : State) : Seg × Addr :=
  match (s.ce.own.filter (inSpan sp)).find? (fun e => e.points.any (fun p => decide (p.status ≠ .granted))) with
  | some e =>
    (e.seg, match e.points with
      | some p => p.node
      | none => 0)
  | none => ((spanSegs s).headD 0, 0)

/-- POINTS_TIMEOUT (R56): in POINTS_WAIT the points wait timer reaches its limit. DEDUCED (assumption 4). -/
def execPointsTimeout (s : State) : Host.Outcome State Fault Refusal :=
  .next (onKind .carriage (fun s =>
    match s.ce.span with
    | none => s
    | some sp =>
      if sp.phase = .pointsWait then spanAbort .pointsTimeout (timeoutNames sp s).1 (timeoutNames sp s).2 s else s) s)

/-- BACKOFF_EXPIRY (R58): the backoff ends, and the conditions of R42 are tested. DEDUCED (assumption 4). -/
def execBackoffExpiry (s : State) : Host.Outcome State Fault Refusal :=
  .next (onKind .carriage (fun s =>
    if s.ce.backoff.isNone then s else testTrigger (s.setCe { s.ce with backoff := none })) s)

/-! ## CLAIM (R48, R72, R73) -/

/-- The rank class of this node's own TENTATIVE claims. -/
def ownClass (s : State) : Nat :=
  match s.os.active with
  | some a => a.ord.cls
  | none => 3

/-- An OBJECT to a holder naming a segment with the same stated state already waits or is kept (R72). -/
def objectWaits (y : Addr) (g : Seg) (st : ClaimState) (t : Tli) : Bool :=
  (t.txq.filter (fun e => !e.sending)).any (fun e => decide (e.frame = .object y g st)) ||
    t.kept.any (fun e => decide (e.frame = .object y g st))

/-- An OBJECT is queued unless its like still waits (R72). -/
def queueObject (y : Addr) (g : Seg) (st : ClaimState) (s : State) : State :=
  if objectWaits y g st s.tli then s else offer .ce false .plain (.object y g st) s

/-- The test of R48 on one entry, against the span in flight. -/
def examineSpan (src : Addr) (cls : Nat) (i : ClaimItem) (s : State) : State :=
  match s.ce.span, ownOn s i.seg with
  | some sp, some e =>
    if !inSpan sp e || compatible e.dir e.convoy i.dir i.convoy then s
    else if firmState i.st then spanAbort .firmConflict i.seg src s
    else if outranks cls src (ownClass s) s.tli.addr then spanAbort .outranked i.seg src s
    else s
  | _, _ => s

/-- The tests of R72 and R73 on one entry, against the own claim list. -/
def examineHeld (src : Addr) (cls : Nat) (i : ClaimItem) (s : State) : State :=
  match ownOn s i.seg with
  | none => s
  | some e =>
    if compatible e.dir e.convoy i.dir i.convoy then s
    else if firmState i.st then
      if firmState e.st then raiseClash src i.seg s else s
    else if firmState e.st then queueObject src i.seg e.st s
    else if outranks (ownClass s) s.tli.addr cls src then queueObject src i.seg .tentative s
    else s

/-- One entry of a CLAIM heard: the span first, then the held claims as they then stand (R72). -/
def examineItem (src : Addr) (cls : Nat) (i : ClaimItem) (s : State) : State :=
  examineHeld src cls i (examineSpan src cls i s)

/-- CLAIM heard by a carriage node (R22, R30, R48, R72). -/
def execClaim (src : Addr) (cls : Nat) (period : Ms) (items : List ClaimItem) (s : State) :
    Host.Outcome State Fault Refusal :=
  .next (onKind .carriage (hear (addrOk src && claimWf cls period items) src .other
    (toView src (fun t => items.foldl (fun u i => examineItem src cls i u) (applyClaim src cls period items t)))) s)

/-! ## OBJECT (R49, R74) -/

/-- OBJECT (R74): on a points node the frame is heard and not used (R185). -/
def execObject (src target : Addr) (seg : Seg) (stated : ClaimState) (s : State) :
    Host.Outcome State Fault Refusal :=
  .next (hear (addrOk src && addrOk target && segOk seg) src .other (onKind .carriage (fun t =>
    if target ≠ t.tli.addr then t
    else match ownOn t seg with
      | none => t
      | some e =>
        if !firmState e.st then spanAbort .objected seg src t
        else if firmState stated then raiseClash src seg t
        else t)) s)

/-! ## POINTS (R31 to R33, R52, R53, R56, R61, R70, R102, R103) -/

/-- A points table entry is in use: an own entry names its node with status asked, queued or granted (R32). -/
def pointsInUse (s : State) (n : Addr) : Bool :=
  s.ce.own.any (fun e => e.points.any (fun p => decide (p.node = n) && decide (p.status ≠ .freed)))

/-- The entry evicted: the oldest not in use, and among equals the highest address (R32). -/
def pointsVictim (s : State) : List PointsEntry → Option PointsEntry
  | [] => none
  | e :: rest =>
    let r := pointsVictim s rest
    if pointsInUse s e.node then r
    else match r with
      | none => some e
      | some f => if f.age < e.age ∨ (f.age = e.age ∧ f.node < e.node) then some e else some f

/-- The points table entry a notice is stored as (R31). -/
def pointsEntryOf (src : Addr) (n : PointsNotice) : PointsEntry :=
  { node := src, seg := n.seg, state := n.state, holder := n.holder, holderStale := n.holderStale, pos := n.pos,
    requester := n.requester, code := n.code, age := 0 }

/-- A POINTS notice is entered in the table (R31, R32). -/
def storePoints (e : PointsEntry) (s : State) : State :=
  if s.ov.pointsTab.any (fun k => decide (k.node = e.node)) then
    s.setOv { s.ov with pointsTab := s.ov.pointsTab.map (fun k => if k.node = e.node then e else k) }
  else if s.ov.pointsTab.length < Config.pointsTabCap then s.setOv { s.ov with pointsTab := s.ov.pointsTab ++ [e] }
  else match pointsVictim s s.ov.pointsTab with
    | none => s
    | some v => s.setOv { s.ov with pointsTab := s.ov.pointsTab.filter (fun k => decide (k.node ≠ v.node)) ++ [e] }

/-- An own entry's points field names a node. -/
def namesNode (n : Addr) (e : OwnClaim) : Bool := e.points.any (fun p => decide (p.node = n))

/-- The head has reached the leg of an own entry: its start is at or behind the head, or it is REAR or NONE (R102,
R103). -/
def reachedLeg (s : State) (e : OwnClaim) : Bool :=
  match e.leg, s.pu.route, s.os.active with
  | .leg k, some r, some a => decide (((legStart a.ord.legs k : Nat) : Int) ≤ r.x)
  | _, _, _ => true

/-- The pull-back counts as one abort POINTS_FAILED at leg `j` (R102, step 5). -/
def countPullBack (j : Nat) (g : Seg) (n : Addr) (s : State) : State :=
  match s.os.active with
  | none => s
  | some a =>
    if a.phase = .ending then recordAbort .pointsFailed g n Config.attemptMax s
    else
      let s1 := attemptAt j s
      countAttempt .pointsFailed 0 (recordAbort .pointsFailed g n (s1.ce.attempts + 1) s1)

/-- The pull-back before failed points at the leg `j` of an own entry (R102). -/
def pullBack (n : Addr) (e : OwnClaim) (j : Nat) (s : State) : State :=
  let gone := (s.ce.own.dropWhile (fun k => decide (k.seg ≠ e.seg))).map OwnClaim.seg
  let s1 := setNextClaim j (endSpan gone s)
  let s2 := s1.setCe { s1.ce with failedHold := some n }
  overrunTest (countPullBack j e.seg n s2)

/-- POINTS_LOST, once for a node while in FAULT (R103). -/
def pointsLost (n : Addr) (g : Seg) (s : State) : State :=
  if s.cs.state = .fault ∧ n ∈ s.ce.lostMem then s
  else
    let s1 := s.setCe { s.ce with lostMem := s.ce.lostMem ++ [n] }
    raiseFaultAt .pointsLost g 0 s1

/-- What the Claim Engine does when a node shows FAILED: for held entries POINTS_LOST or the pull-back, and
otherwise the POINTS_FAILED abort of a span that names the node (R52, R53, R102, R103). POINTS_LOST comes before the abort
where both apply. DESIGN CHOICE (assumption 58). DESIGN CHOICE (assumption 63). DESIGN CHOICE (assumption 69). -/
def pointsFailed (n : Addr) (s : State) : State :=
  let heldNames := s.ce.own.filter (fun e => firmState e.st && namesNode n e)
  let s1 := match heldNames.find? (reachedLeg s) with
    | some e => pointsLost n e.seg s
    | none =>
      match heldNames with
      | [] => s
      | e :: _ =>
        match e.leg with
        | .leg j => pullBack n e j s
        | _ => s
  match s1.ce.span with
  | none => s1
  | some sp =>
    match (s1.ce.own.filter (inSpan sp)).find? (namesNode n) with
    | none => s1
    | some e => spanAbort .pointsFailed e.seg n (s1.setCe { s1.ce with failedHold := some n })

/-- The answers of R52 that refuse. -/
def refusal : AnswerCode → Bool
  | .refusedFailed | .refusedNotClaimant | .refusedListenIn | .refusedUncommissioned => true
  | .queued | .granted => false

/-- R52: an answer to this node that differs from the previous one sets the asked or queued legs of the span queued,
or aborts the span. DESIGN CHOICE (assumption 63). -/
def answerForSpan (prev : Addr × AnswerCode) (pe : PointsEntry) (s : State) : State :=
  match s.ce.span with
  | none => s
  | some sp =>
    let waits (e : OwnClaim) : Bool :=
      inSpan sp e && e.points.any (fun p => decide (p.node = pe.node) &&
        (decide (p.status = .asked) || decide (p.status = .queued)))
    match s.ce.own.find? waits with
    | none => s
    | some e =>
      if pe.requester ≠ s.tli.addr ∨ prev = (pe.requester, pe.code) then s
      else if refusal pe.code then spanAbort .pointsRefused e.seg pe.node s
      else if pe.code = .queued then
        s.setCe { s.ce with own := mapPoints (fun k p => if waits k then .queued else p.status) s.ce.own }
      else s

/-- R53 and R70: the granted question sets the status of the span's legs and of the held entries that name the
node. -/
def readGrants (pe : PointsEntry) (s : State) : State :=
  let f (e : OwnClaim) (p : OwnPoints) : PtStatus :=
    if p.node ≠ pe.node then p.status
    else
      let g := grantedBy s.tli.addr pe e.seg p.pos
      if firmState e.st then
        match p.status, g with
        | .granted, false => .freed
        | .freed, true => .granted
        | st, _ => st
      else askedStatus p.status g
  s.setCe { s.ce with own := mapPoints f s.ce.own }

/-- R56: in POINTS_WAIT the commit test is made again when an entry of a node of the span has changed. -/
def commitOnNotice (n : Addr) (s : State) : State :=
  match s.ce.span with
  | none => s
  | some sp =>
    if sp.phase = .pointsWait ∧ (s.ce.own.filter (inSpan sp)).any (namesNode n) ∧ commitTest sp s then commit sp s
    else s

/-- The failed-points hold clears when its node shows any other state (R61). -/
def clearFailedHold (n : Addr) (s : State) : State :=
  if s.ce.failedHold = some n then testTrigger (s.setCe { s.ce with failedHold := none }) else s

/-- What the Claim Engine does with a changed points table entry. -/
def presentPoints (prev : Addr × AnswerCode) (pe : PointsEntry) (s : State) : State :=
  if pe.state = .failed then pointsFailed pe.node s
  else commitOnNotice pe.node (readGrants pe (answerForSpan prev pe (clearFailedHold pe.node s)))

/-- The last answer the node's entry held before the notice; none for an entry new to the table (R52). -/
def prevAnswer (n : Addr) (s : State) : Addr × AnswerCode :=
  match s.ov.pointsTab.find? (fun k => decide (k.node = n)) with
  | some k => (k.requester, k.code)
  | none => (0, .queued)

/-- A POINTS notice on a carriage node (R31). -/
def takePoints (src : Addr) (n : PointsNotice) (s : State) : State :=
  presentPoints (prevAnswer src s) (pointsEntryOf src n) (storePoints (pointsEntryOf src n) s)

/-- POINTS (R31): on a points node the frame is heard and not used (R185). -/
def execPoints (src : Addr) (n : PointsNotice) (s : State) : Host.Outcome State Fault Refusal :=
  .next (hear (addrOk src && n.wf) src .other (onKind .carriage (toView src (takePoints src n))) s)

/-! ## Refresh (R68) -/

/-- The entries a refresh carries: all but the TENTATIVE ones of a span whose announcement has not left. -/
def refreshEntries (s : State) : List OwnClaim :=
  match s.ce.span with
  | some sp => if sp.announced then s.ce.own else s.ce.own.filter (fun e => !inSpan sp e)
  | none => s.ce.own

/-- A complete refresh of the own claim list is queued (R68); with nothing to send the countdown restarts at once. -/
def refreshNow (s : State) : State :=
  let groups := chunk4 (refreshEntries s)
  if groups.isEmpty then s.setCe { s.ce with refresh := some 0, refreshOut := false }
  else
    let s1 := s.setCe { s.ce with refresh := none, refreshOut := false }
    let s2 := groups.foldl (fun t g =>
      offer .ce true .refresh (.claim (claimClass s) (cfg s).refresh (g.map itemOf)) t) s1
    settleRefresh (s2.setCe { s2.ce with refreshOut := true })

/-- REFRESH_EXPIRY (R68): the running countdown expires, and the own claim list is announced again. -/
def execRefreshExpiry (s : State) : Host.Outcome State Fault Refusal :=
  .next (onKind .carriage (fun s => if s.ce.refresh.isNone then s else refreshNow s) s)

end Sys2Proof.Machine
end

