-- ==== Sys2Proof/Machine/Convoy.lean ====
section
/-! DEFINITION. The Convoy Regulator's evaluation (chapter 8): the convoy legs, the candidates, the leader, the gap, the
convoy limit and CONVOY_HOLD. -/

namespace Sys2Proof.Machine

open Sys2Proof

/-- An own entry lies on a convoy leg (R146): it carries the mark and is tied to a leg at or after the head leg, so that
neither the rear segment nor one under deferred release is one. -/
def onConvoyLeg (a : ActiveOrder) (e : OwnClaim) : Bool :=
  e.convoy && match e.leg with
    | .leg k => decide (a.headLeg ≤ k) && decide (k ≤ a.ord.legs.length)
    | _ => false

/-- The own entries on the convoy legs, in route order (R146). -/
def convoyLegs (a : ActiveOrder) (s : State) : List OwnClaim := s.ce.own.filter (onConvoyLeg a)

/-- The leader question (R29): the holders of a claim on a segment compatible with a direction and mark, STALE
entries included, each once and the lowest address first. -/
def leaderQuestion (s : State) (e : OwnClaim) : List Addr :=
  ascending ((s.ov.claims.filter (fun c => decide (c.seg = e.seg) && compatible e.dir e.convoy c.dir c.convoy)).map
    ClaimEntry.holder)

/-- The candidate holders (R146). -/
def candidateHolders (a : ActiveOrder) (s : State) : List Addr := (convoyLegs a s).flatMap (leaderQuestion s)

/-- The tail of a position entry on the route ahead, as a route coordinate (R147). DESIGN CHOICE (assumption 52). -/
def tailOnRoute (a : ActiveOrder) (e : PosEntry) : Option Mm :=
  (legOnSeg a.ord.legs a.headLeg e.tailSeg).map (fun m => coordOf a.ord.legs m e.tailOff)

/-- The leader record a position entry would give at a tail coordinate, the head being at `x` (R148, R149). -/
def leaderOf (x : Int) (e : PosEntry) (t : Mm) : Leader :=
  { addr := e.carriage, tailSeg := e.tailSeg, tailOff := e.tailOff, coord := t,
    gap := min ((t : Int) - x).toNat Config.distClamp, stale := e.stale }

/-- The candidates (R147). -/
def candidates (a : ActiveOrder) (r : Route) (s : State) : List Leader :=
  (s.ov.posTab.filter (fun e => decide (e.carriage ∈ candidateHolders a s))).filterMap (fun e =>
    match tailOnRoute a e with
    | some t => if tailCoord s r < (t : Int) then some (leaderOf r.x e t) else none
    | none => none)

/-- The nearest of the candidates, and between equals the lower address (R148). -/
def nearest : List Leader → Option Leader
  | [] => none
  | e :: rest =>
    match nearest rest with
    | none => some e
    | some f => if f.coord < e.coord ∨ (f.coord = e.coord ∧ f.addr < e.addr) then some f else some e

/-- The convoy limit at a gap (R149). -/
def convoyLimit (c : CommRec) (gap : Mm) : Speed := isqrt (2 * c.decel * (gap - c.standoff))

/-- CONVOY_HOLD after an evaluation that finds a leader at a gap (R150). -/
def holdAfter (c : CommRec) (gap : Mm) (before : Bool) : Bool :=
  if gap ≤ c.hold then true else if c.resume ≤ gap then false else before

/-- A leader evaluation (R145 to R152). -/
def evaluateLeader (a : ActiveOrder) (r : Route) (s : State) : State :=
  match nearest (candidates a r s) with
  | none => clearConvoy s
  | some l =>
    s.setCr { s.cr with leader := some l, limit := some (convoyLimit (cfg s) l.gap),
                        hold := holdAfter (cfg s) l.gap s.cr.hold }

/-- LEADER_EVALUATION (R145). -/
def execLeaderEvaluation (s : State) : Host.Outcome State Fault Refusal :=
  .next (onKind .carriage (fun s =>
    let s1 := s.setCr { s.cr with timer := 0 }
    match started s1, s1.pu.route with
    | some a, some r => if movingState s1.cs.state then evaluateLeader a r s1 else s1
    | _, _ => s1) s)

end Sys2Proof.Machine
end

