-- ==== Sys2Proof/Machine/Docking.lean ====
section
/-! DEFINITION. The Dock Sequencer's commands (chapter 9): the jack switches and the two timeouts. The alignment check,
the start and the end of each motion are in Machine/Movement.lean. -/

namespace Sys2Proof.Machine

open Sys2Proof

/-- The jacks have reached the switch of the motion the drive commands (R162). -/
def motionDone (cmd : JackCmd) (pos : JackPos) : Bool :=
  (decide (cmd = .lower) && decide (pos = .down)) || (decide (cmd = .raise) && decide (pos = .up))

/-- What a new jack position does: it completes a docking, an undocking, or a motion that runs on in FAULT
(R158, R160, R162, R164). -/
def jacksMoved (s : State) : State :=
  match s.cs.state with
  | .docking => if s.ds.pos = .down then dockDone s else s
  | .undocking => if s.ds.pos = .up then undockDone s else s
  | .fault => if motionDone s.ds.cmd s.ds.pos then jacksOff s else s
  | _ => s

/-- JACK_POSITION_CHANGE (R155): the switch inputs as they now stand. -/
def execJackPositionChange (up down : Bool) (s : State) : Host.Outcome State Fault Refusal :=
  .next (onKind .carriage (fun s =>
    jacksMoved (s.setDs { s.ds with upInput := up, downInput := down, pos := jackPosOf up down })) s)

/-- DOCK_TIMEOUT (R159, R162): the running dock timer reaches the dock timeout. -/
def execDockTimeout (s : State) : Host.Outcome State Fault Refusal :=
  .next (onKind .carriage (fun s =>
    if s.ds.dockTimer.isSome then raiseFault .dockTimeout (jacksOff s) else s) s)

/-- UNDOCK_TIMEOUT (R161, R162): the running undock timer reaches the undock timeout. -/
def execUndockTimeout (s : State) : Host.Outcome State Fault Refusal :=
  .next (onKind .carriage (fun s =>
    if s.ds.undockTimer.isSome then raiseFault .undockTimeout (jacksOff s) else s) s)

end Sys2Proof.Machine
end

