-- ==== Sys2Proof/Machine/Envelope.lean ====
section
/-! DEFINITION. The Envelope Unit's evaluation (chapter 7): the limits, the permit, the target, the overspeed test,
the demand and the brake mode. -/

namespace Sys2Proof.Machine

open Sys2Proof

/-! ## The limits (R124 to R132) -/

/-- The speed from which a carriage braking at `a` comes down to `v` over a distance, clamped before the root. -/
def brakingLimit (a : Nat) (v : Speed) (d : Mm) : Speed := isqrt (v * v + 2 * a * min d Config.distClamp)

/-- The stored limits of the legs from the tail leg to the head leg, and the rear segment's while one is held: the
here-limit is the lowest (R125). -/
def occupiedLimits (a : ActiveOrder) : List Speed :=
  let lo := match a.tailLeg with
    | .leg k => k
    | .rear => 1
  (match a.rear with
    | some r => [r.limit]
    | none => []) ++ ((a.ord.legs.take a.headLeg).drop (lo - 1)).map Leg.limit

/-- The approach limits of the legs ahead of the head leg whose start lies before the authority end (R126). -/
def approachLimits (c : CommRec) (a : ActiveOrder) (x : Int) (ae : Mm) : List Speed :=
  (List.range (a.ord.legs.length - a.headLeg)).filterMap (fun i =>
    let j := a.headLeg + 1 + i
    let start := legStart a.ord.legs j
    match legAt a.ord.legs j with
    | some l => if start < ae then some (brakingLimit c.decel l.limit ((start : Int) - x).toNat) else none
    | none => none)

/-- The limit that brings the head to rest at a route coordinate (R127, R131). -/
def restLimit (c : CommRec) (x : Int) (e : Mm) : Speed := brakingLimit c.decel 0 ((e : Int) - x).toNat

/-- The pad limit (R129). -/
def padLimit (c : CommRec) (x : Int) (p : Mm) : Speed :=
  if x + 500 < (p : Int) then brakingLimit c.decel Config.creep ((p : Int) - 500 - x).toNat else Config.creep

/-- Every limit that applies beside the ceiling now (R125 to R131). -/
def limits (s : State) : List Speed :=
  let c := cfg s
  (match s.os.active, s.pu.route with
  | some a, some r =>
    occupiedLimits a ++
    (match authorityEnd s with
      | some ae => restLimit c r.x ae :: approachLimits c a r.x ae
      | none => []) ++
    (match lastPad a.ord with
      | some p => [padLimit c r.x (padCoord a.ord p)]
      | none => []) ++
    (match s.eu.stopTarget with
      | some t => [restLimit c r.x t]
      | none => [])
  | _, _ => []) ++
  (match s.cr.limit with
    | some v => [v]
    | none => [])

/-- The permit: the lowest of the ceiling now and every limit that applies (R132). -/
def permitNow (s : State) : Speed := (limits s).foldl min (ceilingNow s)

/-! ## Target, overspeed, demand, brake (R134 to R139) -/

/-- The target (R134). -/
def targetNow (s : State) : Speed :=
  if held s || (decide (s.cs.state = .stopping) && decide (s.cs.stopCond = some .immediate)) || s.eu.padStop then 0
  else permitNow s

/-- The overspeed threshold (R139). -/
def overspeedAt (demand : Speed) : Speed := demand + max 50 (demand / 8)

/-- The acceleration step of a class (R135). -/
def accelStep (cls : Nat) : Speed :=
  match cls with
  | 0 => 2
  | 1 => 4
  | 2 => 8
  | _ => 12

/-- The brake step (R135). -/
def brakeStep (a : Nat) : Speed := a * 50 / 1000

/-- The demand moved one step toward the target (R135). -/
def nextDemand (c : CommRec) (st : CarState) (demand target : Speed) : Speed :=
  if demand < target then
    if st = .running then min target (demand + accelStep c.accel) else demand
  else max target (demand - brakeStep c.decel)

/-- The brake mode after a demand update (R137). -/
def brakeAfter (demand target : Speed) (standstill : Bool) (b : BrakeMode) : BrakeMode :=
  if 0 < demand ∨ 0 < target then .released else if standstill then .service else b

/-- The demand and the brake mode of a full evaluation, the rest event when the demand comes to 0 at standstill, and the
test of the lookahead (R135, R137, R138, R42). DEDUCED (assumption 30). -/
def moveDemand (s : State) : State :=
  let d := nextDemand (cfg s) s.cs.state s.eu.demand s.eu.target
  let s1 := s.setEu
    { s.eu with demand := d, brake := brakeAfter d s.eu.target s.pu.standstill s.eu.brake,
                rest := s.eu.rest && decide (d = 0) }
  testTrigger (if s.eu.demand ≠ 0 ∧ d = 0 ∧ s.pu.standstill = true then restEvent s1 else s1)

/-- The overspeed test (R139): a second consecutive exceedance raises OVERSPEED. DEDUCED (assumption 29). -/
def overspeedTest (s : State) : State :=
  if overspeedAt s.eu.demand < measuredSpeed s then
    if s.eu.exceed = 0 then s.setEu { s.eu with exceed := 1 } else raiseFault .overspeed s
  else s.setEu { s.eu with exceed := 0 }

/-- A full evaluation, in the order of R123. DEDUCED (assumption 29). -/
def fullEvaluation (s : State) : State :=
  let s1 := s.setEu { s.eu with permit := permitNow s, target := targetNow s }
  let s2 := overspeedTest s1
  if movingState s2.cs.state then moveDemand s2 else s2

/-- The evaluation in a state that does not move (R123). -/
def idleEvaluation (s : State) : State :=
  s.setEu { s.eu with demand := 0, permit := 0, target := 0, exceed := 0, brake := entryBrake s.cs.state s.eu.brake }

/-- ENVELOPE_EVALUATION (R123): the gust input is read as it stands. DESIGN CHOICE (assumption 3). -/
def execEnvelopeEvaluation (gust : Bool) (s : State) : Host.Outcome State Fault Refusal :=
  .next (onKind .carriage (fun s =>
    let s1 := s.setEu { s.eu with gust := gust, timer := 0 }
    if movingState s1.cs.state then fullEvaluation s1 else idleEvaluation s1) s)

end Sys2Proof.Machine
end

