-- ==== Sys2Proof/Machine/Wire.lean ====
section
/-! DEFINITION. Frames at bit level: the header, the CLAIM, RELEASE, POSITION and POINTS payloads (R199, R200), the
check, bit insertion (R181), arbitration (R182) and the frame check (R184). The manual gives the payload bits of no
other kind, only their number and their fields: those bits are free values. -/

namespace Sys2Proof.Config

open Sys2Proof.Machine

/-- FREE VALUE: the 2 payload bytes of a HALT (R192 names the fields and the length, not their bits).
DESIGN CHOICE (assumption 39). -/
opaque haltPayload : Addr → HaltReason → BitVec 16
/-- FREE VALUE: the 3 payload bytes of an OBJECT. DESIGN CHOICE (assumption 39). -/
opaque objectPayload : Addr → Seg → ClaimState → BitVec 24
/-- FREE VALUE: the 2 payload bytes of a POINTS-ASK. DESIGN CHOICE (assumption 39). -/
opaque askPayload : PointsPos → Nat → Nat → BitVec 16
/-- FREE VALUE: the 6 payload bytes of a REPORT. DESIGN CHOICE (assumption 39). -/
opaque reportPayload : Report → BitVec 48
/-- FREE VALUE: the 72 payload bytes of a carriage node's STATUS. DESIGN CHOICE (assumption 39). -/
opaque carriageStatusPayload : CarriageStatus → BitVec 576
/-- FREE VALUE: the 40 payload bytes of a points node's STATUS. DESIGN CHOICE (assumption 39). -/
opaque pointsStatusPayload : PointsStatus → BitVec 320
/-- FREE VALUE: whether a payload of a kind whose bits the manual does not lay out holds only codes its fields assign, and
fill bits 0 (R192). DESIGN CHOICE (assumption 39). -/
opaque payloadCoded : Nat → Bits → Bool

end Sys2Proof.Config

namespace Sys2Proof.Machine

open Sys2Proof

/-! ## Fields as bits, most significant bit first -/

/-- The `n` low bits of a number, most significant first. -/
def toBits : Nat → Nat → Bits
  | 0, _ => []
  | n + 1, v => v.testBit n :: toBits n v

/-- The number a row of bits spells, most significant first, from what the bits before it spell. -/
def ofBitsFrom : Nat → Bits → Nat
  | acc, [] => acc
  | acc, b :: rest => ofBitsFrom (2 * acc + b.toNat) rest

/-- The number a row of bits spells. -/
def ofBits (l : Bits) : Nat := ofBitsFrom 0 l

/-! ## The check (R199) -/

/-- One step of the CRC register with generator x^16 + x^12 + x^5 + 1. -/
def crcStep (r : BitVec 16) (b : Bool) : BitVec 16 :=
  if (r.msb ^^ b) then (r <<< 1) ^^^ 0x1021#16 else r <<< 1

/-- The register after the bits, preset to all ones. -/
def crc16 (l : Bits) : BitVec 16 := l.foldl crcStep 0xFFFF#16

/-! ## Bit insertion (R181) -/

/-- Bits to send, after `run` equal bits of level `last`: after 4 equal bits one of the opposite level follows. -/
def stuffFrom (last : Bool) (run : Nat) : Bits → Bits
  | [] => if run = 4 then [!last] else []
  | b :: rest =>
    if run = 4 then
      (!last) :: b :: (if b = !last then stuffFrom b 2 rest else stuffFrom b 1 rest)
    else b :: (if b = last then stuffFrom b (run + 1) rest else stuffFrom b 1 rest)

/-- A frame's bits with the inserted bits, from the start bit to the end of the check field. -/
def stuff : Bits → Bits
  | [] => []
  | b :: rest => b :: stuffFrom b 1 rest

/-- Bits read, with the bit after 4 equal bits removed; none when a fifth equal bit is read (R184).
DESIGN CHOICE (assumption 65). -/
def unstuffFrom (last : Bool) (run : Nat) : Bits → Option Bits
  | [] => some []
  | b :: rest =>
    if run = 4 then
      if b = last then none else unstuffFrom b 1 rest
    else (unstuffFrom b (if b = last then run + 1 else 1) rest).map (b :: ·)

/-- The bits of a frame as read, with the inserted bits removed. -/
def unstuff : Bits → Option Bits
  | [] => some []
  | b :: rest => (unstuffFrom b 1 rest).map (b :: ·)

/-! ## Codes (R192, R200) -/

def dirBit : Dir → Nat
  | .up => 0
  | .down => 1

def stateCode : ClaimState → Nat
  | .tentative => 0
  | .firm => 1
  | .standing => 2

def carCode : CarState → Nat
  | .uncommissioned => 0
  | .unlocated => 1
  | .parked => 2
  | .undocking => 3
  | .ready => 4
  | .running => 5
  | .stopping => 6
  | .halted => 7
  | .docking => 8
  | .fault => 9

def carOfCode : Nat → Option CarState
  | 0 => some .uncommissioned
  | 1 => some .unlocated
  | 2 => some .parked
  | 3 => some .undocking
  | 4 => some .ready
  | 5 => some .running
  | 6 => some .stopping
  | 7 => some .halted
  | 8 => some .docking
  | 9 => some .fault
  | _ => none

def claimOfCode : Nat → Option ClaimState
  | 0 => some .tentative
  | 1 => some .firm
  | 2 => some .standing
  | _ => none

def pointsCode : PointsState → Nat
  | .lockedNormal => 0
  | .lockedReverse => 1
  | .throwing => 2
  | .recovering => 3
  | .failed => 4

def pointsOfCode : Nat → Option PointsState
  | 0 => some .lockedNormal
  | 1 => some .lockedReverse
  | 2 => some .throwing
  | 3 => some .recovering
  | 4 => some .failed
  | _ => none

def answerCode : AnswerCode → Nat
  | .queued => 0
  | .granted => 1
  | .refusedFailed => 2
  | .refusedNotClaimant => 3
  | .refusedListenIn => 4
  | .refusedUncommissioned => 5

def answerOfCode : Nat → Option AnswerCode
  | 0 => some .queued
  | 1 => some .granted
  | 2 => some .refusedFailed
  | 3 => some .refusedNotClaimant
  | 4 => some .refusedListenIn
  | 5 => some .refusedUncommissioned
  | _ => none

def dirOfBit (b : Bool) : Dir := if b then .down else .up

def posOfBit (b : Bool) : PointsPos := if b then .reverse else .normal

def posBit : PointsPos → Nat
  | .normal => 0
  | .reverse => 1

/-- The kind code of a frame sent (R192). -/
def kindCode : Frame → Nat
  | .halt _ _ => 1
  | .object _ _ _ => 3
  | .release _ => 4
  | .claim _ _ _ => 5
  | .points _ => 6
  | .pointsAsk _ _ _ _ => 16
  | .pointsFree _ => 17
  | .position _ => 18
  | .carriageStatus _ _ | .pointsStatus _ _ => 19
  | .report _ _ => 20

/-- The target of a frame sent: 0 for a notice (R192). -/
def targetOf : Frame → Addr
  | .pointsAsk t _ _ _ | .pointsFree t | .carriageStatus t _ | .pointsStatus t _ | .report t _ => t
  | _ => 0

/-! ## Payloads -/

/-- One CLAIM entry (R200). -/
def itemBits (i : ClaimItem) : Bits :=
  toBits 10 i.seg ++ toBits 1 (dirBit i.dir) ++ toBits 2 (stateCode i.st) ++ [i.convoy] ++ [false, false]

/-- The CLAIM payload (R200). -/
def claimBits (cls : Nat) (period : Ms) (items : List ClaimItem) : Bits :=
  toBits 2 cls ++ toBits 2 (items.length - 1) ++ toBits 2 0 ++ toBits 10 period ++ items.flatMap itemBits

/-- The RELEASE payload: each id in bits 15 to 6 of its word (R200). -/
def releaseBits (segs : List Seg) : Bits := segs.flatMap (fun g => toBits 10 g ++ toBits 6 0)

/-- The POSITION payload (R200); a speed above 4095 is sent as 4095. -/
def positionBits (n : PositionNotice) : Bits :=
  toBits 10 n.headSeg ++ toBits 20 n.headOff ++ toBits 1 (dirBit n.dir) ++ toBits 1 0 ++
    toBits 10 n.tailSeg ++ toBits 20 n.tailOff ++ toBits 2 0 ++
    toBits 12 (min n.speed 4095) ++ toBits 4 (carCode n.state) ++ toBits 12 n.period ++ toBits 4 0

/-- The POINTS payload (R200). -/
def pointsBits (n : PointsNotice) : Bits :=
  toBits 10 n.seg ++ toBits 3 (pointsCode n.state) ++ toBits 3 n.qlen ++
    toBits 6 n.holder ++ [n.holderStale] ++ toBits 1 (posBit n.pos) ++
    toBits 6 n.requester ++ toBits 3 (answerCode n.code) ++ toBits 7 0

/-- The payload of a frame: by R200 where its layout is given, and free bits of the kind's length elsewhere. -/
def payloadBits : Frame → Bits
  | .claim cls p items => claimBits cls p items
  | .release segs => releaseBits segs
  | .position n => positionBits n
  | .points n => pointsBits n
  | .pointsFree _ => []
  | .halt o r => toBits 16 (Config.haltPayload o r).toNat
  | .object t g st => toBits 24 (Config.objectPayload t g st).toNat
  | .pointsAsk _ p cls oid => toBits 16 (Config.askPayload p cls oid).toNat
  | .report _ r => toBits 48 (Config.reportPayload r).toNat
  | .carriageStatus _ st => toBits 576 (Config.carriageStatusPayload st).toNat
  | .pointsStatus _ st => toBits 320 (Config.pointsStatusPayload st).toNat

/-- The header and payload of a frame: class, sender, kind, target, length, payload (R199). -/
def bodyBits (cls sender kind target : Nat) (payload : Bits) : Bits :=
  toBits 3 cls ++ toBits 6 sender ++ toBits 5 kind ++ toBits 6 target ++ toBits 8 (payload.length / 8) ++ payload

/-- A whole frame before bit insertion: the dominant start bit, the body and the check (R199). -/
def frameBits (sender : Addr) (f : Frame) : Bits :=
  let body := bodyBits (frameClass f) sender (kindCode f) (targetOf f) (payloadBits f)
  false :: (body ++ toBits 16 (crc16 body).toNat)

/-- The bits a station drives while it sends a frame, from the start bit to the end of the check field (R181).
DESIGN CHOICE (assumption 46). -/
def wireBits (sender : Addr) (f : Frame) : Bits := stuff (frameBits sender f)

/-- The line output: the bits of the frame being sent, none while none is (R181, R189). DEDUCED (assumption 45).
DESIGN CHOICE (assumption 46). -/
def lineOut (s : State) : Option Bits := (sendingEntry s.tli).map (fun e => wireBits s.tli.addr e.frame)

/-! ## Arbitration (R182) -/

/-- The 9 arbitration bits: class, then sender. DESIGN CHOICE (assumption 14). -/
def arbBits (cls : Nat) (sender : Addr) : Bits := toBits 3 cls ++ toBits 6 sender

/-- A sender of the first bits loses to one of the second: the first bits in which they differ are recessive
against dominant. DESIGN CHOICE (assumption 14). -/
def arbLoses : Bits → Bits → Bool
  | a :: l, b :: m => if a = b then arbLoses l m else a
  | _, _ => false

/-! ## The frame check (R184) -/

/-- The fields of a frame as read. -/
structure RawFrame where
  cls : Nat
  sender : Nat
  kind : Nat
  target : Nat
  payload : Bits
  deriving DecidableEq, Repr

/-- The lengths in bytes a kind may have for the personality that receives it (R192). -/
def lengthOk (k : Kind) (kind len : Nat) : Bool :=
  match kind with
  | 1 => len = 2
  | 2 => len = 3
  | 3 => len = 3
  | 4 => len = 2 ∨ len = 4 ∨ len = 6 ∨ len = 8
  | 5 => len = 4 ∨ len = 6 ∨ len = 8 ∨ len = 10
  | 6 => len = 5
  | 7 => (2 ≤ len ∧ (len - 2) % 7 = 0) ∨ (7 ≤ len ∧ (len - 7) % 7 = 0)
  | 8 => len = 1
  | 9 => len = 0
  | 10 => len = 1 ∨ len = 8 ∨ len = 11 ∨ len = 17
  | 11 =>
    match k with
    | .carriage => len = 31 ∨ len = 38 ∨ len = 41 ∨ len = 47
    | .points => len = 5
  | 12 => len = 0
  | 13 => len = 1
  | 14 => len = 0
  | 15 => len = 0
  | 16 => len = 2
  | 17 => len = 0
  | 18 => len = 12
  | 19 => len = 72 ∨ len = 40
  | 20 => len = 6
  | _ => false

/-- The target suits the kind: 0 for a notice, a station for a request or reply, either for CLEAR-STALE. -/
def targetOk (kind target : Nat) : Bool :=
  match kind with
  | 1 | 2 | 3 | 4 | 5 | 6 | 18 => decide (target = 0)
  | 13 => true
  | _ => decide (target ≠ 0)

/-- One entry word of a CLAIM is well formed: a segment, an assigned state, fill bits 0. -/
def itemWordOk (w : Bits) : Bool :=
  decide (ofBits (w.take 10) ≠ 0) && (claimOfCode (ofBits ((w.drop 11).take 2))).isSome &&
    decide (ofBits (w.drop 14) = 0)

/-- The 16-bit words of a row of bits; the count bounds the words read. -/
def words : Nat → Bits → List Bits
  | 0, _ => []
  | n + 1, l => if l.isEmpty then [] else l.take 16 :: words n (l.drop 16)

/-- The CLAIM payload is well formed (R200). -/
def claimPayloadOk (p : Bits) : Bool :=
  decide (ofBits ((p.drop 2).take 2) + 1 = (p.length - 16) / 16) && decide (ofBits ((p.drop 4).take 2) = 0) &&
    (words 4 (p.drop 16)).all itemWordOk

/-- The RELEASE payload is well formed (R200). -/
def releasePayloadOk (p : Bits) : Bool :=
  (words 4 p).all (fun w => decide (ofBits (w.take 10) ≠ 0) && decide (ofBits (w.drop 10) = 0))

/-- The POSITION payload is well formed (R200). -/
def positionPayloadOk (p : Bits) : Bool :=
  decide (ofBits ((p.drop 31).take 1) = 0) && decide (ofBits ((p.drop 62).take 2) = 0) &&
    decide (ofBits (p.drop 92) = 0) &&
    (match carOfCode (ofBits ((p.drop 76).take 4)) with
      | none => false
      | some st => !st.carriesPosition || (decide (ofBits (p.take 10) ≠ 0) && decide (ofBits ((p.drop 32).take 10) ≠ 0)))

/-- The POINTS payload is well formed (R200). -/
def pointsPayloadOk (p : Bits) : Bool :=
  (pointsOfCode (ofBits ((p.drop 10).take 3))).isSome && decide (ofBits ((p.drop 13).take 3) ≠ 7) &&
    (answerOfCode (ofBits ((p.drop 30).take 3))).isSome && decide (ofBits (p.drop 33) = 0)

/-- The HALT payload is one that names a station and a reason. DESIGN CHOICE (assumption 39). -/
def haltPayloadOk (p : Bits) : Bool :=
  (List.range 64).any (fun o => addrOk o &&
    (decide (p = toBits 16 (Config.haltPayload o .console).toNat) ||
      decide (p = toBits 16 (Config.haltPayload o .estop).toNat)))

/-- The OBJECT payload is one that names a station, a segment and a claim state. DESIGN CHOICE (assumption 39). -/
def objectPayloadOk (p : Bits) : Bool :=
  (List.range 64).any (fun t => addrOk t && (List.range 1024).any (fun g => segOk g &&
    [ClaimState.tentative, .firm, .standing].any (fun st => decide (p = toBits 24 (Config.objectPayload t g st).toNat))))

/-- The POINTS-ASK payload is one that names a position, a rank class and an order id.
DESIGN CHOICE (assumption 39). -/
def askPayloadOk (p : Bits) : Bool :=
  (List.range 4).any (fun cls => (List.range 256).any (fun oid =>
    decide (p = toBits 16 (Config.askPayload .normal cls oid).toNat) ||
      decide (p = toBits 16 (Config.askPayload .reverse cls oid).toNat)))

/-- A location record, alone or after the 30 bytes of a COMMISSION, whose PAD form ends in the fill byte 0 (R195, R196). -/
def locationFillOk (skip : Nat) (p : Bits) : Bool :=
  decide (p.length ≠ 8 * (skip + 8)) || decide (ofBits (p.drop (8 * (skip + 7))) = 0)

/-- The payload holds only codes its fields assign and fill bits 0 (R192): by R200 where it gives the layout; for the other
kinds that the part sends, a payload it would send; for the rest, what the manual does give of their layout (R195 to R197)
and a free value. DESIGN CHOICE (assumption 39). -/
def payloadOk (k : Kind) (kind : Nat) (p : Bits) : Bool :=
  match kind with
  | 1 => haltPayloadOk p
  | 3 => objectPayloadOk p
  | 4 => releasePayloadOk p
  | 5 => claimPayloadOk p
  | 6 => pointsPayloadOk p
  | 9 | 12 | 14 | 15 | 17 => true
  | 10 => Config.payloadCoded 10 p && locationFillOk 0 p
  | 11 =>
    match k with
    | .carriage => Config.payloadCoded 11 p && locationFillOk 30 p
    | .points => true
  | 13 => decide (ofBits p ≤ 63)
  | 16 => askPayloadOk p
  | 18 => positionPayloadOk p
  | n => Config.payloadCoded n p

/-- The fields of a frame whose inserted bits are removed: none when the line fell idle before its check field was
complete, or the check differs (R184). DEDUCED (assumption 11). -/
def readFrame (l : Bits) : Option RawFrame :=
  match l with
  | [] => none
  | _ :: rest =>
    let len := ofBits ((rest.drop 20).take 8)
    let body := rest.take (28 + 8 * len)
    if rest.length ≠ 28 + 8 * len + 16 then none
    else if (crc16 body).toNat ≠ ofBits (rest.drop (28 + 8 * len)) then none
    else some { cls := ofBits (rest.take 3), sender := ofBits ((rest.drop 3).take 6),
                kind := ofBits ((rest.drop 9).take 5), target := ofBits ((rest.drop 14).take 6),
                payload := body.drop 28 }

/-- The conditions of R184 on the fields, for a station of an address and kind. -/
def fieldsOk (own : Addr) (k : Kind) (r : RawFrame) : Bool :=
  decide (r.cls ≤ 5) && decide (r.sender ≠ 0) && decide (r.payload.length ≤ 8 * 136) &&
    lengthOk k r.kind (r.payload.length / 8) && targetOk r.kind r.target && payloadOk k r.kind r.payload &&
    !(decide (r.target = own) && (decide (r.kind = 19) || decide (r.kind = 20)))

/-- The frame check (R184): the frame read from the bits between the start bit and the end of the check field, or
none when it is malformed. -/
def frameCheck (own : Addr) (k : Kind) (l : Bits) : Option RawFrame :=
  match unstuff l with
  | none => none
  | some u => (readFrame u).filter (fieldsOk own k)

/-! ## Reading the payloads back (R200) -/

/-- The CLAIM entry a word spells. -/
def itemOfWord (w : Bits) : Option ClaimItem :=
  (claimOfCode (ofBits ((w.drop 11).take 2))).map (fun st =>
    { seg := ofBits (w.take 10), dir := dirOfBit ((w.drop 10).headD false), st := st,
      convoy := (w.drop 13).headD false })

/-- The class, period and entries a CLAIM payload spells. -/
def claimOfBits (p : Bits) : Option (Nat × Ms × List ClaimItem) :=
  if claimPayloadOk p then
    some (ofBits (p.take 2), ofBits ((p.drop 6).take 10), (words 4 (p.drop 16)).filterMap itemOfWord)
  else none

/-- The segment ids a RELEASE payload spells. -/
def releaseOfBits (p : Bits) : Option (List Seg) :=
  if releasePayloadOk p then some ((words 4 p).map (fun w => ofBits (w.take 10))) else none

/-- The notice a POSITION payload spells. -/
def positionOfBits (p : Bits) : Option PositionNotice :=
  if positionPayloadOk p then
    (carOfCode (ofBits ((p.drop 76).take 4))).map (fun st =>
      { headSeg := ofBits (p.take 10), headOff := ofBits ((p.drop 10).take 20),
        dir := dirOfBit ((p.drop 30).headD false), tailSeg := ofBits ((p.drop 32).take 10),
        tailOff := ofBits ((p.drop 42).take 20), speed := ofBits ((p.drop 64).take 12), state := st,
        period := ofBits ((p.drop 80).take 12) })
  else none

/-- The notice a POINTS payload spells. -/
def pointsOfBits (p : Bits) : Option PointsNotice :=
  if pointsPayloadOk p then
    match pointsOfCode (ofBits ((p.drop 10).take 3)), answerOfCode (ofBits ((p.drop 30).take 3)) with
    | some st, some c =>
      some { seg := ofBits (p.take 10), state := st, qlen := ofBits ((p.drop 13).take 3),
             holder := ofBits ((p.drop 16).take 6), holderStale := (p.drop 22).headD false,
             pos := posOfBit ((p.drop 23).headD false), requester := ofBits ((p.drop 24).take 6), code := c }
    | _, _ => none
  else none

end Sys2Proof.Machine
end

