-- ==== Sys2Proof/Machine/Line.lean ====
section
/-! DEFINITION. The Track Line commands (chapter 11): arrivals, sending, arbitration, departures, silence. -/

namespace Sys2Proof.Machine

open Sys2Proof

/-- INBOUND_REQUEST_TAKEN (R187, R188): a request addressed to this station is judged at its check bit. -/
def execInboundRequestTaken (src : Addr) (req : Request) (s : State) : Host.Outcome State Fault Refusal :=
  .next (arrive src req s)

/-- REQUEST_TO_OTHER_STATION (R185): it restarts the silence timer and reaches the resume watcher alone. A frame
whose target is this station is not one of these, and changes nothing. DEDUCED (assumption 15). -/
def execRequestToOtherStation (src target : Addr) (s : State) : Host.Outcome State Fault Refusal :=
  .next (if target = s.tli.addr then s else hear (addrOk src && addrOk target) src .other id s)

/-- REPLY_HEARD (R185): a STATUS or REPORT from another station to the console; one whose target is this station is
malformed (R184). -/
def execReplyHeard (src target : Addr) (s : State) : Host.Outcome State Fault Refusal :=
  .next (hear (addrOk src && addrOk target && decide (target ≠ s.tli.addr)) src .other id s)

/-- LINE_IDLE (R181, R189): the station begins to send the first frame of its transmit queue. With an empty queue, or
with the clash flag set, when it drives nothing (R183), the line stands idle, and a frame queued then begins at the next
bit time. DESIGN CHOICE (assumption 2). DEDUCED (assumption 15). DESIGN CHOICE (assumption 46). -/
def execLineIdle (s : State) : Host.Outcome State Fault Refusal :=
  .next (if (sendingEntry s.tli).isSome then s
    else match nextIdx s.tli.txq with
      | none => s.setTli { s.tli with idle := true }
      | some i =>
        if s.tli.clash then s.setTli { s.tli with idle := true }
        else s.setTli { s.tli with idle := false,
                                   txq := s.tli.txq.modify i (fun e => { e with sending := true }) })

/-- The frame being sent stops and waits again at its place (R182, R183). -/
def stopSending (s : State) : State := settleRefresh (s.setTli (waitAgain s.tli))

/-- ARBITRATION_LOST (R182): against a frame of the given class and sender, a sender that reads a recessive
arbitration bit dominant stops and keeps its frame. The frame received comes as its own command.
DESIGN CHOICE (assumption 14). DEDUCED (assumption 15). -/
def execArbitrationLost (cls : Nat) (src : Addr) (s : State) : Host.Outcome State Fault Refusal :=
  .next (match sendingEntry s.tli with
    | none => s
    | some e =>
      if arbLoses (arbBits (frameClass e.frame) s.tli.addr) (arbBits cls src) then stopSending s else s)

/-- BIT_ERROR (R183): after arbitration a bit read differs from the bit sent; the sender stops and keeps its frame,
and counts a malformed frame when a dominant bit is read recessive. DEDUCED (assumption 15). -/
def execBitError (dominantReadRecessive : Bool) (s : State) : Host.Outcome State Fault Refusal :=
  .next (match sendingEntry s.tli with
    | none => s
    | some _ => if dominantReadRecessive then countMalformed (stopSending s) else stopSending s)

/-- The frame being sent leaves the queue, its ack slot passed: an unacknowledged one is counted, the places that
open are filled, and a POSITION or POINTS notice kept meanwhile is offered (R186, R190). DEDUCED (assumption 16). -/
def departFrame (e : TxEntry) (ack : Bool) (s : State) : State :=
  let t := s.tli
  let s1 := s.setTli (fill
    { t with txq := t.txq.filter (fun k => !k.sending),
             counters := if ack then t.counters else { t.counters with unacked := satInc t.counters.unacked },
             keptPosition := if isPosition e then none else t.keptPosition,
             keptPoints := if isPeriodicPoints e then none else t.keptPoints })
  let s2 := if isPosition e then
      match t.keptPosition with
      | some n => offer .pu true .plain (.position n) s1
      | none => s1
    else s1
  let s3 := if isPeriodicPoints e then
      match t.keptPoints with
      | some n => offer .pa true .plain (.points n) s2
      | none => s2
    else s2
  settleRefresh s3

/-- The segments a CLAIM names. -/
def claimSegs : Frame → List Seg
  | .claim _ _ items => items.map ClaimItem.seg
  | _ => []

/-- A frame of an aborted span that was being sent at the abort and has won the line counts as sent (R57, step 1): the
announcement is released (step 3), and an ask acknowledged is freed (step 4). DEDUCED (assumption 17). -/
def lateDeparture (e : TxEntry) (ack : Bool) (s : State) : State :=
  match e.tag with
  | .announcement => queueReleases (claimSegs e.frame) s
  | .ask node _ => if ack then queueFrees [node] s else s
  | _ => s

/-- What the Claim Engine does at the departure of one of its frames (R47, R51): the announcement starts the window,
and for a span with a points leg the points wait; an ask acknowledged is noted, and one not acknowledged aborts the
span. A frame of an aborted span is released or freed. DEDUCED (assumption 17). -/
def reportDeparture (e : TxEntry) (ack : Bool) (s : State) : State :=
  if e.withdrawn then lateDeparture e ack s
  else match s.ce.span with
  | none => s
  | some sp =>
    match e.tag with
      | .announcement =>
        let points := s.ce.own.any (fun o => inSpan sp o && o.points.isSome)
        s.setCe { s.ce with span := some { sp with announced := true, window := some 0,
                                                   pointsWait := if points then some 0 else none } }
      | .ask node g =>
        if ack then s.setCe { s.ce with span := some { sp with acked := sp.acked ++ [node] } }
        else spanAbort .pointsNoAck g node s
      | _ => s

/-- FRAME_DEPARTURE (R186): the ack slot of the frame being sent passes, driven or not.
DESIGN CHOICE (assumption 2). DEDUCED (assumption 15). -/
def execFrameDeparture (ack : Bool) (s : State) : Host.Outcome State Fault Refusal :=
  .next (match sendingEntry s.tli with
    | none => s
    | some e => reportDeparture e ack (departFrame e ack s))

/-- LINE_SILENCE (R191): the silence timer reaches 3,000 ms; the flag is set, a running listen-in stops, and a span
in flight aborts LINE_SILENT. -/
def execLineSilence (s : State) : Host.Outcome State Fault Refusal :=
  .next (if s.tli.silent then s
    else
      let s1 := s.setTli { s.tli with silence := Config.silenceMs, silent := true }
      match s.tli.kind with
      | .carriage =>
        let s2 := s1.setOv { s1.ov with listen := none }
        spanAbort .lineSilent ((spanSegs s2).headD 0) 0 s2
      | .points => s1.setSv { s1.sv with listen := none })

/-- FRAME_CHECK_FAILED (R184): the bits heard, from the start bit to the end of the check field, fail the frame
check; the frame is discarded and counted. Bits that pass are no such event, and change nothing.
DEDUCED (assumption 15). -/
def execFrameCheckFailed (bits : Bits) (s : State) : Host.Outcome State Fault Refusal :=
  .next (if (frameCheck s.tli.addr s.tli.kind bits).isNone then countMalformed s else s)

/-! ## The acknowledge slot (R186) -/

/-- A request addressed to this station is taken into the inbound queue, so that its ack slot is driven (R186, R187). -/
def requestAcked (src : Addr) (req : Request) (s : State) : Bool :=
  addrOk src && req.wf && fits s.tli.kind req && decide (s.tli.addr ≠ 0) && decide (src ≠ s.tli.addr) &&
    senderOk src req s && decide (s.tli.inbound.length < Config.inboundCap)

/-- The ack slot of a request given with its delivery: driven at its arrival, which it stands for only while the inbound
queue is empty. DESIGN CHOICE (assumption 9). -/
def deliveryAcked (src : Addr) (req : Request) (s : State) : Bool := s.tli.inbound.isEmpty && requestAcked src req s

/-- A notice valid by its fields from another station, whose slot every receiver drives (R186).
DEDUCED (assumption 13). -/
def noticeAcked (valid : Bool) (src : Addr) (s : State) : Bool := valid && decide (src ≠ s.tli.addr)

/-- The line output in the ack slot of the frame a command carries: dominant for a notice whose check passed and for a
request taken, never for a frame to another station, and never while the clash flag is set; the frame that reveals a
clash sets the flag before its slot (R183, R186). Commands that carry no frame have no slot.
DEDUCED (assumption 45). -/
def ackDriven (i : Instr) (s : State) : Bool :=
  !s.tli.clash && match i with
  | .inboundRequestTaken src req => requestAcked src req s
  | .order src o => deliveryAcked src (.order o) s
  | .stop src c => deliveryAcked src (.stop c) s
  | .drop src => deliveryAcked src .drop s
  | .locate src l => deliveryAcked src (.locate l) s
  | .commission src r l => deliveryAcked src (.commission r l) s
  | .pointsCommission src r => deliveryAcked src (.pointsCommission r) s
  | .clearFault src | .pointsClearFault src => deliveryAcked src .clearFault s
  | .clearStale src true h => noticeAcked (addrOk src && decide (h ≤ 63)) src s
  | .clearStale src false h => deliveryAcked src (.clearStale h) s
  | .stationReset src | .pointsStationReset src => deliveryAcked src .stationReset s
  | .query src => deliveryAcked src .query s
  | .pointsAsk src pos cls oid => deliveryAcked src (.pointsAsk pos cls oid) s
  | .pointsFree src => deliveryAcked src .pointsFree s
  | .halt src o _ | .pointsHalt src o _ => noticeAcked (addrOk src && addrOk o) src s
  | .resumeA src t | .resumeB src t => noticeAcked (addrOk src && decide (t ≤ 65535)) src s
  | .claim src c p is | .pointsNodeClaim src c p is => noticeAcked (addrOk src && claimWf c p is) src s
  | .release src gs | .pointsNodeRelease src gs => noticeAcked (addrOk src && releaseWf gs) src s
  | .object src t g _ => noticeAcked (addrOk src && addrOk t && segOk g) src s
  | .points src n => noticeAcked (addrOk src && n.wf) src s
  | .position src n => noticeAcked (addrOk src && n.wf) src s
  | .requestToOtherStation _ _ | .replyHeard _ _ | .powerOn _ | .resetLine _ | .lineIdle | .arbitrationLost _ _
  | .bitError _ | .frameDeparture _ | .spanAcquisitionStart | .contestWindowExpiry | .pointsTimeout | .backoffExpiry
  | .refreshExpiry | .claimEntryStale _ _ | .segmentViewEntryStale _ | .positionEntryStale _ | .listenInExpiry
  | .pointsListenInExpiry | .overflowHoldExpiry | .lineSilence | .resumeWindowExpiry | .positionPeriodExpiry
  | .pointsPeriodicNotice | .envelopeEvaluation _ | .leaderEvaluation | .odometryBatch _ | .standstillEvent
  | .leadingBoundaryRead _ _ _ | .trailingBoundaryRead _ _ _ | .padMarkerRead _ _ _ | .eStop | .driveFault
  | .jackPositionChange _ _ | .dockTimeout | .undockTimeout | .lockInputChange _ _ | .throwTimeout | .recoveryTimeout
  | .frameCheckFailed _ | .eStopRelease | .driveFaultRelease => false

end Sys2Proof.Machine
end

