-- ==== Sys2Proof/Machine/Orders.lean ====
section
/-! DEFINITION. The Order Store's requests: ORDER, STOP and DROP (chapter 1). -/

namespace Sys2Proof.Machine

open Sys2Proof

/-- What the Order Store does with an ORDER (R4 to R8). DESIGN CHOICE (assumption 60). -/
def takeOrder (o : OrderRec) (s : State) : State :=
  match structuralTest (cfg s) o with
  | some (sub, i) => report .os .order (.refused (.badOrder sub i)) o.id s
  | none =>
    let st := storedOrder (cfg s) o
    let accept (t : State) : State := report .os .order .accepted o.id t
    let toPending (t : State) : State :=
      if t.os.pending.isSome then report .os .order (.refused .storeFull) o.id t
      else accept (t.setOs { t.os with pending := some st })
    match s.cs.state with
    | .uncommissioned | .unlocated | .fault => report .os .order (.refused .state) o.id s
    | .running | .stopping | .halted | .undocking | .docking => toPending s
    | .ready | .parked =>
      match s.os.active with
      | some _ => toPending s
      | none =>
        let s1 := s.setOs { s.os with active := some (waitingOrder st) }
        if s1.cs.latch.isSome then accept s1
        else if firstLegOk st s1 then startActive 1 (accept s1)
        else startActive 1 s1

/-- ORDER (R7, R188): delivered to the Order Store; a points node answers WRONG_KIND. -/
def execOrder (src : Addr) (o : OrderRec) (s : State) : Host.Outcome State Fault Refusal :=
  .next (deliver src (.order o) (fun t =>
    match t.tli.kind with
    | .carriage => takeOrder o t
    | .points => wrongKind .order t) s)

/-! ## STOP -/

/-- The pending order leaves with CANCELLED (R15). -/
def cancelPending (s : State) : State :=
  match s.os.pending with
  | none => s
  | some p => report .os .orderEnd .cancelled p.id (s.setOs { s.os with pending := none })

/-- A candidate for the stop target is reachable: not behind the head, with braking distance enough for the
demand (R130). -/
def reachable (s : State) (x : Int) (c : Mm) : Bool :=
  decide (x ≤ (c : Int)) &&
    decide (s.eu.demand * s.eu.demand ≤ 2 * (cfg s).decel * min ((c : Int) - x).toNat Config.distClamp)

/-- The first reachable candidate short of the authority end, and otherwise the authority end (R130). -/
def firstReachable (s : State) (x : Int) (ae : Mm) : List Mm → Mm
  | [] => ae
  | c :: rest => if ae ≤ c then ae else if reachable s x c then c else firstReachable s x ae rest

/-- The candidates: the ends of the head leg and of the legs after it, less M, held at 0 (R130). -/
def stopCandidates (s : State) (a : ActiveOrder) : List Mm :=
  (List.range (a.ord.legs.length + 1 - a.headLeg)).map
    (fun i => legEnd a.ord.legs (a.headLeg + i) - (cfg s).margin)

/-- The stop target of a NEXT_BOUNDARY STOP taken now (R130). -/
def stopTargetNow (s : State) : Option Mm :=
  match s.os.active, s.pu.route, authorityEnd s with
  | some a, some r, some ae => some (firstReachable s r.x ae (stopCandidates s a))
  | _, _, _ => none

/-- The condition held changes: NEXT_BOUNDARY newly held sets the stop target, IMMEDIATE clears it (R130). -/
def holdStop (c : StopCond) (s : State) : State :=
  if s.cs.stopCond = some c then s
  else
    let s1 := s.setCs { s.cs with stopCond := some c }
    match c with
    | .immediate => s1.setEu { s1.eu with stopTarget := none }
    | .nextBoundary => s1.setEu { s1.eu with stopTarget := stopTargetNow s1 }
    | .authorityEnd => s1

/-- What the Order Store does with a STOP (R15, R50, R138). DESIGN CHOICE (assumption 61).
DESIGN CHOICE (assumption 76). -/
def takeStop (c : StopCond) (s : State) : State :=
  let oid := match s.os.active with
    | some a => a.ord.id
    | none => 0
  let accept (t : State) : State := report .os .stop .accepted oid t
  let refuse (t : State) : State := report .os .stop (.refused .state) oid t
  match s.cs.state with
  | .running | .halted =>
    let s1 := cancelPending (accept s)
    let s2 := spanAbort .stopped ((spanSegs s1).headD 0) 0 s1
    let s3 := enterState .stopping (holdStop c s2)
    if atRest s3 then restEvent s3 else s3
  | .stopping =>
    let s1 := cancelPending (accept s)
    holdStop (match s1.cs.stopCond with
      | some h => stricter h c
      | none => c) s1
  | .undocking =>
    let s1 := cancelPending (accept s)
    s1.setOs { s1.os with stopMark := true }
  | .ready | .parked =>
    match s.os.active with
    | some a =>
      let s1 := report .os .orderEnd .cancelled a.ord.id (accept s)
      cancelPending (s1.setOs { s1.os with active := none })
    | none => refuse s
  | .docking | .uncommissioned | .unlocated | .fault => refuse s

/-- STOP (R15, R188). -/
def execStop (src : Addr) (c : StopCond) (s : State) : Host.Outcome State Fault Refusal :=
  .next (deliver src (.stop c) (fun t =>
    match t.tli.kind with
    | .carriage => takeStop c t
    | .points => wrongKind .stop t) s)

/-! ## DROP -/

/-- What the Order Store does with a DROP (R17). -/
def takeDrop (s : State) : State :=
  match s.os.pending with
  | some p => report .os .drop .cancelled p.id (s.setOs { s.os with pending := none })
  | none => report .os .drop (.refused .state) 0 s

/-- DROP (R17, R188). -/
def execDrop (src : Addr) (s : State) : Host.Outcome State Fault Refusal :=
  .next (deliver src .drop (fun t =>
    match t.tli.kind with
    | .carriage => takeDrop t
    | .points => wrongKind .drop t) s)

end Sys2Proof.Machine
end

