-- ==== Sys2Proof/Machine/Position.lean ====
section
/-! DEFINITION. The Position Unit's commands (chapter 6): the odometry batch, the standstill event, the marker reads
and the periodic POSITION. -/

namespace Sys2Proof.Machine

open Sys2Proof

/-! ## Naming a positional fault (R115) -/

/-- A positional fault that names the head: in the route form the notice head is the head. -/
def headFault (c : FaultCode) (s : State) : State := raiseFault c s

/-- A positional fault that names the tail. -/
def tailFault (c : FaultCode) (s : State) : State := raiseFaultAt c (tailPos s).1 (tailPos s).2 s

/-! ## Odometry (R106 to R108) -/

/-- The distance and the residual of a batch: the floor of `n` × `scale` + residual by 65,536, and the rest (R106). -/
def odometry (scale residual : Nat) (n : Int) : Int × Nat :=
  ((n * scale + residual) / 65536, ((n * scale + residual) % 65536).toNat)

/-- The batch enters the residual, the speed window and the still distance; a non-zero measured speed clears the
standstill flag and ends a rest (R106 to R108, R138). -/
def countBatch (d : Int) (residual : Nat) (s : State) : State :=
  let window := (d :: s.pu.window).take 10
  let moving := decide (window.sum ≠ 0)
  let s1 := s.setPu
    { s.pu with residual := residual, window := window, stillDist := s.pu.stillDist + d,
                zeroFor := if moving then 0 else s.pu.zeroFor,
                standstill := s.pu.standstill && !moving }
  if moving then s1.setEu { s1.eu with rest := false } else s1

/-- A held location moves with the batches, and is discarded beyond the tolerance (R118). -/
def moveHeld (tol : Mm) (d : Int) (h : HeldLoc) : Option HeldLoc :=
  if (h.moved + d).natAbs ≤ tol then some { h with a := moveEnd h.a d, b := moveEnd h.b d, moved := h.moved + d }
  else none

/-- The end moves away from the boundary its reader keeps (R110). DEDUCED (assumption 20). -/
def moveRead (d : Int) (k : EndRead) : EndRead := { k with past := k.past + d }

/-- The distance is applied according to the form of the position (R107, R118). -/
def applyDistance (d : Int) (s : State) : State :=
  match s.pu.route, s.os.active with
  | some r, some a => s.setPu { s.pu with route := some { r with x := r.x + travelDistance a.ord.lead d } }
  | _, _ =>
    s.setPu { s.pu with endA := s.pu.endA.map (fun e => moveEnd e d), endB := s.pu.endB.map (fun e => moveEnd e d),
                        readA := s.pu.readA.map (moveRead d), readB := s.pu.readB.map (moveRead d),
                        held := s.pu.held.bind (moveHeld (cfg s).tol d) }

/-- The backward limits of R107, on the route form. -/
def tooFarBack (s : State) : Bool :=
  match s.pu.route, s.os.active with
  | some r, some a =>
    decide (r.x < (legStart a.ord.legs a.headLeg : Int) - (cfg s).tol) || decide (r.x < 0) ||
      (match a.tailLeg with
        | .rear => false
        | .leg k => decide (tailCoord s r < (legStart a.ord.legs k : Int) - (cfg s).tol))
  | _, _ => false

/-- The A-ward distance moves the carriage against the order's travel. -/
def backward (d : Int) (s : State) : Bool :=
  match s.os.active with
  | some a => decide (travelDistance a.ord.lead d < 0)
  | none => false

/-- Backward movement past its limits raises POSITION_DISCREPANCY (R107). -/
def backwardTest (d : Int) (s : State) : State :=
  if backward d s && tooFarBack s then headFault .positionDiscrepancy s else s

/-- The still distance beyond the tolerance in READY, PARKED, UNDOCKING or DOCKING raises POSITION_DISCREPANCY
(R107). -/
def stillTest (s : State) : State :=
  if driftState s.cs.state && decide ((cfg s).tol < s.pu.stillDist.natAbs) then headFault .positionDiscrepancy s else s

/-! ## Watching the boundaries (R112, R114) -/

/-- The head passes the end of its leg by more than the tolerance: HEAD_MARKER_MISSED (R112). -/
def headWatch (s : State) : State :=
  match s.pu.route, started s with
  | some r, some a =>
    if ((legEnd a.ord.legs a.headLeg + (cfg s).tol : Nat) : Int) < r.x then headFault .headMarkerMissed s else s
  | _, _ => s

/-- The boundary the tail comes to next: its coordinate, the segment behind it and the leg beyond it (R113, R114). -/
def nextTailBoundary (a : ActiveOrder) : Mm × Seg × Nat :=
  match a.tailLeg with
  | .rear =>
    (0, (match a.rear with
      | some r => r.seg
      | none => 0), 1)
  | .leg k =>
    (legEnd a.ord.legs k, (match legAt a.ord.legs k with
      | some l => l.seg
      | none => 0), k + 1)

/-- The tail crosses into leg `k` (R10); from REAR the rear segment becomes none. -/
def tailInto (k : Nat) (s : State) : State :=
  match s.os.active with
  | none => s
  | some a => s.setOs { s.os with active := some { a with tailLeg := .leg k, rear := none } }

/-- The tail passes its next boundary by more than the tolerance: the release of the segment behind is deferred, or,
with a deferral outstanding, TAIL_MARKERS_MISSED is raised (R114). -/
def tailWatch (s : State) : State :=
  match s.pu.route, started s with
  | some r, some a =>
    let b := nextTailBoundary a
    if ((b.1 + (cfg s).tol : Nat) : Int) < tailCoord s r then
      if s.pu.deferral.isSome then tailFault .tailMarkersMissed s
      else tailInto b.2.2 (s.setPu { s.pu with deferral := some b.2.1, tailMisses := satInc s.pu.tailMisses })
    else s
  | _, _ => s

/-- The tests on position after a movement, in the order of their rules: R112, R114 (a batch may pass two
boundaries, and the second is the second miss), R116, R140. DESIGN CHOICE (assumption 22).
DESIGN CHOICE (assumption 59). -/
def watches (s : State) : State := overrunTest (padWatch (tailWatch (tailWatch (headWatch s))))

/-- ODOMETRY_BATCH (R106): the counts of one 10 ms interval. Before COMMISSION there is no scale and no distance.
DESIGN CHOICE (assumption 2). DESIGN CHOICE (assumption 22). -/
def execOdometryBatch (counts : Int) (s : State) : Host.Outcome State Fault Refusal :=
  .next (onKind .carriage (fun s =>
    match s.cs.comm with
    | none => countBatch 0 s.pu.residual s
    | some c =>
      let o := odometry c.scale s.pu.residual counts
      watches (stillTest (backwardTest o.1 (applyDistance o.1 (countBatch o.1 o.2 s))))) s)

/-! ## Standstill (R108, R137, R138) -/

/-- What a standstill event does: the service brake and the rest event. DEDUCED (assumption 30). -/
def takeStandstill (s : State) : State :=
  let s1 := s.setPu { s.pu with zeroFor := Config.standstillMs, standstill := true }
  if movingState s1.cs.state && decide (s1.eu.demand = 0) then
    restEvent (if s1.eu.target = 0 then s1.setEu { s1.eu with brake := .service } else s1)
  else s1

/-- STANDSTILL_EVENT (R108): the measured speed has been 0 for 500 ms and the flag is set. -/
def execStandstillEvent (s : State) : Host.Outcome State Fault Refusal :=
  .next (onKind .carriage (fun s =>
    if measuredSpeed s = 0 ∧ s.pu.standstill = false then takeStandstill s else s) s)

/-! ## Boundary reads (R110, R111, R113) -/

/-- Two pairs of segments name one boundary. DEDUCED (assumption 20). -/
def sameBoundary (g h g' h' : Seg) : Bool :=
  (decide (g = g') && decide (h = h')) || (decide (g = h') && decide (h = g'))

/-- A read repeats the boundary the same reader last had accepted, its end within the tolerance of it (R110).
DEDUCED (assumption 20). -/
def repeated (last : Option LastRead) (g h : Seg) (at' : Int) (tol : Mm) : Bool :=
  match last with
  | none => false
  | some l => sameBoundary l.first l.second g h && decide ((at' - l.coord).natAbs ≤ tol)

/-- A marker read is taken: its check passed, the route form exists, and the carriage is RUNNING, STOPPING or HALTED
(R110). -/
def readTaken (checkOk : Bool) (s : State) : Bool := checkOk && movingState s.cs.state

/-- The pair the leading reader expects with head leg `k` (R111). -/
def leadPair (legs : List Leg) (k : Nat) : Option (Seg × Seg) :=
  match legAt legs k, legAt legs (k + 1) with
  | some l, some m => some (l.seg, m.seg)
  | _, _ => none

/-- An accepted leading read (R111): the head is set on the boundary and the head leg index rises; the tail follows
and the tests on position are made. DESIGN CHOICE (assumption 22). -/
def acceptLead (a : ActiveOrder) (r : Route) (g h : Seg) (s : State) : State :=
  let e : Int := (legEnd a.ord.legs a.headLeg : Nat)
  let s1 := s.setPu
    { s.pu with route := some { r with x := e, lastLead := some { first := g, second := h, coord := e } },
                lastCorrection := r.x - e }
  let s2 := s1.setOs { s1.os with active := some { a with headLeg := a.headLeg + 1 } }
  overrunTest (padWatch (tailWatch s2))

/-- A leading read of a boundary that is taken (R111). -/
def readLead (a : ActiveOrder) (r : Route) (g h : Seg) (s : State) : State :=
  if repeated r.lastLead g h r.x (cfg s).tol then s
  else if leadPair a.ord.legs a.headLeg ≠ some (g, h) then headFault .routeMismatch s
  else if (cfg s).tol < (r.x - (legEnd a.ord.legs a.headLeg : Nat)).natAbs then headFault .positionDiscrepancy s
  else acceptLead a r g h s

/-- LEADING_BOUNDARY_READ (R111). -/
def execLeadingBoundaryRead (checkOk : Bool) (first second : Seg) (s : State) : Host.Outcome State Fault Refusal :=
  .next (onKind .carriage (fun s =>
    match s.pu.route, s.os.active with
    | some r, some a => if readTaken checkOk s then readLead a r first second s else s
    | _, _ => s) s)

/-- The pair the trailing reader expects, its boundary and the leg beyond (R113). -/
def trailPair (a : ActiveOrder) : Option (Seg × Seg × Mm × Nat) :=
  match a.tailLeg with
  | .rear =>
    match a.rear, legAt a.ord.legs 1 with
    | some r, some l => some (r.seg, l.seg, 0, 1)
    | _, _ => none
  | .leg k =>
    match legAt a.ord.legs k, legAt a.ord.legs (k + 1) with
    | some l, some m => some (l.seg, m.seg, legEnd a.ord.legs k, k + 1)
    | _, _ => none

/-- The entries before that of the segment beyond a boundary are released, and the trigger is tested (R69). -/
def releaseBehind (beyond : Seg) (s : State) : State :=
  match s.ce.own.findIdx? (fun e => decide (e.seg = beyond)) with
  | none => s
  | some i => testTrigger (releaseOwn ((s.ce.own.take i).map OwnClaim.seg) s)

/-- A signed value held within −`t`..+`t`. -/
def clampSigned (t : Nat) (v : Int) : Int := max (-(t : Int)) (min t v)

/-- An accepted trailing read (R113): the trim puts the tail on the boundary as far as it is held, the tail leg index
rises, the deferral clears, and the track behind is released. -/
def acceptTrail (r : Route) (g h : Seg) (b : Mm) (k : Nat) (s : State) : State :=
  let disc := tailCoord s r - b
  let s1 := s.setPu
    { s.pu with route := some { r with trim := clampSigned (cfg s).tol (r.trim - disc),
                                       lastTrail := some { first := g, second := h, coord := b } } }
  let s2 := tailInto k s1
  overrunTest (releaseBehind h (s2.setPu { s2.pu with deferral := none }))

/-- The pair is the boundary under deferral: that of the deferred segment and the tail's (R113).
DEDUCED (assumption 21). -/
def deferredPair (g h : Seg) (s : State) : Bool :=
  s.pu.deferral.any (fun d => sameBoundary d (tailPos s).1 g h)

/-- A trailing read of a boundary that is taken (R113). -/
def readTrail (a : ActiveOrder) (r : Route) (g h : Seg) (s : State) : State :=
  if repeated r.lastTrail g h (tailCoord s r) (cfg s).tol then s
  else if deferredPair g h s then tailFault .positionDiscrepancy s
  else match trailPair a with
  | none => tailFault .routeMismatch s
  | some (eg, eh, b, k) =>
    if (eg, eh) ≠ (g, h) then tailFault .routeMismatch s
    else if (cfg s).tol < (tailCoord s r - b).natAbs then tailFault .positionDiscrepancy s
    else acceptTrail r g h b k s

/-- TRAILING_BOUNDARY_READ (R113). -/
def execTrailingBoundaryRead (checkOk : Bool) (first second : Seg) (s : State) : Host.Outcome State Fault Refusal :=
  .next (onKind .carriage (fun s =>
    match s.pu.route, s.os.active with
    | some r, some a => if readTaken checkOk s then readTrail a r first second s else s
    | _, _ => s) s)

/-! ## Pad markers (R116) -/

/-- A leading read of a pad marker that is taken (R116): on the last leg the destination pad begins the pad stop, on
an earlier leg it is a mismatch, and any other pad is disregarded. -/
def readPad (a : ActiveOrder) (r : Route) (pad : Nat) (s : State) : State :=
  match lastPad a.ord with
  | none => s
  | some p =>
    if p.id ≠ pad then s
    else if a.headLeg ≠ a.ord.legs.length then headFault .routeMismatch s
    else if s.pu.padRead.isSome then s
    else
      let s1 := s.setPu { s.pu with padRead := some r.x }
      s1.setEu { s1.eu with padStop := true }

/-- PAD_MARKER_READ (R116): a trailing read of a pad marker is disregarded. -/
def execPadMarkerRead (checkOk leading : Bool) (pad : Nat) (s : State) : Host.Outcome State Fault Refusal :=
  .next (onKind .carriage (fun s =>
    match s.pu.route, s.os.active with
    | some r, some a => if readTaken checkOk s && leading then readPad a r pad s else s
    | _, _ => s) s)

/-! ## The periodic POSITION (R120) -/

/-- POSITION_PERIOD_EXPIRY (R120): it does not come about while the effective period is 0, nor while the timer is
stopped. -/
def execPositionPeriodExpiry (s : State) : Host.Outcome State Fault Refusal :=
  .next (onKind .carriage (fun s =>
    if effPeriod s = 0 ∨ s.pu.timer.isNone then s else queuePosition s) s)

end Sys2Proof.Machine
end

