-- ==== Sys2Proof/Machine/Reset.lean ====
section
/-! DEFINITION. The resets: POWER-ON, the RESET line, and STATION-RESET on a carriage node (R178, R179 and each chapter's
own table). STATION-RESET on a points node is in Machine/Points.lean. -/

namespace Sys2Proof.Machine

open Sys2Proof

/-! ## POWER-ON and the RESET line -/

/-- The Track Line Interface after POWER-ON: address and kind from the straps; an address of 0 holds the clash flag, and
the POSITION a carriage node queues is then discarded (R180, R120). -/
def powerTli (p : Pins) : Tli :=
  let t : Tli :=
    { State.reset.tli with addr := p.strapAddr.toNat, kind := p.strapKind, clash := decide (p.strapAddr.toNat = 0) }
  if p.strapKind = .carriage ∧ p.strapAddr.toNat ≠ 0 then t else { t with txq := [] }

/-- The points node's blocks after POWER-ON: listening in, the points as the locks show them, notices every 1,000 ms
(R80, R81, R84, R101). -/
def powerPoints (p : Pins) (s : State) : State :=
  let s1 := s.setSv { s.sv with listen := some 0 }
  let s2 := s1.setTs { s1.ts with state := stateOfLocks p.lockNormal p.lockReverse }
  s2.setPa { s2.pa with fault := faultOfLocks p.lockNormal p.lockReverse 0,
                        countdown := if s2.tli.clash then none else some 0 }

/-- The block right after its supply comes up, with the straps and inputs as they stand; the commands waiting outside
the part wait on (R179). DESIGN CHOICE (assumption 5). DESIGN CHOICE (assumption 6). DEDUCED (assumption 38). -/
def powerUp (p : Pins) (s : State) : State :=
  let s1 : State :=
    { State.reset with
      pending := s.pending
      tli := powerTli p
      ov := { State.reset.ov with listen := if p.strapKind = .carriage then some 0 else none }
      eu := { State.reset.eu with gust := p.gust }
      ds := { State.reset.ds with upInput := p.jackUp, downInput := p.jackDown, pos := jackPosOf p.jackUp p.jackDown }
      cs := { State.reset.cs with eStop := p.eStop, driveFault := p.driveFault }
      ts := { State.reset.ts with normalLock := p.lockNormal, reverseLock := p.lockReverse } }
  match p.strapKind with
  | .carriage => s1
  | .points => powerPoints p s1

/-- POWER_ON (R179). -/
def execPowerOn (p : Pins) (s : State) : Host.Outcome State Fault Refusal := .next (powerUp p s)

/-- RESET_LINE (R179): the RESET line acts as POWER-ON. -/
def execResetLine (p : Pins) (s : State) : Host.Outcome State Fault Refusal := .next (powerUp p s)

/-! ## STATION-RESET on a carriage node -/

/-- The orders are discarded without REPORTs: a span in flight ends without an abort, the claims that are not occupied
are released in the same step, and the slots empty (R6, R12, R40, R79). DEDUCED (assumption 27). -/
def discardOrders (s : State) : State :=
  let occ := occupied s
  let loose := (s.ce.own.map OwnClaim.seg).filter (fun g => decide (g ∉ occ))
  let s1 := orderLeaves (endSpan loose s)
  s1.setOs { s1.os with pending := none }

/-- The blocks' own state after STATION-RESET, the position and the own claims apart (R39, R40, R121, R143, R144, R155,
R178). -/
def resetBlocks (s : State) : State :=
  let s1 := s.setOv { claims := [], viewFull := false, pointsTab := [], posTab := [], listen := some 0 }
  let s2 := resetAttempts (s1.setCe
    { s1.ce with abort := none, abortCount := 0, clashMem := [], lostMem := [], exempt := false, triggered := false })
  let s3 := s2.setPu
    { s2.pu with lastCorrection := 0, tailMisses := 0, padRead := none, held := none, stillDist := 0,
                 deferral := s2.pu.deferral.filter (fun g => s2.ce.own.any (fun e => decide (e.seg = g))) }
  let s4 := s3.setEu
    { s3.eu with demand := 0, target := 0, permit := 0, stopTarget := none, padStop := false, exceed := 0, rest := false }
  clearConvoy (jacksOff s4)

/-- The countdown restarts at STATION-RESET, and a complete refresh is queued at once (R68, R79); it restarts again when the
frames of that refresh have gone. DEDUCED (assumption 55). -/
def refreshAtReset (s : State) : State :=
  let s1 := refreshNow s
  s1.setCe { s1.ce with refresh := some 0 }

/-- The state the Carriage Supervisor chooses (R178). -/
def chooseState (positional : Bool) (s : State) : State :=
  if positional || !s.pu.known then enterUnlocated s
  else if s.ds.pos = .up then enterState .ready s
  else enterParked s

/-- A carriage node after STATION-RESET (R178, R198): the interface first, then the REPORT, then the blocks.
DESIGN CHOICE (assumption 76). -/
def stationReset (s : State) : State :=
  let positional := s.cs.fault.any FaultRec.positional
  let s1 := resetReport .cs s
  let s2 := resetBlocks (discardOrders s1)
  let s3 := s2.setCs { s2.cs with watcher := none, fault := none, stopCond := none }
  let s4 := queuePosition (refreshAtReset (chooseState positional s3))
  if located s4 then inputFaults s4 else s4

/-- What the Carriage Supervisor does with a STATION-RESET (R178). -/
def takeStationReset (s : State) : State :=
  if s.pu.standstill then stationReset s else report .cs .stationReset (.refused .notStandstill) 0 s

/-- STATION_RESET (R178). -/
def execStationReset (src : Addr) (s : State) : Host.Outcome State Fault Refusal :=
  .next (onKind .carriage (deliver src .stationReset takeStationReset) s)

end Sys2Proof.Machine
end

