-- ==== Sys2Proof/Machine/Supervisor.lean ====
section
/-! DEFINITION. The Carriage Supervisor's commands (chapters 6, 10 and 12): LOCATE, COMMISSION, CLEAR-FAULT, QUERY, the
yard halt and its resume pair (the pair on both personalities), and the two equipment inputs. -/

namespace Sys2Proof.Machine

open Sys2Proof

/-! ## LOCATE (R118) -/

/-- What the Carriage Supervisor does with a LOCATE (R118). DESIGN CHOICE (assumption 70). -/
def takeLocate (l : LocRec) (s : State) : State :=
  let refuse (r : RefuseReason) : State := report .cs .locate (.refused r) 0 s
  if s.cs.state ≠ .unlocated then refuse .state
  else if !s.pu.standstill then refuse .notStandstill
  else if badLocation (cfg s) s.ds.pos l then refuse .badLocation
  else
    let s1 := report .cs .locate .accepted 0 s
    let s2 := s1.setPu { s1.pu with held := heldOf (cfg s1) l }
    tryLocate (s2.setOs { s2.os with memory := [] })

/-- LOCATE (R118): a points node answers WRONG_KIND (R188). -/
def execLocate (src : Addr) (l : LocRec) (s : State) : Host.Outcome State Fault Refusal :=
  .next (deliver src (.locate l) (fun t =>
    match t.tli.kind with
    | .carriage => takeLocate l t
    | .points => wrongKind .locate t) s)

/-! ## COMMISSION (R166, R195) -/

/-- A COMMISSION accepted: its clamped record is kept, the sender is the console, and the carriage enters UNLOCATED
(R166). DESIGN CHOICE (assumption 70). -/
def acceptCommission (src : Addr) (r : CommRec) (l : LocRec) (s : State) : State :=
  let c := clampComm r
  let s1 := s.setCs { s.cs with comm := some c, console := some src }
  let s2 := s1.setPu { s1.pu with held := heldOf c l }
  let s3 := s2.setCe { s2.ce with refresh := some 0 }
  let s4 := report .cs .commission (if c = r then .accepted else .clamped (commMarks r)) 0 s3
  tryLocate (enterState .unlocated s4)

/-- What the Carriage Supervisor does with a COMMISSION (R166, R195): a bad location refuses the whole, with a REPORT to
its sender. -/
def takeCommission (src : Addr) (r : CommRec) (l : LocRec) (s : State) : State :=
  if s.cs.state ≠ .uncommissioned then report .cs .commission (.refused .state) 0 s
  else if badLocation (clampComm r) s.ds.pos l then
    offer .cs false .plain
      (.report src { subject := .commission, outcome := .refused .badLocation, oid := 0 }) s
  else acceptCommission src r l s

/-- COMMISSION (R166): a points node receives a carriage COMMISSION as malformed (R192). -/
def execCommission (src : Addr) (r : CommRec) (l : LocRec) (s : State) : Host.Outcome State Fault Refusal :=
  .next (deliver src (.commission r l) (onKind .carriage (takeCommission src r l)) s)

/-! ## CLEAR-FAULT (R176) -/

/-- An accepted clearing of a fault record (R176, R78). DESIGN CHOICE (assumption 74). -/
def clearFault (f : FaultRec) (s : State) : State :=
  let s1 := jacksOff (report .cs .clearFault .accepted 0 s)
  if f.positional then enterUnlocated (forgetFault s1)
  else
    let kept := clashSegs s1
    let s2 := forgetFault (releaseOwn (kept.filter (fun g => decide (g ∉ occupied s1))) s1)
    if s2.ds.pos = .up then enterState .ready s2 else enterParked s2

/-- What the Carriage Supervisor does with a CLEAR-FAULT: the tests of R176 in their order. -/
def takeClearFault (s : State) : State :=
  let refuse (r : RefuseReason) : State := report .cs .clearFault (.refused r) 0 s
  match s.cs.fault with
  | none => refuse .state
  | some f =>
    if s.cs.state ≠ .fault ∨ s.tli.clash then refuse .state
    else if !s.pu.standstill then refuse .notStandstill
    else if s.cs.eStop || s.cs.driveFault then refuse .stillPresent
    else clearFault f s

/-- CLEAR_FAULT (R176). -/
def execClearFault (src : Addr) (s : State) : Host.Outcome State Fault Refusal :=
  .next (onKind .carriage (deliver src .clearFault takeClearFault) s)

/-! ## QUERY (R194) -/

/-- The STATUS of a carriage node as it stands now; a field that does not apply is 0 or none (R194).
DEDUCED (assumption 31). -/
def carriageStatus (s : State) : CarriageStatus :=
  let run := started s
  { state := s.cs.state, holds := holdCauses s, brake := s.eu.brake,
    activeId := match s.os.active with
      | some a => a.ord.id
      | none => 0,
    pendingId := match s.os.pending with
      | some o => o.id
      | none => 0,
    phase := s.os.active.map ActiveOrder.phase,
    headLeg := match run with
      | some a => a.headLeg
      | none => 0,
    tailLeg := run.map ActiveOrder.tailLeg,
    nextClaim := match run with
      | some a => a.nextClaim
      | none => 0,
    endA := if s.pu.known then endPos s .a else (0, 0),
    endB := if s.pu.known then endPos s .b else (0, 0),
    headCoord := match s.pu.route with
      | some r => r.x
      | none => 0,
    tailCoord := match s.pu.route with
      | some r => tailCoord s r
      | none => 0,
    lastCorrection := s.pu.lastCorrection, authorityEnd := (authorityEnd s).getD 0,
    latch := s.cs.latch, fault := s.cs.fault, abort := s.ce.abort, abortCount := s.ce.abortCount,
    tailMisses := s.pu.tailMisses, counters := s.tli.counters, claims := s.ov.claims.length,
    staleClaims := (s.ov.claims.filter ClaimEntry.stale).length, viewFull := s.ov.viewFull,
    leaderStale := s.cr.leader.any Leader.stale }

/-- The STATUS of a points node as it stands now (R194). -/
def pointsStatus (s : State) : PointsStatus :=
  { seg := pointsSeg s, state := s.ts.state, listening := listeningIn s, grant := s.pa.grant,
    queue := s.pa.queue, lastAnswer := s.pa.lastAnswer, unavailNormal := s.pa.unavailNormal,
    unavailReverse := s.pa.unavailReverse, latch := s.pa.latch, fault := s.pa.fault,
    askDrops := s.pa.askDrops, counters := s.tli.counters, entries := s.sv.entries.length,
    staleEntries := (s.sv.entries.filter SegEntry.stale).length, viewFull := s.sv.overflow.isSome }

/-- What a node does with a QUERY: one STATUS to the console, and nothing else (R194). -/
def takeQuery (s : State) : State :=
  match console s with
  | none => s
  | some c =>
    match s.tli.kind with
    | .carriage => offer .cs false .plain (.carriageStatus c (carriageStatus s)) s
    | .points => offer .pa false .plain (.pointsStatus c (pointsStatus s)) s

/-- QUERY (R194). -/
def execQuery (src : Addr) (s : State) : Host.Outcome State Fault Refusal :=
  .next (deliver src .query takeQuery s)

/-! ## The yard halt and its resume pair (R167 to R170, R99) -/

/-- HALT heard by a carriage node (R167, R168): the latch takes the origin and the reason the frame carries.
DEDUCED (assumption 32). -/
def execHalt (src origin : Addr) (reason : HaltReason) (s : State) : Host.Outcome State Fault Refusal :=
  .next (onKind .carriage (hear (addrOk src && addrOk origin) src .other (setLatch origin reason)) s)

/-- RESUME_A (R169). -/
def execResumeA (src : Addr) (token : Nat) (s : State) : Host.Outcome State Fault Refusal :=
  .next (hear (addrOk src && decide (token ≤ 65535)) src (.resumeA token) id s)

/-- HALTED becomes RUNNING; a pad stop held there at rest is checked for alignment (R170, R156). -/
def resumeHalted (s : State) : State :=
  let s1 := enterState .running s
  if s1.eu.padStop && decide (s1.eu.demand = 0) && s1.pu.standstill then alignmentCheck s1 else s1

/-- The completed pair on a carriage node clears the latch, and the blocks act (R170). -/
def resumeCarriage (s : State) : State :=
  if s.cs.latch.isNone then s
  else
    let s1 := s.setCs { s.cs with latch := none }
    testTrigger (match s1.cs.state with
      | .halted => resumeHalted s1
      | .ready | .parked => startActive 2 s1
      | _ => s1)

/-- The completed pair on a points node clears its latch, and serving is tested (R99). -/
def resumePoints (s : State) : State :=
  if s.pa.latch.isNone then s else serveAfter s (s.setPa { s.pa with latch := none })

/-- RESUME_B (R169): it completes the pair, or disarms the watcher, or is ignored. -/
def execResumeB (src : Addr) (token : Nat) (s : State) : Host.Outcome State Fault Refusal :=
  .next (hear (addrOk src && decide (token ≤ 65535)) src (.resumeB token) (fun t =>
    if completes src (.resumeB token) s then
      match t.tli.kind with
      | .carriage => resumeCarriage t
      | .points => resumePoints t
    else t) s)

/-- RESUME_WINDOW_EXPIRY (R169): the armed watcher is disarmed. -/
def execResumeWindowExpiry (s : State) : Host.Outcome State Fault Refusal := .next (setWatcher none s)

/-! ## The equipment inputs (R171) -/

/-- The assertion of E-STOP: the HALT, the latch, and in a located state the fault, in this order. -/
def takeEStop (s : State) : State :=
  let s1 := s.setCs { s.cs with eStop := true }
  let s2 := offer .cs false .plain (.halt s1.tli.addr .estop) s1
  let s3 := setLatch s2.tli.addr .estop s2
  if located s3 then raiseFault .estop s3 else s3

/-- E_STOP (R171): an input that stays asserted is no new assertion. DEDUCED (assumption 38). -/
def execEStop (s : State) : Host.Outcome State Fault Refusal :=
  .next (onKind .carriage (fun s => if s.cs.eStop then s else takeEStop s) s)

/-- DRIVE_FAULT (R171): the fault is raised in a located state. DEDUCED (assumption 38). -/
def execDriveFault (s : State) : Host.Outcome State Fault Refusal :=
  .next (onKind .carriage (fun s =>
    if s.cs.driveFault then s
    else
      let s1 := s.setCs { s.cs with driveFault := true }
      if located s1 then raiseFault .driveFault s1 else s1) s)

/-- E_STOP_RELEASE (R171): the release changes nothing but the input. -/
def execEStopRelease (s : State) : Host.Outcome State Fault Refusal :=
  .next (onKind .carriage (fun s => s.setCs { s.cs with eStop := false }) s)

/-- DRIVE_FAULT_RELEASE (R171): the release changes nothing but the input. -/
def execDriveFaultRelease (s : State) : Host.Outcome State Fault Refusal :=
  .next (onKind .carriage (fun s => s.setCs { s.cs with driveFault := false }) s)

end Sys2Proof.Machine
end

