-- ==== Sys2Proof/Machine/Dispatch.lean ====
section
/-! DEFINITION. The meaning of every command: one arm for each row of the operations table. -/

namespace Sys2Proof.Machine

open Sys2Proof

def exec (i : Instr) (s : State) : Host.Outcome State Fault Refusal :=
  match i with
  | .powerOn p => Sys2Proof.Machine.execPowerOn p s
  | .resetLine p => Sys2Proof.Machine.execResetLine p s
  | .inboundRequestTaken src req => Sys2Proof.Machine.execInboundRequestTaken src req s
  | .requestToOtherStation src target => Sys2Proof.Machine.execRequestToOtherStation src target s
  | .order src o => Sys2Proof.Machine.execOrder src o s
  | .stop src c => Sys2Proof.Machine.execStop src c s
  | .drop src => Sys2Proof.Machine.execDrop src s
  | .locate src l => Sys2Proof.Machine.execLocate src l s
  | .commission src r l => Sys2Proof.Machine.execCommission src r l s
  | .pointsCommission src r => Sys2Proof.Machine.execPointsCommission src r s
  | .clearFault src => Sys2Proof.Machine.execClearFault src s
  | .pointsClearFault src => Sys2Proof.Machine.execPointsClearFault src s
  | .clearStale src broadcast holder => Sys2Proof.Machine.execClearStale src broadcast holder s
  | .stationReset src => Sys2Proof.Machine.execStationReset src s
  | .pointsStationReset src => Sys2Proof.Machine.execPointsStationReset src s
  | .query src => Sys2Proof.Machine.execQuery src s
  | .pointsAsk src pos cls oid => Sys2Proof.Machine.execPointsAsk src pos cls oid s
  | .pointsFree src => Sys2Proof.Machine.execPointsFree src s
  | .halt src origin reason => Sys2Proof.Machine.execHalt src origin reason s
  | .pointsHalt src origin reason => Sys2Proof.Machine.execPointsHalt src origin reason s
  | .resumeA src token => Sys2Proof.Machine.execResumeA src token s
  | .resumeB src token => Sys2Proof.Machine.execResumeB src token s
  | .claim src cls period items => Sys2Proof.Machine.execClaim src cls period items s
  | .pointsNodeClaim src cls period items => Sys2Proof.Machine.execPointsNodeClaim src cls period items s
  | .release src segs => Sys2Proof.Machine.execRelease src segs s
  | .pointsNodeRelease src segs => Sys2Proof.Machine.execPointsNodeRelease src segs s
  | .object src target seg stated => Sys2Proof.Machine.execObject src target seg stated s
  | .points src n => Sys2Proof.Machine.execPoints src n s
  | .position src n => Sys2Proof.Machine.execPosition src n s
  | .lineIdle => Sys2Proof.Machine.execLineIdle s
  | .arbitrationLost cls src => Sys2Proof.Machine.execArbitrationLost cls src s
  | .bitError dominantReadRecessive => Sys2Proof.Machine.execBitError dominantReadRecessive s
  | .frameDeparture ack => Sys2Proof.Machine.execFrameDeparture ack s
  | .spanAcquisitionStart => Sys2Proof.Machine.execSpanAcquisitionStart s
  | .contestWindowExpiry => Sys2Proof.Machine.execContestWindowExpiry s
  | .pointsTimeout => Sys2Proof.Machine.execPointsTimeout s
  | .backoffExpiry => Sys2Proof.Machine.execBackoffExpiry s
  | .refreshExpiry => Sys2Proof.Machine.execRefreshExpiry s
  | .claimEntryStale holder seg => Sys2Proof.Machine.execClaimEntryStale holder seg s
  | .segmentViewEntryStale holder => Sys2Proof.Machine.execSegmentViewEntryStale holder s
  | .positionEntryStale carriage => Sys2Proof.Machine.execPositionEntryStale carriage s
  | .listenInExpiry => Sys2Proof.Machine.execListenInExpiry s
  | .pointsListenInExpiry => Sys2Proof.Machine.execPointsListenInExpiry s
  | .overflowHoldExpiry => Sys2Proof.Machine.execOverflowHoldExpiry s
  | .lineSilence => Sys2Proof.Machine.execLineSilence s
  | .resumeWindowExpiry => Sys2Proof.Machine.execResumeWindowExpiry s
  | .positionPeriodExpiry => Sys2Proof.Machine.execPositionPeriodExpiry s
  | .pointsPeriodicNotice => Sys2Proof.Machine.execPointsPeriodicNotice s
  | .envelopeEvaluation gust => Sys2Proof.Machine.execEnvelopeEvaluation gust s
  | .leaderEvaluation => Sys2Proof.Machine.execLeaderEvaluation s
  | .odometryBatch counts => Sys2Proof.Machine.execOdometryBatch counts s
  | .standstillEvent => Sys2Proof.Machine.execStandstillEvent s
  | .leadingBoundaryRead checkOk first second => Sys2Proof.Machine.execLeadingBoundaryRead checkOk first second s
  | .trailingBoundaryRead checkOk first second => Sys2Proof.Machine.execTrailingBoundaryRead checkOk first second s
  | .padMarkerRead checkOk leading pad => Sys2Proof.Machine.execPadMarkerRead checkOk leading pad s
  | .eStop => Sys2Proof.Machine.execEStop s
  | .driveFault => Sys2Proof.Machine.execDriveFault s
  | .jackPositionChange up down => Sys2Proof.Machine.execJackPositionChange up down s
  | .dockTimeout => Sys2Proof.Machine.execDockTimeout s
  | .undockTimeout => Sys2Proof.Machine.execUndockTimeout s
  | .lockInputChange normal reverse => Sys2Proof.Machine.execLockInputChange normal reverse s
  | .throwTimeout => Sys2Proof.Machine.execThrowTimeout s
  | .recoveryTimeout => Sys2Proof.Machine.execRecoveryTimeout s
  | .frameCheckFailed bits => Sys2Proof.Machine.execFrameCheckFailed bits s
  | .replyHeard src target => Sys2Proof.Machine.execReplyHeard src target s
  | .eStopRelease => Sys2Proof.Machine.execEStopRelease s
  | .driveFaultRelease => Sys2Proof.Machine.execDriveFaultRelease s

end Sys2Proof.Machine
end

