-- ==== Sys2Proof/Machine/Step.lean ====
section
/-! DEFINITION. One step of the block: the oldest waiting command, or, when none waits, the part's own time. -/

namespace Sys2Proof.Machine

open Sys2Proof

/-- The step when no command waits: the first event due is taken, and when none is due one millisecond passes (DESIGN
CHOICE: the operations table has no row for the passing of time). DESIGN CHOICE (assumption 1).
DESIGN CHOICE (assumption 2). -/
def idleStep (s : State) : Host.Outcome State Fault Refusal :=
  match dueEvent s with
  | some i => exec i s
  | none => .next (tick s)

/-- One step: the command at the front of the queue is run on the state with the queue's rest. -/
def step (s : State) : Host.Outcome State Fault Refusal :=
  match s.pending with
  | i :: rest => exec i (s.setPending rest)
  | [] => idleStep s

/-- The state with the command a table word spells put at the front of its queue; the table gives no row bits, so a
word spells none and the state is unchanged. DESIGN CHOICE (assumption 5). -/
def State.withFetchWord (s : State) (nbits w : Nat) : State :=
  match Sys2Proof.decodeTableWord nbits w with
  | some i => s.setPending (i :: s.pending)
  | none => s

end Sys2Proof.Machine
end

