-- ==== Sys2Proof/Safety.lean ====
section
/-! DEFINITION. What a safe run keeps, and the conditions claims are stated under: the invariants of the block, a request
ready for delivery, a frame from another station, what every frame heard does, an entry of a CLAIM in the view, how the
transmit queue's places are filled, the offer line, the REPORTs and the other frames that wait, the frames of a release step, and
frames whose fields fit. -/

namespace Sys2Proof.Machine

open Sys2Proof

/-! ## Invariants -/

/-- Outside RUNNING, STOPPING and HALTED the demand is 0, and the brake mode is that of the state (R135, R137). -/
def EnvelopeInv (s : State) : Prop :=
  movingState s.cs.state = false → s.eu.demand = 0 ∧ ∀ b, entryBrake s.cs.state b = s.eu.brake

/-- The two queues hold at most 10 frames and 2 requests, and the four line counters stay in range (R180). -/
def QueueInv (s : State) : Prop :=
  s.tli.txq.length ≤ Config.txCap ∧ s.tli.inbound.length ≤ Config.inboundCap ∧
    s.tli.counters.malformed ≤ Config.countTop ∧ s.tli.counters.unacked ≤ Config.countTop ∧
    s.tli.counters.overflow ≤ Config.countTop ∧ s.tli.counters.displaced ≤ Config.countTop

/-- Every table and list holds at most what the part has room for (R21, R31, R34, R64, R83, R86). -/
def TableInv (s : State) : Prop :=
  s.ov.claims.length ≤ Config.claimCap ∧ s.ov.pointsTab.length ≤ Config.pointsTabCap ∧
    s.ov.posTab.length ≤ Config.posTabCap ∧ s.ce.own.length ≤ Config.ownCap ∧
    s.sv.entries.length ≤ Config.segViewCap ∧ s.pa.queue.length ≤ Config.askCap

/-- What the motor and the throw timer are in a points state (R81). -/
def motorFits (t : Throw) : Prop :=
  match t.state with
  | .lockedNormal | .lockedReverse | .failed => t.motor = .off ∧ t.timer = none
  | .throwing => t.motor = .toward t.target ∧ t.timer.isSome = true
  | .recovering => t.motor = .toward t.previous ∧ t.timer.isSome = true

/-- On a points node: the motor and timer suit the state (R81); a grant is held only with the points locked at its
position, so none is held while they move or are FAILED (R89, R94, R97); and a fault record that an address clash opened
stands only while the clash is held and the points are FAILED (R98, R101). -/
def PointsInv (s : State) : Prop :=
  s.tli.kind = .points →
    motorFits s.ts ∧
    (∀ g, s.pa.grant = some g → s.ts.state = lockedAt g.pos) ∧
    (∀ f, s.pa.fault = some f → f.code = .addressClash → s.tli.clash = true ∧ s.ts.state = .failed)

/-! ## The premises and common effects of arrivals -/

/-- The request is the oldest of the inbound queue and may be delivered (R187). -/
def atFront (src : Addr) (req : Request) (s : State) : Bool :=
  decide (s.tli.inbound.head? = some { src := src, req := req }) && canDeliver s.tli

/-- The state with the oldest request out of the inbound queue. -/
def taken (s : State) : State := s.setTli { s.tli with inbound := s.tli.inbound.tail }

/-- The sender of a frame is another station. -/
def fromOther (src : Addr) (s : State) : Bool := addrOk src && decide (src ≠ s.tli.addr)

/-- What every valid frame from another station does, one that is no RESUME-A: the line-silence timer restarts, a
silence ends and a listen-in starts, and the resume watcher is disarmed (R185, R191, R169). -/
def quiet (s : State) : State := setWatcher none (heard s)

/-- The firm end that a claim list would hand is not behind the head, so that the test of R140 raises nothing. -/
def headWithin (own : List OwnClaim) (s : State) : Prop :=
  ∀ r f, s.pu.route = some r → firmEndOf (s.setCe { s.ce with own := own }) = some f → r.x ≤ (f : Int)

/-- The own claims left when the span in flight has gone. -/
def outsideSpan (s : State) : List OwnClaim := s.ce.own.filter (fun e => decide (e.seg ∉ spanSegs s))

/-- An order would start with neither refusal nor fault: its first-leg test passes (R8); the own claims are held firm, on the
segments under the two ends and no other (R65, R140); and its pad, if it has one, does not lie behind the head (R116). -/
def startsClean (o : OrderRec) (s : State) : Prop :=
  s.pu.known = true ∧ ∃ head tail l, endRec s o.lead = some head ∧ endRec s (otherEnd o.lead) = some tail ∧
    o.legs.head? = some l ∧ head.seg = l.seg ∧ l.dir = turn o.lead head.aSense ∧
    l.seg ∈ s.ce.own.map OwnClaim.seg ∧ tail.seg ∈ s.ce.own.map OwnClaim.seg ∧
    (∀ e ∈ s.ce.own, firmState e.st = true ∧ (e.seg = l.seg ∨ e.seg = tail.seg)) ∧
    (∀ p, lastPad o = some p → travelOf l (min head.off l.len) ≤ padCoord o p + (cfg s).tol)

/-- The stop target of a NEXT_BOUNDARY STOP, for the order's legs and its head leg, M, the braking decel, the demand, the head
and the firm end: the end less M of the first leg, from the head leg on, that is not behind the head and lies the braking
distance before it, if it lies short of the authority end, which is the firm end less M; and otherwise the authority end
(R2, R130). -/
def isStopTarget (legs : List Leg) (headLeg margin decel demand : Nat) (x : Int) (firmEnd target : Mm) : Prop :=
  let candidate (j : Nat) : Mm := ((legs.take j).map Leg.len).sum - margin
  let reached (j : Nat) : Prop := x ≤ candidate j ∧ demand ^ 2 ≤ 2 * decel * min (candidate j - x).toNat 2000000
  (∃ j, headLeg ≤ j ∧ j ≤ legs.length ∧ candidate j < firmEnd - margin ∧ reached j ∧
      (∀ i, headLeg ≤ i → i < j → ¬ reached i) ∧ target = candidate j) ∨
    ((∀ j, headLeg ≤ j → j ≤ legs.length → candidate j < firmEnd - margin → ¬ reached j) ∧ target = firmEnd - margin)

/-- The state, its line interface apart, and apart from the refresh countdown that ends with a refresh's last frame
(R68): what queueing frames leaves alone. -/
def lineOnly (s t : State) : Prop :=
  t = (s.setTli t.tli).setCe { s.ce with refresh := t.ce.refresh, refreshOut := t.ce.refreshOut }

/-- A frame waits in the transmit queue, or is kept by its block. -/
def queued (f : Frame) (s : State) : Prop := f ∈ (s.tli.txq ++ s.tli.kept).map TxEntry.frame

/-- The Occupancy View with one entry of a CLAIM applied: stored over the sender's entry on the segment, as a new entry while
fewer than 96 are held, and otherwise lost, with VIEW_FULL set (R22, R23). -/
def viewWith (src : Addr) (cls : Nat) (period : Ms) (v : OccView) (i : ClaimItem) : OccView :=
  let e : ClaimEntry := ⟨src, i.seg, i.dir, i.st, i.convoy, cls, max 200 (min 1000 period), 0, false⟩
  if ∃ k ∈ v.claims, k.holder = src ∧ k.seg = i.seg then
    { v with claims := v.claims.map (fun k => if k.holder = src ∧ k.seg = i.seg then e else k) }
  else if v.claims.length < 96 then { v with claims := v.claims ++ [e] }
  else { v with viewFull := true }

/-! ## The places of the transmit queue -/

/-- The frame, at this index of those kept, is the oldest that the block keeps. -/
def isOldestKept (kept : List TxEntry) (b : Block) (i : Nat) (k : TxEntry) : Prop :=
  kept[i]? = some k ∧ k.block = b ∧ ∀ l ∈ kept.take i, l.block ≠ b

/-- How the places of the transmit queue that have opened are filled: while there are fewer than 10 frames, the block first
in the offer line places its oldest kept frame and gives up that place in the line, so that the next goes to the next in
line; a block in the line that keeps nothing is passed over (R190; assumption 16). -/
inductive Refilled : Tli → Tli → Prop where
  | done (t : Tli) : (10 ≤ t.txq.length ∨ ∀ b ∈ t.offerLine, ∀ k ∈ t.kept, k.block ≠ b) → Refilled t t
  | place (t u : Tli) (pre post : List Block) (b : Block) (i : Nat) (k : TxEntry) : t.txq.length < 10 →
      t.offerLine = pre ++ b :: post → (∀ c ∈ pre, ∀ l ∈ t.kept, l.block ≠ c) → isOldestKept t.kept b i k →
      Refilled { t with txq := t.txq ++ [k], kept := t.kept.eraseIdx i, offerLine := pre ++ post } u →
      Refilled t u

/-- The offer line as frames kept leave it: with each frame kept, its block has joined the end of the line (R190; assumption
16), and frames are kept only while the queue holds 10. -/
def OfferLineInv (t : Tli) : Prop := t.offerLine = t.kept.map TxEntry.block ∧ (t.kept ≠ [] → 10 ≤ t.txq.length)

/-- What stands in the place of a queued frame when the sending stops: a frame not being sent itself; the newer POSITION or
periodic POINTS notice kept meanwhile; and otherwise the frame, no longer being sent, but for one withdrawn meanwhile, and
for the entries of a CLAIM released meanwhile, which with none left goes too (R57, R67, R182, R183, R190; assumptions 18
and 53). -/
def waitsAs (t : Tli) (k : TxEntry) (l : List TxEntry) : Prop :=
  (k.sending = false ∧ l = [k]) ∨
  (k.sending = true ∧
    ((∃ m n, k.frame = .position m ∧ t.keptPosition = some n ∧
        l = [{ k with frame := .position n, sending := false, cut := [], withdrawn := false }]) ∨
      (∃ m n, k.frame = .points m ∧ k.periodic = true ∧ t.keptPoints = some n ∧
        l = [{ k with frame := .points n, sending := false, cut := [], withdrawn := false }]) ∨
      ((isPosition k = true → t.keptPosition = none) ∧ (isPeriodicPoints k = true → t.keptPoints = none) ∧
        ((k.withdrawn = true ∧ l = []) ∨
          (k.withdrawn = false ∧ (∀ c p items, k.frame ≠ .claim c p items) ∧ l = [{ k with sending := false, cut := [] }]) ∨
          (∃ c p items, k.withdrawn = false ∧ k.frame = .claim c p items ∧
            l = if ∀ i ∈ items, i.seg ∈ k.cut then []
                else [{ k with sending := false, cut := [],
                               frame := .claim c p (items.filter (fun i => decide (i.seg ∉ k.cut))) }])))))

/-- The Claim Engine once the queue stands so: a refresh whose last frame has left, been withdrawn or been discarded
restarts the refresh countdown (R68). -/
def refreshSettled (q : List TxEntry) (c : ClaimEngine) : ClaimEngine :=
  if c.refreshOut = true ∧ ∀ k ∈ q, k.tag ≠ .refresh then { c with refreshOut := false, refresh := some 0 } else c

/-- The frame is a REPORT (R193). -/
def isReport (e : TxEntry) : Bool :=
  match e.frame with
  | .report _ _ => true
  | _ => false

/-- The REPORTs that wait, non-periodic as R193 has them, in the order in which they leave: those in the transmit queue, then
those kept (R189, R190). -/
def reports (t : Tli) : List TxEntry := (t.txq ++ t.kept).filter (fun e => isReport e && !e.periodic)

/-- A frame that stays as it was queued until it is sent: a non-periodic one, of no span and no refresh, that is neither a
CLAIM, which loses the entries released (R67), nor a POSITION, which a newer one replaces (R190). -/
def lasting (e : TxEntry) : Bool :=
  !e.periodic && decide (e.tag = .plain) &&
    (match e.frame with
      | .claim _ _ _ | .position _ => false
      | _ => true)

/-- The lasting entries of a block: those of the transmit queue, then those it keeps. -/
def lastingOf (b : Block) (t : Tli) : List TxEntry :=
  (t.txq ++ t.kept).filter (fun e => lasting e && decide (e.block = b))

/-- The lasting frames of a block that wait, in the order in which it queued them (R189, R190). -/
def waiting (b : Block) (t : Tli) : List Frame := (lastingOf b t).map TxEntry.frame

/-- From `s` to `t` the Claim Engine has queued the frames of one release step for these entries, and then `more`: RELEASEs
naming their segments in order, 4 in a frame, and after them one POINTS-FREE to each node that an entry names whose points are
queued, granted or freed (R67). -/
def releasedWith (gone : List OwnClaim) (more : List Frame) (s t : State) : Prop :=
  ∃ nodes : List Addr, nodes.Nodup ∧
    (∀ n, n ∈ nodes ↔ ∃ e ∈ gone, ∃ p, e.points = some p ∧ p.status ≠ .asked ∧ p.node = n) ∧
    waiting .ce t.tli = waiting .ce s.tli ++
      (List.range ((gone.length + 3) / 4)).map
        (fun j => Frame.release (((gone.map OwnClaim.seg).drop (4 * j)).take 4)) ++
      nodes.map Frame.pointsFree ++ more

/-! ## Frames whose fields fit -/

/-- The fields of a frame fit the bits R192, R199 and R200 give them. -/
def Frame.wf : Frame → Bool
  | .halt o _ => addrOk o
  | .object t g _ => addrOk t && segOk g
  | .release segs => releaseWf segs
  | .claim c p items => claimWf c p items
  | .points n => n.wf
  | .pointsAsk t _ cls oid => addrOk t && decide (cls ≤ 3) && decide (oid ≤ 255)
  | .pointsFree t | .carriageStatus t _ | .pointsStatus t _ | .report t _ => addrOk t
  | .position n => n.wf

/-- The frame is a STATUS or a REPORT, which a Vorkal station does not receive (R184). -/
def isReply : Frame → Bool
  | .carriageStatus _ _ | .pointsStatus _ _ | .report _ _ => true
  | _ => false

end Sys2Proof.Machine
end

