-- ==== Sys2Proof/Certificates/Slice0/Obligations.lean ====
section
/-! DEFINITION. The statements for the provers, in the order of OBLIGATIONS.json. A command statement says, for every state
and operands that meet its hypotheses, the next state in full, or by its fields; `taken s` is the state with the delivered
request out of the inbound queue, and `quiet s` the state after a valid frame has been heard, before any block uses it. -/

open Sys2Proof Sys2Proof.Machine

/-! ## The step and the invariants -/

/-- A step with commands waiting runs the oldest of them on the state with the queue's rest. -/
def Obligations.StepRunsFront : Prop :=
  ∀ (c : Instr) (rest : List Instr) (s : State), s.pending = c :: rest → step s = exec c (s.setPending rest)

/-- With no command waiting, the first event due is run, and with none due one millisecond passes: the model's own
choice (assumption 1). The millisecond counts the silence timer, the view's ages and listen-in, the time at measured
speed 0, and the two 50 ms timers. -/
def Obligations.IdleStep : Prop :=
  ∀ s : State, s.pending = [] →
    (∀ c, dueEvent s = some c → step s = exec c s) ∧
    (dueEvent s = none → ∃ t, step s = .next t ∧ t.pending = [] ∧ t.os = s.os ∧
      t.tli.silence = (if s.tli.silent then s.tli.silence else min (s.tli.silence + 1) 3000) ∧
      t.tli.txq = s.tli.txq ∧ t.tli.inbound = s.tli.inbound ∧
      (s.tli.kind = .carriage →
        t.ov.claims = s.ov.claims.map (fun e => { e with age := min (e.age + 1) 65535 }) ∧
        t.ov.listen = s.ov.listen.map (fun v => min (v + 1) 4000) ∧
        t.eu.timer = min (s.eu.timer + 1) 50 ∧ t.cr.timer = min (s.cr.timer + 1) 50 ∧
        t.pu.zeroFor = (if s.pu.window.sum = 0 then min (s.pu.zeroFor + 1) 500 else s.pu.zeroFor) ∧
        t.sv = s.sv ∧ t.pa = s.pa ∧ t.ts = s.ts) ∧
      (s.tli.kind = .points →
        t.sv.entries = s.sv.entries.map (fun e => { e with age := min (e.age + 1) 65535 }) ∧
        t.ov = s.ov ∧ t.ce = s.ce ∧ t.pu = s.pu ∧ t.eu = s.eu ∧ t.cr = s.cr ∧ t.ds = s.ds ∧ t.cs = s.cs))

/-- Every command of the block, in every state, goes on to a next state, and leaves the queue of waiting commands as it is.
-/
def Obligations.ExecKeepsQueue : Prop :=
  ∀ (c : Instr) (s : State), ∃ t, exec c s = .next t ∧ t.pending = s.pending

/-- The four invariants hold at the state after reset, and after POWER-ON with any straps and inputs. -/
def Obligations.InvariantsAtReset : Prop :=
  (EnvelopeInv State.reset ∧ QueueInv State.reset ∧ TableInv State.reset ∧ PointsInv State.reset) ∧
    ∀ (p : Pins) (s t : State), exec (.powerOn p) s = .next t →
      EnvelopeInv t ∧ QueueInv t ∧ TableInv t ∧ PointsInv t

/-- Outside RUNNING, STOPPING and HALTED the demand is 0 and the brake mode is that of the state: every step keeps it. -/
def Obligations.EnvelopeInvKept : Prop :=
  ∀ s t : State, EnvelopeInv s → step s = .next t → EnvelopeInv t

/-- The transmit queue holds at most 10 frames, the inbound queue at most 2 requests, and the line counters stay within
0..65,535: every step keeps it. The claim, points and position tables, the own claim list, the Segment View and the request
queue hold at most 96, 16, 16, 12, 8 and 6 entries: every step keeps it. -/
def Obligations.CapacityInvKept : Prop :=
  (∀ s t : State, QueueInv s → step s = .next t → QueueInv t) ∧
  (∀ s t : State, TableInv s → step s = .next t → TableInv t)

/-- On a points node the motor and the throw timer suit the points state, a grant is held only on points locked at its
position, and a fault record that an address clash opened stands only with the clash held and the points FAILED: every step
keeps it. -/
def Obligations.PointsInvKept : Prop :=
  ∀ s t : State, PointsInv s → step s = .next t → PointsInv t

/-- What no command touches, the two resets apart: the station's address and kind; on a carriage node the points
node's blocks, but for the notice countdown that an address clash stops; on a points node, which has no span in
flight, the carriage node's blocks, but for the two countdowns an address clash stops; the commissioning and the
console, but by COMMISSION; and a set halt latch, but by RESUME-B (R166, R169, R170, R171, R179, R80). That the other
personality's blocks stand in State and stay is the model's choice (assumptions 6 and 7), and so is that the gust
input stays but by an evaluation, which carries it (assumption 3). -/
def Obligations.BlocksKept : Prop :=
  ∀ (c : Instr) (s t : State), exec c s = .next t → (∀ p, c ≠ .powerOn p) → (∀ p, c ≠ .resetLine p) →
    t.tli.addr = s.tli.addr ∧ t.tli.kind = s.tli.kind ∧
    (s.tli.kind = .carriage → t.sv = s.sv ∧ t.ts = s.ts ∧ s.pa = { t.pa with countdown := s.pa.countdown }) ∧
    (s.tli.kind = .points → s.ce.span = none →
      t.os = s.os ∧ t.ov = s.ov ∧ t.eu = s.eu ∧ t.cr = s.cr ∧ t.ds = s.ds ∧ t.cs = s.cs ∧ t.ce.span = none ∧
        s.ce = { t.ce with refresh := s.ce.refresh, refreshOut := s.ce.refreshOut } ∧
        s.pu = { t.pu with timer := s.pu.timer }) ∧
    ((∀ src r l, c ≠ .commission src r l) → t.cs.comm = s.cs.comm ∧ t.cs.console = s.cs.console) ∧
    ((∀ src r, c ≠ .pointsCommission src r) → t.pa.comm = s.pa.comm ∧ t.pa.console = s.pa.console) ∧
    ((∀ src token, c ≠ .resumeB src token) →
      (s.cs.latch.isSome = true → t.cs.latch = s.cs.latch) ∧ (s.pa.latch.isSome = true → t.pa.latch.isSome = true)) ∧
    ((∀ g, c ≠ .envelopeEvaluation g) → t.eu.gust = s.eu.gust)

/-! ## Frames at bit level -/

/-- The CLAIM, RELEASE, POSITION and POINTS payloads of R200, read back, give the notice that was written, for every notice
whose fields fit. -/
def Obligations.PayloadRoundTrip : Prop :=
  (∀ (cls : Nat) (period : Ms) (items : List ClaimItem), claimWf cls period items = true →
    claimOfBits (claimBits cls period items) = some (cls, period, items)) ∧
  (∀ segs : List Seg, releaseWf segs = true → releaseOfBits (releaseBits segs) = some segs) ∧
  (∀ n : PositionNotice, n.wf = true → positionOfBits (positionBits n) = some n) ∧
  (∀ n : PointsNotice, n.wf = true → pointsOfBits (pointsBits n) = some n)

/-- A frame whose fields fit, driven bit by bit by one station, passes the frame check of every station it is not a STATUS
or REPORT for, and is read as the class, sender, kind, target and payload it was sent with (R181, R184, R199). A STATUS or
REPORT, whose payload bits the manual does not lay out, passes just where its payload is one of assigned codes, which is a
free value (assumption 39). -/
def Obligations.SentFramePasses : Prop :=
  ∀ (sender own : Addr) (k : Kind) (f : Frame), addrOk sender = true → f.wf = true →
    (isReply f = true → targetOf f ≠ own) →
    frameCheck own k (wireBits sender f) =
      if isReply f = true ∧ Config.payloadCoded (kindCode f) (payloadBits f) = false then none
      else some { cls := frameClass f, sender := sender, kind := kindCode f, target := targetOf f, payload := payloadBits f }

/-! ## Resets at the supply and the RESET line -/

/-- POWER-ON and the RESET line alike leave every block at its reset values, with the straps and the inputs as they stand;
the commands that wait outside the part wait on. The transmit queue of a carriage node holds one POSITION of state
UNCOMMISSIONED and nothing else (R120), that of a points node nothing, and with strap address 0, under the clash flag, it is
empty on both (R180, R183); no notice is kept. Carriage blocks: R6, R12, R39, R40, R64, R79, R121, R143, R144, R155, R179;
points blocks: R81, R84, R101; the line: R180. That the line does not stand idle (assumption 5), that the gust level is the
one read at the reset (assumption 3), and that an E-STOP which stands asserted sets no latch (assumption 38) are the
model's. -/
def Obligations.PowerOn : Prop :=
  ∀ (p : Pins) (s : State), ∃ t, exec (.powerOn p) s = .next t ∧ exec (.resetLine p) s = .next t ∧
    t.pending = s.pending ∧
    t.tli.addr = p.strapAddr.toNat ∧ t.tli.kind = p.strapKind ∧ t.tli.clash = decide (p.strapAddr = 0) ∧
    t.tli.inbound = [] ∧ t.tli.kept = [] ∧ t.tli.offerLine = [] ∧ t.tli.keptPosition = none ∧ t.tli.keptPoints = none ∧
    t.tli.silence = 0 ∧ t.tli.silent = false ∧ t.tli.idle = false ∧ t.ce.span = none ∧
    t.tli.counters = { malformed := 0, unacked := 0, overflow := 0, displaced := 0 } ∧
    (p.strapKind = .carriage →
      t.tli.txq = (if p.strapAddr = 0 then [] else [
        { frame := .position { headSeg := 0, headOff := 0, dir := .up, tailSeg := 0, tailOff := 0, speed := 0,
                               state := .uncommissioned, period := 0 },
          block := .pu, periodic := true, tag := .plain, sending := false, cut := [], withdrawn := false }]) ∧
      t.os.active = none ∧ t.os.pending = none ∧ t.os.memory = [] ∧
      t.ov.claims = [] ∧ t.ov.pointsTab = [] ∧ t.ov.posTab = [] ∧ t.ov.viewFull = false ∧ t.ov.listen = some 0 ∧
      t.ce.own = [] ∧ t.ce.span = none ∧ t.ce.backoff = none ∧ t.ce.attempts = 0 ∧ t.ce.attemptLeg = none ∧
      t.ce.spanLimit = 4 ∧ t.ce.failedHold = none ∧ t.ce.abort = none ∧ t.ce.abortCount = 0 ∧ t.ce.refresh = none ∧
      t.ce.clashMem = [] ∧ t.ce.lostMem = [] ∧ t.ce.firmEnd = none ∧
      t.pu.known = false ∧ t.pu.deferral = none ∧ t.pu.tailMisses = 0 ∧ t.pu.standstill = false ∧ t.pu.residual = 0 ∧
      t.pu.endA = none ∧ t.pu.endB = none ∧ t.pu.route = none ∧ t.pu.readA = none ∧ t.pu.readB = none ∧
      (∀ d ∈ t.pu.window, d = 0) ∧ t.pu.stillDist = 0 ∧
      t.pu.lastCorrection = 0 ∧ t.pu.padRead = none ∧ t.pu.held = none ∧ t.pu.noticeHead = none ∧ t.pu.timer = none ∧
      t.eu.demand = 0 ∧ t.eu.brake = .emergency ∧ t.eu.target = 0 ∧ t.eu.permit = 0 ∧ t.eu.stopTarget = none ∧
      t.eu.padStop = false ∧ t.eu.exceed = 0 ∧ t.eu.rest = false ∧ t.eu.timer = 0 ∧ t.eu.gust = p.gust ∧
      t.cr.leader = none ∧ t.cr.limit = none ∧ t.cr.hold = false ∧ t.cr.timer = 0 ∧
      t.ds.cmd = .off ∧ t.ds.dockTimer = none ∧ t.ds.undockTimer = none ∧ t.ds.pos = jackPosOf p.jackUp p.jackDown ∧
      t.cs.stopCond = none ∧ t.cs.state = .uncommissioned ∧ t.cs.comm = none ∧ t.cs.console = none ∧ t.cs.latch = none ∧
      t.cs.watcher = none ∧ t.cs.fault = none ∧ t.cs.eStop = p.eStop ∧ t.cs.driveFault = p.driveFault) ∧
    (p.strapKind = .points →
      t.tli.txq = [] ∧ t.sv.entries = [] ∧ t.sv.listen = some 0 ∧ t.sv.overflow = none ∧
      t.pa.queue = [] ∧ t.pa.grant = none ∧ t.pa.lastAnswer = none ∧ t.pa.unavailNormal = false ∧
      t.pa.unavailReverse = false ∧ t.pa.latch = none ∧ t.pa.watcher = none ∧ t.pa.comm = none ∧ t.pa.console = none ∧
      t.pa.askDrops = 0 ∧ (p.strapAddr ≠ 0 → t.pa.countdown = some 0) ∧ t.ts.motor = .off ∧ t.ts.timer = none ∧
      t.ts.normalLock = p.lockNormal ∧ t.ts.reverseLock = p.lockReverse ∧
      (p.lockNormal = true ∧ p.lockReverse = false → t.ts.state = .lockedNormal ∧ t.pa.fault = none) ∧
      (p.lockNormal = false ∧ p.lockReverse = true → t.ts.state = .lockedReverse ∧ t.pa.fault = none) ∧
      (p.lockNormal = p.lockReverse → t.ts.state = .failed ∧ (t.pa.fault.map FaultRec.code) = some .lockLost))

/-! ## The Track Line -/

/-- A non-periodic frame joins the queue while there is room and its block keeps no frame refused for want of room; at
10 frames it displaces the earliest periodic frame not being sent, or is kept by its block, which joins the end of the
offer line; a block that keeps such a frame keeps further ones behind it, and joins the line with each (assumption 16).
A refresh CLAIM, and a POSITION or periodic POINTS notice with no like in the queue, joins, or is discarded at 10
frames; a newer POSITION or periodic POINTS notice takes the place of a waiting one, all others as they were, and is kept
while one is being sent (R190); that a block which keeps frames never keeps a periodic frame behind them is the model's
choice (assumption 54), and so is that a POSITION or periodic POINTS notice kept because its like is being sent keeps no
later frame of its block back (assumption 66). With a clash held all are discarded without count (R183). A REPORT is queued for the console address as a frame that is never discarded, and
nothing of the block changes but the line interface and the refresh countdown that a displaced refresh frame ends; with
no console address none is produced. Every offer, edit, withdrawal and end of a sending leaves the offer line with one
place of its block for each frame kept, and frames kept only while the queue holds 10; and from such a line the places
that open are filled in the order in which the frames were kept (assumption 16). So the REPORTs that wait, those of the
queue and then those kept, stand in the order in which they were produced, and no other frame moves them (R20, R193): a
further one goes behind them all, but where it displaces a periodic frame while another block keeps a REPORT, as R190
has it (assumption 79). -/
def Obligations.FrameOffered : Prop :=
  (∀ (e : TxEntry) (t : Tli),
      let behind := ∃ k ∈ t.kept, k.block = e.block
      let displaces := 10 ≤ t.txq.length ∧ ∃ k ∈ t.txq, k.periodic = true ∧ k.sending = false
      let keptBack := { t with kept := t.kept ++ [e], offerLine := t.offerLine ++ [e.block] }
      (t.clash = true → offerTli e t = t) ∧
      (t.clash = false → e.periodic = false → isPosition e = false →
        (behind → offerTli e t = keptBack) ∧
        (¬ behind →
          (t.txq.length < 10 → offerTli e t = { t with txq := t.txq ++ [e] }) ∧
          (10 ≤ t.txq.length →
            (∀ (i : Nat) (k : TxEntry), t.txq[i]? = some k → k.periodic = true → k.sending = false →
              (∀ (j : Nat) (l : TxEntry), j < i → t.txq[j]? = some l → l.periodic = false ∨ l.sending = true) →
              offerTli e t = { t with txq := t.txq.eraseIdx i ++ [e],
                                      counters := { t.counters with displaced := min (t.counters.displaced + 1) 65535 } }) ∧
            ((∀ k ∈ t.txq, k.periodic = false ∨ k.sending = true) → offerTli e t = keptBack)))) ∧
      (OfferLineInv t → OfferLineInv (offerTli e t) ∧ OfferLineInv (waitAgain t)) ∧
      (∀ segs, OfferLineInv (editClaims segs t) ∧ OfferLineInv (withdrawSpanFrames segs t)) ∧
      (∀ u, t.offerLine = t.kept.map TxEntry.block → Refilled t u →
        OfferLineInv u ∧ u.txq ++ u.kept = t.txq ++ t.kept ∧ reports u = reports t) ∧
      (t.clash = false → OfferLineInv t →
        (isReport e = true → e.periodic = false →
          (behind ∨ ¬ displaces ∨ ∀ k ∈ t.kept, isReport k = false) → reports (offerTli e t) = reports t ++ [e]) ∧
        (isReport e = false → reports (offerTli e t) = reports t)) ∧
      (t.clash = false → e.periodic = true → (isPosition e = true → ∀ k ∈ t.txq, isPosition k = false) →
        (isPeriodicPoints e = true → ∀ k ∈ t.txq, isPeriodicPoints k = false) →
        (t.txq.length < 10 → offerTli e t = { t with txq := t.txq ++ [e] }) ∧
        (10 ≤ t.txq.length → offerTli e t =
          { t with counters := { t.counters with displaced := min (t.counters.displaced + 1) 65535 } })) ∧
      (t.clash = false → ∀ n, e.frame = .position n →
        ((∃ k ∈ t.txq, isPosition k = true ∧ k.sending = false) → ∃ q, offerTli e t = { t with txq := q } ∧
          q.length = t.txq.length ∧
          (∀ (i : Nat) (k : TxEntry), t.txq[i]? = some k →
            (isPosition k = true → k.sending = false → q[i]? = some { k with frame := .position n }) ∧
            (isPosition k = false ∨ k.sending = true → q[i]? = some k))) ∧
        ((∀ k ∈ t.txq, isPosition k = true → k.sending = true) → (∃ k ∈ t.txq, isPosition k = true) →
          offerTli e t = { t with keptPosition := some n })) ∧
      (t.clash = false → ∀ n, e.frame = .points n → e.periodic = true →
        ((∃ k ∈ t.txq, isPeriodicPoints k = true ∧ k.sending = false) → ∃ q, offerTli e t = { t with txq := q } ∧
          q.length = t.txq.length ∧
          (∀ (i : Nat) (k : TxEntry), t.txq[i]? = some k →
            (isPeriodicPoints k = true → k.sending = false → q[i]? = some { k with frame := .points n }) ∧
            (isPeriodicPoints k = false ∨ k.sending = true → q[i]? = some k))) ∧
        ((∀ k ∈ t.txq, isPeriodicPoints k = true → k.sending = true) → (∃ k ∈ t.txq, isPeriodicPoints k = true) →
          offerTli e t = { t with keptPoints := some n }))) ∧
  (∀ (b : Block) (sub : Subject) (out : ReportOutcome) (oid : Nat) (s : State),
      (console s = none → report b sub out oid s = s) ∧
      (∀ c, console s = some c →
        lineOnly s (report b sub out oid s) ∧
        (s.tli.clash = false →
          queued (.report c { subject := sub, outcome := out, oid := oid }) (report b sub out oid s) ∧
          (∀ e ∈ s.tli.txq ++ s.tli.kept, e.periodic = false →
            e ∈ (report b sub out oid s).tli.txq ++ (report b sub out oid s).tli.kept))))

/-- A valid request addressed to this station from another: from a sender it may be taken from it joins the inbound queue,
at 2 requests it is lost and counted as an overflow, and from any other sender it is counted as malformed; in each case it
is heard (R187, R188). A COMMISSION of the other personality is malformed by its length, counted and not heard (R192), when
it arrives and, by assumption 9, when it is given with its delivery. Who a request may be taken from (R188): the console
address; any sender for a COMMISSION of this personality while uncommissioned, and for POINTS-ASK and POINTS-FREE on a
points node; and otherwise nobody. -/
def Obligations.RequestJudged : Prop :=
  (∀ (src : Addr) (req : Request) (s : State), fromOther src s = true → req.wf = true → fits s.tli.kind req = true →
      s.tli.addr ≠ 0 →
      (senderOk src req s = true →
        (s.tli.inbound.length < 2 → exec (.inboundRequestTaken src req) s = .next
          ((quiet s).setTli { (quiet s).tli with inbound := s.tli.inbound ++ [{ src := src, req := req }] })) ∧
        (2 ≤ s.tli.inbound.length → exec (.inboundRequestTaken src req) s = .next
          ((quiet s).setTli { (quiet s).tli with
            counters := { s.tli.counters with overflow := min (s.tli.counters.overflow + 1) 65535 } }))) ∧
      (senderOk src req s = false → exec (.inboundRequestTaken src req) s = .next
        ((quiet s).setTli { (quiet s).tli with
          counters := { s.tli.counters with malformed := min (s.tli.counters.malformed + 1) 65535 } }))) ∧
  (∀ (src : Addr) (s : State),
      let counted := s.setTli { s.tli with
        idle := false, counters := { s.tli.counters with malformed := min (s.tli.counters.malformed + 1) 65535 } }
      (s.tli.kind = .points → ∀ r l,
        exec (.inboundRequestTaken src (.commission r l)) s = .next counted ∧
        (s.tli.inbound.head? ≠ some ⟨src, .commission r l⟩ → exec (.commission src r l) s = .next counted)) ∧
      (s.tli.kind = .carriage → ∀ r,
        exec (.inboundRequestTaken src (.pointsCommission r)) s = .next counted ∧
        (s.tli.inbound.head? ≠ some ⟨src, .pointsCommission r⟩ → exec (.pointsCommission src r) s = .next counted))) ∧
  (∀ (src : Addr) (req : Request) (s : State), s.tli.kind = .carriage →
      (s.cs.console = some src → senderOk src req s = true) ∧
      (s.cs.comm = none → ∀ r l, senderOk src (.commission r l) s = true) ∧
      (s.cs.console ≠ some src → s.cs.comm.isSome = true → senderOk src req s = false) ∧
      (s.cs.console ≠ some src → (∀ r l, req ≠ .commission r l) → (∀ r, req ≠ .pointsCommission r) →
        senderOk src req s = false)) ∧
  (∀ (src : Addr) (req : Request) (s : State), s.tli.kind = .points →
      (s.pa.console = some src → senderOk src req s = true) ∧
      (s.pa.comm = none → ∀ r, senderOk src (.pointsCommission r) s = true) ∧
      (∀ pos cls oid, senderOk src (.pointsAsk pos cls oid) s = true) ∧ senderOk src .pointsFree s = true ∧
      (s.pa.console ≠ some src → (∀ pos cls oid, req ≠ .pointsAsk pos cls oid) → req ≠ .pointsFree →
        (s.pa.comm.isSome = true ∨ ((∀ r l, req ≠ .commission r l) ∧ ∀ r, req ≠ .pointsCommission r)) →
        senderOk src req s = false))

/-- What hearing any valid frame from another station does, one that is no RESUME-A: the silence timer restarts, a silence
reported ends and a listen-in of the full period starts, the line is no longer idle, and the resume watcher is disarmed;
nothing else changes (R185, R191, R169, R181). A request to another station, a reply to the console, and on a points node an
OBJECT, POINTS or POSITION notice, is heard and used by no block (R185). -/
def Obligations.FrameHeard : Prop :=
  (∀ s : State,
      (s.tli.kind = .carriage → quiet s =
        { s with tli := { s.tli with silence := 0, silent := false, idle := false },
                 ov := { s.ov with listen := if s.tli.silent then some 0 else s.ov.listen },
                 cs := { s.cs with watcher := none } }) ∧
      (s.tli.kind = .points → quiet s =
        { s with tli := { s.tli with silence := 0, silent := false, idle := false },
                 sv := { s.sv with listen := if s.tli.silent then some 0 else s.sv.listen },
                 pa := { s.pa with watcher := none } })) ∧
  (∀ (src target : Addr) (s : State), fromOther src s = true → addrOk target = true →
      (target ≠ s.tli.addr → exec (.requestToOtherStation src target) s = .next (quiet s) ∧
        exec (.replyHeard src target) s = .next (quiet s)) ∧
      (s.tli.kind = .points →
        (∀ g st, segOk g = true → exec (.object src target g st) s = .next (quiet s)) ∧
        (∀ n, PointsNotice.wf n = true → exec (.points src n) s = .next (quiet s)) ∧
        (∀ n, PositionNotice.wf n = true → exec (.position src n) s = .next (quiet s))))

/-- A valid frame with this station's own address as sender, whatever its kind, is an address clash: the clash flag is
set and the queues empty; a carriage node not yet in FAULT enters it with ADDRESS_CLASH and the emergency brake, and
the points of a points node become FAILED with no grant and no queue (R183, R98, R173). Another station has sent it,
so that the silence timer restarts, and an armed watcher acts on it (R191, R169). The frame is not handed to the
Occupancy View (R21), no CLEAR-STALE request of this sender either, and is handed, after the clash (assumption 67), to
every other block that uses it (R185; assumption 13): a HALT sets the latch (R167, R99), an OBJECT reaches the held
claims (R74), a CLAIM, RELEASE or CLEAR-STALE the Segment View (R82), a request is judged (R187, R188), and a RESUME-B
may complete the pair (R169). -/
def Obligations.OwnAddressHeard : Prop :=
  ∀ s : State, addrOk s.tli.addr = true →
    let own := s.tli.addr
    ∃ t,
      t.tli.clash = true ∧ t.tli.txq = [] ∧ t.tli.kept = [] ∧ t.tli.offerLine = [] ∧ t.tli.silence = 0 ∧
      t.tli.silent = false ∧ watcherOf t = none ∧ t.cs.latch = s.cs.latch ∧ t.pa.latch = s.pa.latch ∧
      t.ov = (quiet s).ov ∧ t.sv = (quiet s).sv ∧
      (s.tli.kind = .carriage → s.cs.state ≠ .fault →
        t.cs.state = .fault ∧ t.cs.fault.map FaultRec.code = some .addressClash ∧ t.eu.demand = 0 ∧
        t.eu.brake = .emergency ∧ t.os.active = none ∧ t.os.pending = none ∧ t.ce.refresh = none ∧ t.pu.timer = none) ∧
      (s.tli.kind = .points →
        t.ts.state = .failed ∧ t.ts.motor = .off ∧ t.pa.grant = none ∧ t.pa.queue = [] ∧ t.pa.countdown = none ∧
        t.pa.fault.isSome = true ∧ (s.pa.fault = none → t.pa.fault.map FaultRec.code = some .addressClash)) ∧
      (∀ target, addrOk target = true → target ≠ own →
        exec (.requestToOtherStation own target) s = .next t ∧ exec (.replyHeard own target) s = .next t) ∧
      (∀ n, PointsNotice.wf n = true → exec (.points own n) s = .next t) ∧
      (∀ n, PositionNotice.wf n = true → exec (.position own n) s = .next t) ∧
      (let counted := t.setTli { t.tli with
        counters := { s.tli.counters with malformed := min (s.tli.counters.malformed + 1) 65535 } }
       (∀ req, Request.wf req = true → fits s.tli.kind req = true →
        (senderOk own req s = false → exec (.inboundRequestTaken own req) s = .next counted) ∧
        (senderOk own req s = true →
          (s.tli.inbound.length < 2 → exec (.inboundRequestTaken own req) s =
            .next (t.setTli { t.tli with inbound := s.tli.inbound ++ [⟨own, req⟩] })) ∧
          (2 ≤ s.tli.inbound.length → exec (.inboundRequestTaken own req) s =
            .next (t.setTli { t.tli with
              counters := { s.tli.counters with overflow := min (s.tli.counters.overflow + 1) 65535 } })))) ∧
       (∀ h, h ≤ 63 → exec (.clearStale own true h) s = .next (if console s ≠ some own then counted else
          match s.tli.kind with
          | .carriage => t
          | .points => withdrawClaim h t))) ∧
      (∀ token, token ≤ 65535 →
        exec (.resumeA own token) s = .next (setWatcher (if console s = some own then some ⟨own, token, 0⟩ else none) t) ∧
        ((∀ w, watcherOf s = some w → w.sender ≠ own ∨ w.token ≠ token) → exec (.resumeB own token) s = .next t) ∧
        (∀ w, watcherOf s = some w → w.sender = own → w.token = token → exec (.resumeB own token) s =
          .next (match s.tli.kind with
            | .carriage => resumeCarriage t
            | .points => resumePoints t))) ∧
      (∀ target g st, addrOk target = true → segOk g = true → s.tli.kind = .points ∨ target ≠ own →
        exec (.object own target g st) s = .next t) ∧
      (s.tli.kind = .carriage →
        (∀ c p items, claimWf c p items = true → exec (.claim own c p items) s = .next t) ∧
        (∀ segs, releaseWf segs = true → exec (.release own segs) s = .next t) ∧
        (∀ h, atFront own (.clearStale h) s = true →
          exec (.clearStale own false h) s = .next (report .ov .clearStale .accepted 0 (taken s))) ∧
        (s.cs.state ≠ .fault ∨ s.ce.span = none →
          (∀ o r, addrOk o = true → exec (.halt own o r) s = .next (t.setCs
            { t.cs with latch := if s.cs.latch.isSome then s.cs.latch else some ⟨o, r⟩ })) ∧
          (∀ g st, segOk g = true → exec (.object own own g st) s = .next (
            if firmState st && (ownOn t g).any (fun e => firmState e.st) then raiseClash own g t else t)))) ∧
      (s.tli.kind = .points →
        (∀ o r, addrOk o = true → exec (.pointsHalt own o r) s = .next (t.setPa { t.pa with latch := some ⟨o, r⟩ })) ∧
        (∀ c p items, claimWf c p items = true →
          exec (.pointsNodeClaim own c p items) s = .next (afterView t (applySegClaims own p items t))) ∧
        (∀ segs, releaseWf segs = true → exec (.pointsNodeRelease own segs) s = .next (
          if s.pa.comm.any (fun c => decide (c.seg ∈ segs)) then withdrawClaim own t else t)))

/-- A frame whose fields are malformed, of whatever kind, is discarded and counted, and is not heard; only the line, no
longer idle, shows it (R184, R181); that a field out of range makes its frame malformed is assumption 11. Bits that fail the
frame check are counted so, and bits that pass it are no such event and change nothing (assumption 15). The ack slot is
driven for every notice whose check passed, for a request taken into the inbound queue, never for a frame to another
station, and never while the clash flag is set (R186). -/
def Obligations.MalformedAndAcked : Prop :=
  (∀ (src : Addr) (s : State),
      let counted := s.setTli { s.tli with
        idle := false, counters := { s.tli.counters with malformed := min (s.tli.counters.malformed + 1) 65535 } }
      let bad : Prop := addrOk src = false
      (∀ req, bad ∨ Request.wf req = false → exec (.inboundRequestTaken src req) s = .next counted) ∧
      (∀ target, target ≠ s.tli.addr → bad ∨ addrOk target = false →
        exec (.requestToOtherStation src target) s = .next counted) ∧
      (∀ target, bad ∨ addrOk target = false ∨ target = s.tli.addr → exec (.replyHeard src target) s = .next counted) ∧
      (∀ token, bad ∨ 65535 < token →
        exec (.resumeA src token) s = .next counted ∧ exec (.resumeB src token) s = .next counted) ∧
      (∀ h, bad ∨ 63 < h → exec (.clearStale src true h) s = .next counted) ∧
      (∀ target g st, bad ∨ addrOk target = false ∨ segOk g = false →
        exec (.object src target g st) s = .next counted) ∧
      (∀ n, bad ∨ PositionNotice.wf n = false → exec (.position src n) s = .next counted) ∧
      (∀ n, bad ∨ PointsNotice.wf n = false → exec (.points src n) s = .next counted) ∧
      (s.tli.kind = .carriage →
        (∀ o r, bad ∨ addrOk o = false → exec (.halt src o r) s = .next counted) ∧
        (∀ c p items, bad ∨ claimWf c p items = false → exec (.claim src c p items) s = .next counted) ∧
        (∀ segs, bad ∨ releaseWf segs = false → exec (.release src segs) s = .next counted)) ∧
      (s.tli.kind = .points →
        (∀ o r, bad ∨ addrOk o = false → exec (.pointsHalt src o r) s = .next counted) ∧
        (∀ c p items, bad ∨ claimWf c p items = false → exec (.pointsNodeClaim src c p items) s = .next counted) ∧
        (∀ segs, bad ∨ releaseWf segs = false → exec (.pointsNodeRelease src segs) s = .next counted)) ∧
      (∀ bits,
        (frameCheck s.tli.addr s.tli.kind bits = none → exec (.frameCheckFailed bits) s = .next counted) ∧
        ((frameCheck s.tli.addr s.tli.kind bits).isSome = true → exec (.frameCheckFailed bits) s = .next s))) ∧
  (∀ (src target : Addr) (s : State),
      (∀ c, s.tli.clash = true → ackDriven c s = false) ∧
      ackDriven (.requestToOtherStation src target) s = false ∧ ackDriven (.replyHeard src target) s = false ∧
      (s.tli.clash = false → fromOther src s = true →
        (∀ o r, ackDriven (.halt src o r) s = addrOk o ∧ ackDriven (.pointsHalt src o r) s = addrOk o) ∧
        (∀ token, ackDriven (.resumeA src token) s = decide (token ≤ 65535) ∧
          ackDriven (.resumeB src token) s = decide (token ≤ 65535)) ∧
        (∀ h, ackDriven (.clearStale src true h) s = decide (h ≤ 63)) ∧
        (∀ c p items, ackDriven (.claim src c p items) s = claimWf c p items ∧
          ackDriven (.pointsNodeClaim src c p items) s = claimWf c p items) ∧
        (∀ segs, ackDriven (.release src segs) s = releaseWf segs ∧
          ackDriven (.pointsNodeRelease src segs) s = releaseWf segs) ∧
        (∀ g st, ackDriven (.object src target g st) s = (addrOk target && segOk g)) ∧
        (∀ n, ackDriven (.points src n) s = PointsNotice.wf n) ∧
        (∀ n, ackDriven (.position src n) s = PositionNotice.wf n) ∧
        (∀ req, req.wf = true → fits s.tli.kind req = true → s.tli.addr ≠ 0 →
          (ackDriven (.inboundRequestTaken src req) s = true ↔
            ∃ t, exec (.inboundRequestTaken src req) s = .next t ∧ t.tli.inbound = s.tli.inbound ++ [⟨src, req⟩]))))

/-- The lower class wins arbitration, and between equal classes the lower sender address: a sender loses its 9
arbitration bits exactly then. As the line falls idle the station begins to send the first frame in queue order, the
lowest class and within it the oldest (R189), but for the REPORT that must be the first frame after an address clash,
which while it waits goes before all others (R198; assumption 56); with nothing to send, or with the clash flag set
(R183), the line stands idle, and a frame that then waits makes an event due (R181). While a frame is being sent the
line is not idle (assumption 15). A sender that loses arbitration, or stops at a bit error, keeps its frame at its place
in the queue, no longer being sent; a dominant bit read recessive counts a malformed frame (R182, R183). A POSITION or
periodic POINTS notice kept meanwhile then takes the frame's place (R190), a frame withdrawn meanwhile leaves the queue,
and a CLAIM loses the entries released meanwhile, or with none left leaves too (assumptions 18, 53); the places so
opened are filled from the offer line (R190; assumption 16), and a refresh that ends so restarts its countdown
(R68). -/
def Obligations.SendingRuns : Prop :=
  (∀ c₁ c₂ a₁ a₂ : Nat, c₁ ≤ 7 → c₂ ≤ 7 → a₁ ≤ 63 → a₂ ≤ 63 →
      (arbLoses (arbBits c₁ a₁) (arbBits c₂ a₂) = true ↔ c₂ < c₁ ∨ (c₂ = c₁ ∧ a₂ < a₁))) ∧
  (∀ s : State,
      ((∃ e ∈ s.tli.txq, e.sending = true) → exec .lineIdle s = .next s) ∧
      ((∀ e ∈ s.tli.txq, e.sending = false) → s.tli.clash = true ∨ s.tli.txq = [] →
        exec .lineIdle s = .next (s.setTli { s.tli with idle := true })) ∧
      (s.tli.clash = false → (∀ e ∈ s.tli.txq, e.sending = false) → s.tli.txq ≠ [] →
        (s.tli.idle = true → ∃ c, dueEvent s = some c) ∧
        ∃ (i : Nat) (e : TxEntry), s.tli.txq[i]? = some e ∧
          (∀ (j : Nat) (f : TxEntry), s.tli.txq[j]? = some f →
            (e.tag = .first ∧ (f.tag = .first → i ≤ j)) ∨
            (e.tag ≠ .first ∧ f.tag ≠ .first ∧
              (frameClass e.frame < frameClass f.frame ∨ (frameClass e.frame = frameClass f.frame ∧ i ≤ j)))) ∧
          exec .lineIdle s = .next (s.setTli
            { s.tli with idle := false, txq := s.tli.txq.set i { e with sending := true } }))) ∧
  (∀ (e : TxEntry) (cls : Nat) (src : Addr) (s : State) (ls : List (List TxEntry)) (u : Tli),
      sendingEntry s.tli = some e → List.Forall₂ (waitsAs s.tli) s.tli.txq ls →
      Refilled { s.tli with
        txq := ls.flatten,
        keptPosition := if ∃ k ∈ s.tli.txq, k.sending = true ∧ isPosition k = true then none else s.tli.keptPosition,
        keptPoints := if ∃ k ∈ s.tli.txq, k.sending = true ∧ isPeriodicPoints k = true then none
                      else s.tli.keptPoints } u →
      let stopped := (s.setTli u).setCe (refreshSettled u.txq s.ce)
      (arbLoses (arbBits (frameClass e.frame) s.tli.addr) (arbBits cls src) = true →
        exec (.arbitrationLost cls src) s = .next stopped) ∧
      (arbLoses (arbBits (frameClass e.frame) s.tli.addr) (arbBits cls src) = false →
        exec (.arbitrationLost cls src) s = .next s) ∧
      exec (.bitError false) s = .next stopped ∧
      exec (.bitError true) s = .next (stopped.setTli { u with
        idle := false, counters := { s.tli.counters with malformed := min (s.tli.counters.malformed + 1) 65535 } }))

/-- A frame whose ack slot has passed leaves the queue, counted when it is unacknowledged (R186); the places that open
are filled from the offer line (R190; assumption 16), and then a POSITION or periodic POINTS notice that was kept
while its like was being sent is offered: it joins the queue, or at 10 frames is discarded and counted (R190; assumption
16). A refresh whose last frame so leaves, or is no longer waiting, restarts the refresh countdown (R68). An
announcement so departing starts the span's window, and for a span with a points leg its points wait; an acknowledged
POINTS-ASK is noted with the span, and one not acknowledged aborts it POINTS_NO_ACK (R186, R47, R51). A frame of an
aborted span that was being sent at the abort counts as sent: an announcement's segments are released, and an
acknowledged ask is freed (R57; assumption 17). -/
def Obligations.FrameDeparts : Prop :=
  ∀ (e : TxEntry) (ack : Bool) (s : State) (u : Tli), sendingEntry s.tli = some e →
    Refilled { s.tli with
      txq := s.tli.txq.filter (fun k => !k.sending),
      keptPosition := if isPosition e then none else s.tli.keptPosition,
      keptPoints := if isPeriodicPoints e then none else s.tli.keptPoints,
      counters := { s.tli.counters with
        unacked := if ack then s.tli.counters.unacked else min (s.tli.counters.unacked + 1) 65535 } } u →
    let settled (v : Tli) : State := (s.setTli v).setCe (refreshSettled v.txq s.ce)
    let notice (f : Frame) (b : Block) : TxEntry :=
      { frame := f, block := b, periodic := true, tag := .plain, sending := false, cut := [], withdrawn := false }
    let displaced : Tli := { u with counters := { u.counters with displaced := min (u.counters.displaced + 1) 65535 } }
    let departs (gone : State) : Prop :=
      ((e.tag = .plain ∨ e.tag = .refresh ∨ e.tag = .first ∨ (e.withdrawn = false ∧ s.ce.span = none)) →
        exec (.frameDeparture ack) s = .next gone) ∧
      (∀ sp, e.withdrawn = false → s.ce.span = some sp →
        (e.tag = .announcement → exec (.frameDeparture ack) s = .next (gone.setCe { gone.ce with
          span := some { sp with announced := true, window := some 0,
                                 pointsWait := if s.ce.own.any (fun o => inSpan sp o && o.points.isSome) then some 0
                                               else none } })) ∧
        (∀ node g, e.tag = .ask node g →
          exec (.frameDeparture ack) s = .next (if ack then gone.setCe { gone.ce with
              span := some { sp with acked := sp.acked ++ [node] } }
            else spanAbort .pointsNoAck g node gone))) ∧
      (e.withdrawn = true →
        (∀ cls period items, e.tag = .announcement → e.frame = .claim cls period items →
          ∃ t, exec (.frameDeparture ack) s = .next t ∧ lineOnly gone t ∧
            (s.tli.clash = false → ∀ i ∈ items, ∃ ids, i.seg ∈ ids ∧ queued (.release ids) t)) ∧
        (∀ node g, e.tag = .ask node g → ∃ t, exec (.frameDeparture ack) s = .next t ∧ lineOnly gone t ∧
          (ack = false → t = gone) ∧ (ack = true → s.tli.clash = false → queued (.pointsFree node) t)))
    ((isPosition e = true → s.tli.keptPosition = none) → (isPeriodicPoints e = true → s.tli.keptPoints = none) →
      departs (settled u)) ∧
    (∀ n, isPosition e = true → s.tli.keptPosition = some n →
      departs (settled (offerTli (notice (.position n) .pu) u)) ∧
      (s.tli.clash = false → (∀ k ∈ u.txq, isPosition k = false) →
        (u.txq.length < 10 → offerTli (notice (.position n) .pu) u = { u with txq := u.txq ++ [notice (.position n) .pu] }) ∧
        (10 ≤ u.txq.length → offerTli (notice (.position n) .pu) u = displaced))) ∧
    (∀ n, isPeriodicPoints e = true → s.tli.keptPoints = some n →
      departs (settled (offerTli (notice (.points n) .pa) u)) ∧
      (s.tli.clash = false → (∀ k ∈ u.txq, isPeriodicPoints k = false) →
        (u.txq.length < 10 → offerTli (notice (.points n) .pa) u = { u with txq := u.txq ++ [notice (.points n) .pa] }) ∧
        (10 ≤ u.txq.length → offerTli (notice (.points n) .pa) u = displaced)))

/-- At 3,000 ms without a valid frame the silence flag is set, a running listen-in stops, and on a carriage node a span in
flight aborts LINE_SILENT (R191, R37, R84, R50). That a silence already reported changes nothing is the model's reading of a
stopped timer (assumption 4). -/
def Obligations.SilenceReported : Prop :=
  ∀ s : State,
    (s.tli.silent = true → exec .lineSilence s = .next s) ∧
    (s.tli.silent = false →
      let s1 := s.setTli { s.tli with silence := 3000, silent := true }
      (s.tli.kind = .carriage →
        (s.ce.span = none → exec .lineSilence s = .next (s1.setOv { s.ov with listen := none })) ∧
        (∀ sp, s.ce.span = some sp → ∃ t, exec .lineSilence s = .next t ∧ t.ce.span = none ∧ t.ov.listen = none ∧
          t.tli.silent = true ∧ t.ce.abort.map AbortRec.reason = some .lineSilent ∧
          (headWithin (outsideSpan s) s → t.ce.attempts = s.ce.attempts ∧ t.ce.own = outsideSpan s ∧ t.cs = s.cs))) ∧
      (s.tli.kind = .points → exec .lineSilence s = .next (s1.setSv { s.sv with listen := none })))

/-! ## Requests of the Order Store -/

/-- The structural tests of an ORDER in their order, with the sub-code and leg index of the first that fails, and the two
adjustments of an order that passes (R4, R5); that a pad naming no leg is refused PAD_PLACEMENT with the index it names is
the model's choice (assumption 47). An ORDER delivered that does not start at once: the structural refusal comes first,
whatever the state or the slots; then REFUSED STATE, storage in PENDING, REFUSED STORE_FULL, or storage in ACTIVE as WAITING
under the halt latch (R7), its progress record as assumption 48 has it. A points node answers WRONG_KIND (R188). -/
def Obligations.OrderTested : Prop :=
  (∀ (c : CommRec) (o : OrderRec),
      ((o.legs.length = 0 ∨ 16 < o.legs.length) → structuralTest c o = some (.legCount, 0)) ∧
      (1 ≤ o.legs.length → o.legs.length ≤ 16 →
        (∀ (j : Nat) (l : Leg), o.legs[j]? = some l → l.seg ∈ (o.legs.take j).map Leg.seg →
          ((o.legs.take j).map Leg.seg).Nodup → structuralTest c o = some (.duplicateSegment, j + 1)) ∧
        ((o.legs.map Leg.seg).Nodup →
          (∀ (j : Nat) (l : Leg), o.legs[j]? = some l →
            (l.len < 2000 ∨ 600000 < l.len ∨ l.len < c.length + 2 * c.tol) →
            (∀ m ∈ o.legs.take j, 2000 ≤ m.len ∧ m.len ≤ 600000 ∧ c.length + 2 * c.tol ≤ m.len) →
            structuralTest c o = some (.legLength, j + 1)) ∧
          ((∀ m ∈ o.legs, 2000 ≤ m.len ∧ m.len ≤ 600000 ∧ c.length + 2 * c.tol ≤ m.len) →
            (∀ (j : Nat) (l : Leg), o.legs[j]? = some l → l.limit = 0 → (∀ m ∈ o.legs.take j, m.limit ≠ 0) →
              structuralTest c o = some (.speedZero, j + 1)) ∧
            ((∀ m ∈ o.legs, m.limit ≠ 0) →
              (o.pad = none → structuralTest c o = none) ∧
              (∀ p, o.pad = some p →
                (p.leg ≠ o.legs.length → structuralTest c o = some (.padPlacement, p.leg)) ∧
                (∀ l, p.leg = o.legs.length → o.legs.getLast? = some l →
                  structuralTest c o =
                    if p.offset + c.margin > l.len then some (.padPlacement, p.leg) else none)))))) ∧
      (storedOrder c o).legs.length = o.legs.length ∧
      (∀ (k : Nat) (l : Leg), o.legs[k]? = some l →
        (storedOrder c o).legs[k]? =
          some { l with limit := min l.limit c.ceiling, convoy := l.convoy && l.points.isNone })) ∧
  (∀ (src : Addr) (o : OrderRec) (s : State), atFront src (.order o) s = true →
      let refuse (r : RefuseReason) := report .os .order (.refused r) o.id (taken s)
      (s.tli.kind = .points → exec (.order src o) s = .next (report .tli .order (.refused .wrongKind) 0 (taken s))) ∧
      (s.tli.kind = .carriage →
        (∀ sub i, structuralTest (cfg s) o = some (sub, i) → exec (.order src o) s = .next (refuse (.badOrder sub i))) ∧
        (structuralTest (cfg s) o = none →
          (s.cs.state = .uncommissioned ∨ s.cs.state = .unlocated ∨ s.cs.state = .fault →
            exec (.order src o) s = .next (refuse .state)) ∧
          (s.cs.state = .running ∨ s.cs.state = .stopping ∨ s.cs.state = .halted ∨ s.cs.state = .undocking ∨
              s.cs.state = .docking ∨ ((s.cs.state = .ready ∨ s.cs.state = .parked) ∧ s.os.active.isSome = true) →
            (s.os.pending = none → exec (.order src o) s = .next (report .os .order .accepted o.id
              ((taken s).setOs { s.os with pending := some (storedOrder (cfg s) o) }))) ∧
            (s.os.pending.isSome = true → exec (.order src o) s = .next (refuse .storeFull))) ∧
          ((s.cs.state = .ready ∨ s.cs.state = .parked) → s.os.active = none → s.cs.latch.isSome = true →
            exec (.order src o) s = .next (report .os .order .accepted o.id
              ((taken s).setOs
                { s.os with active := some ⟨storedOrder (cfg s) o, .waiting, 1, .leg 1, 2, none⟩ }))))))

/-- An ORDER taken with both slots empty and the latch clear starts at once: where the first-leg test passes, and no
fault stands in the way, its progress record, route coordinate and rear segment are set and the carriage enters
RUNNING, or UNDOCKING from PARKED; where it fails the order is refused FIRST_LEG and both slots stay empty (R7, R8).
The own claims are tied to it, the rear segment's before leg 1's, a CLAIM says what the tying changed, and the firm
end is the end of leg 1 (R76, R66). The order of the tied list is assumption 24; that the tail leg and the claims of a
start whose tail is already past its boundary stay so until the next batch is assumption 64. -/
def Obligations.OrderStarts : Prop :=
  ∀ (src : Addr) (o : OrderRec) (s : State), atFront src (.order o) s = true → s.tli.kind = .carriage →
    structuralTest (cfg s) o = none → s.cs.state = .ready ∨ s.cs.state = .parked → s.os.active = none →
    s.os.pending = none → s.cs.latch = none →
    let st := storedOrder (cfg s) o
    (firstLegOk st s = false →
      exec (.order src o) s = .next (report .os .order (.refused (.badOrder .firstLeg 0)) o.id (taken s))) ∧
    (∀ (head tail : EndRec) (l : Leg), startsClean st s → endRec s o.lead = some head →
      endRec s (otherEnd o.lead) = some tail → st.legs.head? = some l →
      let x := travelOf l (min head.off l.len)
      let rear : Option Rear := if tail.seg = l.seg then none else
        some { seg := tail.seg, dir := turn o.lead tail.aSense,
               limit := ((s.os.memory.find? (fun m => decide (m.1 = tail.seg))).map Prod.snd).getD (cfg s).ceiling }
      let tied (e : OwnClaim) : OwnClaim :=
        if e.seg = l.seg then
          { e with leg := .leg 1, dir := l.dir, convoy := l.convoy,
                   points := match e.points with
                     | some p => some p
                     | none => l.points.map (fun p => ⟨p.node, p.pos, .freed⟩) }
        else { e with leg := .rear, dir := turn o.lead tail.aSense, convoy := false }
      let own := (s.ce.own.filter (fun e => decide (e.seg ≠ l.seg)) ++
        s.ce.own.filter (fun e => decide (e.seg = l.seg))).map tied
      ∃ t, exec (.order src o) s = .next t ∧
        t.os.active = some { ord := st, phase := .underway, headLeg := 1,
                             tailLeg := if tail.seg = l.seg then .leg 1 else .rear, nextClaim := 2, rear := rear } ∧
        t.os.pending = none ∧
        t.pu.route.map (fun r => (r.x, r.trim, r.rearOff, r.tail0)) =
          some ((x : Int), 0, tail.off, (x : Int) - (cfg s).length) ∧
        t.pu.noticeHead = some o.lead ∧ t.pu.padRead = none ∧ t.ce.attempts = 0 ∧ t.ce.spanLimit = 4 ∧
        t.ce.backoff = none ∧ t.ce.failedHold = none ∧ t.ce.exempt = true ∧ t.ce.firmEnd = some l.len ∧
        (s.cs.state = .ready → t.cs.state = .running ∧ t.ds = s.ds ∧ t.ce.own = own) ∧
        (s.cs.state = .parked → s.ds.pos ≠ .up →
          t.cs.state = .undocking ∧ t.ds.cmd = .raise ∧ t.ds.undockTimer = some 0 ∧
          t.ce.own = own.map (fun e => if e.st = .standing then { e with st := .firm } else e)) ∧
        t.tli.inbound = s.tli.inbound.tail ∧ t.ov = s.ov ∧ t.cs.latch = none ∧ t.cs.fault = s.cs.fault ∧
        (s.tli.clash = false →
          ((∃ e ∈ s.ce.own, e.dir ≠ (tied e).dir ∨ e.convoy ≠ (tied e).convoy) →
            queued (.claim o.cls (cfg s).refresh (own.map itemOf)) t) ∧
          (∀ c, s.cs.console = some c → queued (.report c { subject := .order, outcome := .accepted, oid := o.id }) t)))

/-- A STOP accepted in RUNNING or HALTED, the carriage moving, enters STOPPING with its condition, and taken at rest ends
the order at once, STOPPED, or FAILED ROUTE_BLOCKED one in ENDING (R138); in STOPPING the stricter condition is held.
NEXT_BOUNDARY, newly held, sets the stop target from the head and the demand at that moment: the first reachable end of a
leg less M that lies short of the authority end, from the head leg on, and otherwise the authority end (R130). IMMEDIATE
sets none, and clears it where it is newly held in STOPPING; AUTHORITY_END sets none; a STOP no stricter than the held
condition leaves the condition and the target as they are (R15, R130). Every accepted STOP queues its REPORT ACCEPTED, with
the active order's id, and then those of the orders that leave, CANCELLED, the active one's before the pending one's, and
that of the order ended at rest last (R15, R20). In UNDOCKING the order is marked; a WAITING order is cancelled; each
cancels the pending order, and a span in flight aborts STOPPED. Elsewhere it is REFUSED STATE and nothing changes (R15,
R50). A points node answers WRONG_KIND. -/
def Obligations.StopTaken : Prop :=
  ∀ (src : Addr) (c : StopCond) (s : State), atFront src (.stop c) s = true →
    let dropped : List (ReportOutcome × Nat) := (s.os.pending.map (fun p => (ReportOutcome.cancelled, p.id))).toList
    let reported (left : List (ReportOutcome × Nat)) (t : State) : Prop :=
      s.tli.clash = false → ∀ d, s.cs.console = some d → waiting .os t.tli = waiting .os s.tli ++
        .report d { subject := .stop, outcome := .accepted, oid := (s.os.active.map (fun a => a.ord.id)).getD 0 } ::
          left.map (fun o => .report d { subject := .orderEnd, outcome := o.1, oid := o.2 })
    (s.tli.kind = .points → exec (.stop src c) s = .next (report .tli .stop (.refused .wrongKind) 0 (taken s))) ∧
    (s.tli.kind = .carriage →
      (s.cs.state = .running ∨ s.cs.state = .halted → (s.ce.span = none ∨ headWithin (outsideSpan s) s) →
        (s.cs.stopCond = none → (s.eu.demand ≠ 0 ∨ s.pu.standstill = false) →
          ∃ t, exec (.stop src c) s = .next t ∧ t.cs.state = .stopping ∧ t.cs.stopCond = some c ∧ t.os.pending = none ∧
            t.ce.span = none ∧ t.eu.demand = s.eu.demand ∧ t.ov = s.ov ∧ t.cs.latch = s.cs.latch ∧
            (s.ce.span.isSome = true → t.ce.abort.map AbortRec.reason = some .stopped ∧ t.ce.own = outsideSpan s) ∧
            (s.ce.span = none → t.os.active = s.os.active ∧ t.ce.own = s.ce.own ∧ t.ce.firmEnd = s.ce.firmEnd) ∧
            (c = .immediate → t.eu.stopTarget = none) ∧ (c = .authorityEnd → t.eu.stopTarget = s.eu.stopTarget) ∧
            (∀ a r f, c = .nextBoundary → s.os.active = some a → s.pu.route = some r → t.ce.firmEnd = some f →
              ∃ target, t.eu.stopTarget = some target ∧ isStopTarget a.ord.legs a.headLeg (cfg s).margin (cfg s).decel
                s.eu.demand r.x f target) ∧
            reported dropped t ∧
            (s.tli.clash = false → ∀ d p, s.cs.console = some d → s.os.pending = some p →
              queued (.report d { subject := .orderEnd, outcome := .cancelled, oid := p.id }) t)) ∧
        (∀ a, s.eu.demand = 0 → s.pu.standstill = true → s.os.active = some a → a.phase ≠ .waiting →
          ∃ t, exec (.stop src c) s = .next t ∧ t.cs.state = .ready ∧ t.os.active = none ∧ t.os.pending = none ∧
            t.ce.span = none ∧ t.eu.brake = .service ∧ t.eu.stopTarget = none ∧
            reported (dropped ++ [(if a.phase = .ending then .failed .routeBlocked else .stopped, a.ord.id)]) t)) ∧
      (∀ h, s.cs.state = .stopping → s.cs.stopCond = some h →
        ∃ t, exec (.stop src c) s = .next t ∧ t.cs = { s.cs with stopCond := some (stricter h c) } ∧
          t.os = { s.os with pending := none } ∧ t.ce.own = s.ce.own ∧ t.eu.demand = s.eu.demand ∧ reported dropped t ∧
          (h = .immediate ∨ c = .authorityEnd ∨ h = c → t.cs = s.cs ∧ t.eu = s.eu) ∧
          (h ≠ .immediate → c = .immediate → t.cs.stopCond = some .immediate ∧ t.eu = { s.eu with stopTarget := none }) ∧
          (∀ a r f, h = .authorityEnd → c = .nextBoundary → s.os.active = some a → s.pu.route = some r →
            s.ce.firmEnd = some f → t.cs.stopCond = some .nextBoundary ∧
              ∃ target, t.eu = { s.eu with stopTarget := some target } ∧
                isStopTarget a.ord.legs a.headLeg (cfg s).margin (cfg s).decel s.eu.demand r.x f target)) ∧
      (s.cs.state = .undocking →
        ∃ t, exec (.stop src c) s = .next t ∧ t.os = { s.os with pending := none, stopMark := true } ∧ t.cs = s.cs ∧
          t.ds = s.ds ∧ t.ce.own = s.ce.own ∧ reported dropped t) ∧
      (∀ a, (s.cs.state = .ready ∨ s.cs.state = .parked) → s.os.active = some a →
        ∃ t, exec (.stop src c) s = .next t ∧ t.os = { s.os with active := none, pending := none } ∧ t.cs = s.cs ∧
          t.ce.own = s.ce.own ∧ reported ((.cancelled, a.ord.id) :: dropped) t) ∧
      ((s.cs.state = .docking ∨ s.cs.state = .uncommissioned ∨ s.cs.state = .unlocated ∨ s.cs.state = .fault ∨
          ((s.cs.state = .ready ∨ s.cs.state = .parked) ∧ s.os.active = none)) →
        exec (.stop src c) s = .next (report .os .stop (.refused .state)
          ((s.os.active.map (fun a => a.ord.id)).getD 0) (taken s))))

/-- DROP removes the pending order with one REPORT of DROP CANCELLED and the order's id, and with no pending order is
REFUSED STATE, in every state; the ACTIVE slot and the carriage state are not touched (R17). A points node, which takes no
DROP, answers WRONG_KIND and does nothing else (R188). -/
def Obligations.DropTaken : Prop :=
  ∀ (src : Addr) (s : State), atFront src .drop s = true →
    (s.tli.kind = .points → exec (.drop src) s = .next (report .tli .drop (.refused .wrongKind) 0 (taken s))) ∧
    (∀ p, s.tli.kind = .carriage → s.os.pending = some p → ∃ t, exec (.drop src) s = .next t ∧
      t = report .os .drop .cancelled p.id ((taken s).setOs { s.os with pending := none }) ∧
      t.os.pending = none ∧ t.os.active = s.os.active ∧ t.cs.state = s.cs.state) ∧
    (s.tli.kind = .carriage → s.os.pending = none → ∃ t, exec (.drop src) s = .next t ∧
      t = report .os .drop (.refused .state) 0 (taken s) ∧ t.os = s.os ∧ t.cs.state = s.cs.state)

/-! ## Requests of the Carriage Supervisor and the Points Arbiter -/

/-- A location is refused BAD_LOCATION in the cases of R117 and R196, tested on the record as it came and with a tail
at the joint taken as on the head segment, and no other; the end records an accepted one gives are those of R118.
LOCATE makes its tests in order; accepted it clears the occupied-leg memory and holds the location, and takes it at
once when neither listen-in nor line silence is presented and no live firm claim of the view stands on its segments:
the end records, one own claim per occupied segment, from the tail on and in the head's direction, and READY, or
PARKED on a pad (R118, R75). -/
def Obligations.LocateTaken : Prop :=
  (∀ (c : CommRec) (jacks : JackPos) (e : End) (dir : Dir) (id : Nat) (g h : Seg) (u v jh jt : Mm),
      let apart (n : Int) : Prop := (c.tol : Int) < (n - c.length).natAbs
      let behind (a b : Mm) : Prop := (dir = .up ∧ a ≤ b) ∨ (dir = .down ∧ b ≤ a)
      let outside (k : Seg) : Prop := k = 0 ∨ 1023 < k
      badLocation c jacks .none = false ∧
      (badLocation c jacks (.pad id g u dir e) = true ↔
        outside g ∨ id = 0 ∨ jacks = .up ∨ (dir = .up ∧ u < c.length)) ∧
      (badLocation c jacks (.track e g u dir g v none) = true ↔
        outside g ∨ jacks ≠ .up ∨ behind u v ∨ apart ((u : Int) - v).natAbs) ∧
      (g ≠ h →
        (badLocation c jacks (.track e g u dir h v none) = true) ∧
        (v ≠ jt → (badLocation c jacks (.track e g u dir h v (some (jh, jt))) = true ↔
          outside g ∨ outside h ∨ jacks ≠ .up ∨ behind u jh ∨
            apart (((u : Int) - jh).natAbs + ((jt : Int) - v).natAbs))) ∧
        badLocation c jacks (.track e g u dir h jt (some (jh, jt))) =
          (!segOk h || badLocation c jacks (.track e g u dir g jh none)))) ∧
  (∀ (c : CommRec) (e : End) (dir : Dir) (id : Nat) (g h : Seg) (u v jh jt : Mm),
      let ends (l : LocRec) := (heldOf c l).map (fun k => (k.pad, k.headEnd, match e with
        | .a => (k.a, k.b)
        | .b => (k.b, k.a)))
      let a (d : Dir) : Dir := match e with
        | .a => d
        | .b => flip d
      heldOf c .none = none ∧
      ends (.pad id g u dir e) = some (true, e, ⟨g, u, a dir⟩,
        ⟨g, if dir = .up then u - c.length else u + c.length, a dir⟩) ∧
      ends (.track e g u dir g v none) = some (false, e, ⟨g, u, a dir⟩, ⟨g, v, a dir⟩) ∧
      (g ≠ h → v ≠ jt → ends (.track e g u dir h v (some (jh, jt))) =
        some (false, e, ⟨g, u, a dir⟩, ⟨h, v, a (if v < jt then .up else .down)⟩)) ∧
      (g ≠ h → ends (.track e g u dir h jt (some (jh, jt))) = some (false, e, ⟨g, u, a dir⟩, ⟨g, jh, a dir⟩))) ∧
  (∀ (src : Addr) (l : LocRec) (s : State), atFront src (.locate l) s = true →
    let refuse (r : RefuseReason) := report .cs .locate (.refused r) 0 (taken s)
    (s.tli.kind = .points → exec (.locate src l) s = .next (report .tli .locate (.refused .wrongKind) 0 (taken s))) ∧
    (s.tli.kind = .carriage →
      (s.cs.state ≠ .unlocated → exec (.locate src l) s = .next (refuse .state)) ∧
      (s.cs.state = .unlocated → s.pu.standstill = false → exec (.locate src l) s = .next (refuse .notStandstill)) ∧
      (s.cs.state = .unlocated → s.pu.standstill = true → badLocation (cfg s) s.ds.pos l = true →
        exec (.locate src l) s = .next (refuse .badLocation)) ∧
      (s.cs.state = .unlocated → s.pu.standstill = true → badLocation (cfg s) s.ds.pos l = false →
        (s.ov.listen.isSome = true ∨ s.tli.silent = true ∨ heldOf (cfg s) l = none →
          exec (.locate src l) s = .next (((report .cs .locate .accepted 0 (taken s)).setPu
            { s.pu with held := heldOf (cfg s) l }).setOs { s.os with memory := [] })) ∧
        (∀ h, s.ov.listen = none → s.tli.silent = false → heldOf (cfg s) l = some h →
          s.cs.eStop = false → s.cs.driveFault = false →
          (∀ e ∈ s.ov.claims, e.stale = true ∨ firmState e.st = false ∨ (e.seg ≠ h.a.seg ∧ e.seg ≠ h.b.seg)) →
          let head := match h.headEnd with
            | .a => h.a
            | .b => h.b
          let tail := match h.headEnd with
            | .a => h.b
            | .b => h.a
          ∃ t, exec (.locate src l) s = .next t ∧ t.cs.state = (if h.pad then .parked else .ready) ∧
            t.pu.known = true ∧ t.pu.endA = some h.a ∧ t.pu.endB = some h.b ∧ t.pu.held = none ∧
            t.pu.noticeHead = some h.headEnd ∧ t.pu.stillDist = 0 ∧ t.ce.own = locatedClaims h ∧ t.os.memory = [] ∧
            t.eu.brake = .service ∧ t.eu.demand = 0 ∧ t.ov = s.ov ∧ t.cs.latch = s.cs.latch ∧
            t.ce.own.map (fun e => (e.seg, e.dir)) =
              (if tail.seg = head.seg then [] else [(tail.seg, turn h.headEnd tail.aSense)]) ++
                [(head.seg, turn h.headEnd head.aSense)] ∧
            (∀ e ∈ t.ce.own, e.st = (if h.pad then .standing else .firm) ∧ e.convoy = false ∧ e.points = none ∧
              e.leg = .none)))))

/-- COMMISSION is taken once: in UNCOMMISSIONED a record whose location is good is kept as clamped, its sender becomes the
console, the carriage enters UNLOCATED with the location held, and the refresh countdown starts; a location that can be
taken at once is (R166, R118); a bad location refuses the whole with a REPORT to the sender, and in any other state it is
REFUSED STATE. Every field of a carriage COMMISSION goes to its nearer bound, and one within its range is kept, the gust
ceiling judged against the clamped ceiling and the hold against the clamped standoff; the resume goes, against the clamped
hold, to that hold plus 2,000, or to 100,000 (R195). -/
def Obligations.CommissionTaken : Prop :=
  (∀ (src : Addr) (r : CommRec) (l : LocRec) (s : State), atFront src (.commission r l) s = true →
      s.tli.kind = .carriage →
      (s.cs.state ≠ .uncommissioned →
        exec (.commission src r l) s = .next (report .cs .commission (.refused .state) 0 (taken s))) ∧
      (s.cs.state = .uncommissioned → badLocation (clampComm r) s.ds.pos l = true →
        exec (.commission src r l) s = .next (offer .cs false .plain
          (.report src { subject := .commission, outcome := .refused .badLocation, oid := 0 }) (taken s))) ∧
      (s.cs.state = .uncommissioned → badLocation (clampComm r) s.ds.pos l = false →
        let reported (t : State) : Prop := s.tli.clash = false → queued (.report src
          { subject := .commission, oid := 0,
            outcome := if clampComm r = r then .accepted else .clamped (commMarks r) }) t
        ((s.ov.listen.isSome = true ∨ s.tli.silent = true ∨ heldOf (clampComm r) l = none) →
          ∃ t, exec (.commission src r l) s = .next t ∧ t.cs.comm = some (clampComm r) ∧ t.cs.console = some src ∧
            t.cs.state = .unlocated ∧ t.pu.held = heldOf (clampComm r) l ∧ t.pu.known = s.pu.known ∧
            t.ce.refresh = some 0 ∧ t.eu.demand = 0 ∧ t.eu.brake = .emergency ∧ t.os = s.os ∧ t.ov = s.ov ∧
            t.cs.latch = s.cs.latch ∧ reported t) ∧
        (∀ h, s.ov.listen = none → s.tli.silent = false → heldOf (clampComm r) l = some h →
          s.cs.eStop = false → s.cs.driveFault = false →
          (∀ e ∈ s.ov.claims, e.stale = true ∨ firmState e.st = false ∨ (e.seg ≠ h.a.seg ∧ e.seg ≠ h.b.seg)) →
          ∃ t, exec (.commission src r l) s = .next t ∧ t.cs.comm = some (clampComm r) ∧ t.cs.console = some src ∧
            t.cs.state = (if h.pad then .parked else .ready) ∧ t.pu.known = true ∧ t.pu.endA = some h.a ∧
            t.pu.endB = some h.b ∧ t.pu.held = none ∧ t.ce.own = locatedClaims h ∧ t.eu.brake = .service ∧
            t.cs.latch = s.cs.latch ∧ reported t))) ∧
  (∀ r : CommRec, let c := clampComm r
      let near (lo hi v : Nat) : Nat := if v < lo then lo else if hi < v then hi else v
      (c.length = near 4000 40000 r.length ∧ c.decel = near 50 800 r.decel ∧ c.accel = near 0 3 r.accel ∧
        c.ceiling = near 100 3000 r.ceiling ∧ c.gust = near 50 c.ceiling r.gust ∧ c.margin = near 500 5000 r.margin ∧
        c.tol = near 50 1000 r.tol ∧ c.dockTol = near 5 50 r.dockTol ∧ c.scale = near 1 65535 r.scale ∧
        c.refresh = near 200 1000 r.refresh ∧
        c.posPeriod = (if r.posPeriod = 0 then 0 else near 100 4095 r.posPeriod) ∧
        c.standoff = near 5000 50000 r.standoff ∧ c.hold = near c.standoff 98000 r.hold ∧
        c.resume = (if r.resume ≤ c.hold then min (c.hold + 2000) 100000
                    else if 100000 < r.resume then 100000 else r.resume) ∧
        c.dockSec = near 5 60 r.dockSec ∧ c.undockSec = near 5 60 r.undockSec) ∧
      (50 ≤ c.gust ∧ c.gust ≤ c.ceiling ∧ c.standoff ≤ c.hold ∧ c.hold < c.resume ∧ c.resume ≤ 100000) ∧
      clampComm c = c)

/-- CLEAR-FAULT on a carriage node makes its tests in order. Accepted, the fault record clears and the jacks stop: with the
positional mark the carriage is UNLOCATED, its claims and position gone; otherwise it is READY with the jacks up, a clash
entry that is not occupied released, and PARKED elsewhere, the same entry released, the entry under the head STANDING, and a
CLAIM carrying it queued, unless it stood so already (R176, R78, R71). -/
def Obligations.ClearFaultTaken : Prop :=
  ∀ (src : Addr) (s : State), atFront src .clearFault s = true → s.tli.kind = .carriage →
    let refuse (r : RefuseReason) := report .cs .clearFault (.refused r) 0 (taken s)
    let kept := s.ce.own.filter (fun e => !(decide (e.seg ∈ s.ce.clashMem.map Prod.snd) && decide (e.seg ∉ occupied s)))
    let head := (headPos s).1
    let standing (e : OwnClaim) : OwnClaim := if e.seg = head then { e with st := .standing } else e
    (s.cs.fault = none ∨ s.cs.state ≠ .fault ∨ s.tli.clash = true → exec (.clearFault src) s = .next (refuse .state)) ∧
    (∀ f, s.cs.fault = some f → s.cs.state = .fault → s.tli.clash = false →
      (s.pu.standstill = false → exec (.clearFault src) s = .next (refuse .notStandstill)) ∧
      (s.pu.standstill = true → (s.cs.eStop = true ∨ s.cs.driveFault = true) →
        exec (.clearFault src) s = .next (refuse .stillPresent)) ∧
      (s.pu.standstill = true → s.cs.eStop = false → s.cs.driveFault = false →
        ∃ t, exec (.clearFault src) s = .next t ∧ t.cs.fault = none ∧ t.cs.latch = s.cs.latch ∧ t.ds.cmd = .off ∧
          t.ds.dockTimer = none ∧ t.ds.undockTimer = none ∧ t.ce.clashMem = [] ∧ t.ce.lostMem = [] ∧
          (f.positional = true → t.cs.state = .unlocated ∧ t.pu.known = false ∧ t.ce.own = [] ∧ t.os.memory = [] ∧
            t.eu.brake = .emergency) ∧
          (f.positional = false → s.ds.pos = .up → t.cs.state = .ready ∧ t.eu.brake = .service ∧ t.ce.own = kept) ∧
          (f.positional = false → s.ds.pos ≠ .up → t.cs.state = .parked ∧ t.eu.brake = .service ∧
            t.ce.own = kept.map standing ∧
            (s.os.active = none → (∃ e ∈ kept, e.seg = head ∧ e.st ≠ .standing) → queued (.claim 3 (cfg s).refresh
              ((kept.filter (fun e => decide (e.seg = head))).map (fun e => itemOf (standing e)))) t))))

/-- A points node takes COMMISSION once: its three fields are kept as clamped, the sender becomes the console,
listen-in starts, the REPORT is queued and then a POINTS notice, in this order by the model's choice (assumption 68);
commissioned already, it is REFUSED STATE (R80, R195). CLEAR-FAULT on a points node: refused while the points move or
a clash is held; with the points locked it clears the unavailable marks; in FAILED it needs exactly one lock input, at
which the points then stand locked with the record cleared (R98). -/
def Obligations.PointsCommissionOrClear : Prop :=
  (∀ (src : Addr) (r : PointsComm) (s : State), atFront src (.pointsCommission r) s = true → s.tli.kind = .points →
      let c : PointsComm := { seg := max 1 (min 1023 r.seg), throwSec := max 2 (min 15 r.throwSec),
                              refresh := max 200 (min 1000 r.refresh) }
      (s.pa.comm.isSome = true →
        exec (.pointsCommission src r) s = .next (report .pa .commission (.refused .state) 0 (taken s))) ∧
      (s.pa.comm = none → s.tli.clash = false →
        exec (.pointsCommission src r) s = .next (queuePoints (report .pa .commission
          (if c = r then .accepted
           else .clamped [decide (r.seg ≠ c.seg), decide (r.throwSec ≠ c.throwSec), decide (r.refresh ≠ c.refresh)]) 0
          (((taken s).setPa { s.pa with comm := some c, console := some src, countdown := some 0 }).setSv
            { s.sv with listen := some 0 }))))) ∧
  (∀ (src : Addr) (s : State), atFront src .clearFault s = true → s.tli.kind = .points →
      let refuse (r : RefuseReason) := report .pa .clearFault (.refused r) 0 (taken s)
      (s.ts.state = .throwing ∨ s.ts.state = .recovering ∨ s.tli.clash = true →
        exec (.pointsClearFault src) s = .next (refuse .state)) ∧
      (s.ts.state = .lockedNormal ∨ s.ts.state = .lockedReverse → s.tli.clash = false →
        exec (.pointsClearFault src) s = .next (report .pa .clearFault .accepted 0
          ((taken s).setPa { s.pa with unavailNormal := false, unavailReverse := false }))) ∧
      (s.ts.state = .failed → s.tli.clash = false →
        (s.ts.normalLock = s.ts.reverseLock → exec (.pointsClearFault src) s = .next (refuse .stillPresent)) ∧
        (s.ts.normalLock ≠ s.ts.reverseLock → s.pa.queue = [] →
          ∃ t, exec (.pointsClearFault src) s = .next t ∧
            t.ts = { s.ts with state := if s.ts.normalLock then .lockedNormal else .lockedReverse, motor := .off,
                               timer := none } ∧
            t.pa = { s.pa with unavailNormal := false, unavailReverse := false, fault := none } ∧ t.sv = s.sv ∧
            (∀ c, s.pa.console = some c → queued (.report c { subject := .clearFault, outcome := .accepted, oid := 0 }) t ∧
              queued (.points (pointsNotice t)) t))))

/-- CLEAR-STALE removes every entry of the named holder: addressed from the console, another station, it is answered
ACCEPTED, broadcast from the console it draws no REPORT, and broadcast from another sender it is counted as malformed
and removes nothing (R25, R197, R188). On a points node it does the same to the Segment View, and the holder's grant
and its ask go with its entry (R82, R88, R96). -/
def Obligations.StaleCleared : Prop :=
  ∀ (src h : Addr) (s : State),
    (s.tli.kind = .carriage →
      let left := s.ov.claims.filter (fun e => decide (e.holder ≠ h))
      let view : OccView := { s.ov with
        claims := left
        viewFull := s.ov.viewFull && !(decide (left.length < s.ov.claims.length) && decide (left.length ≤ 87)) }
      (atFront src (.clearStale h) s = true → src ≠ s.tli.addr →
        exec (.clearStale src false h) s = .next (report .ov .clearStale .accepted 0 ((taken s).setOv view))) ∧
      (fromOther src s = true → h ≤ 63 →
        (s.cs.console = some src → exec (.clearStale src true h) s =
          .next ((quiet s).setOv { view with listen := (quiet s).ov.listen })) ∧
        (s.cs.console ≠ some src → ∃ t, exec (.clearStale src true h) s = .next t ∧ t.ov = (quiet s).ov ∧
          t.tli.counters.malformed = min (s.tli.counters.malformed + 1) 65535))) ∧
    (s.tli.kind = .points →
      let gone (t : State) : Prop := t.sv.entries = s.sv.entries.filter (fun e => decide (e.holder ≠ h)) ∧
        (∀ g, t.pa.grant = some g → g.holder ≠ h) ∧ (liveIn s h = true → ∀ q ∈ t.pa.queue, q.requester ≠ h)
      (atFront src (.clearStale h) s = true → ∃ t, exec (.clearStale src false h) s = .next t ∧ gone t ∧
        (s.tli.clash = false → ∀ c, s.pa.console = some c →
          queued (.report c { subject := .clearStale, outcome := .accepted, oid := 0 }) t)) ∧
      (fromOther src s = true → h ≤ 63 →
        (s.pa.console = some src → ∃ t, exec (.clearStale src true h) s = .next t ∧ gone t) ∧
        (s.pa.console ≠ some src → exec (.clearStale src true h) s = .next ((quiet s).setTli { (quiet s).tli with
          counters := { s.tli.counters with malformed := min (s.tli.counters.malformed + 1) 65535 } }))))

/-- STATION-RESET on a carriage node is refused unless the carriage stands. Taken, the slots, the view, the span, the
counters, a held clash, the fault record and the watcher go; the commissioning, the console and the latch stay; the state
follows from the position, the positional mark and the jacks; the occupied claims stay, on entry to PARKED with the entry
under the head STANDING and a CLAIM carrying it queued, unless it stood so already (R71), and the refresh countdown restarts
(R178, R39, R40, R79, R180). A frame being sent is finished (R189), and marked as withdrawn, so that one of the span in
flight is released or freed at its departure (R40, R57; assumption 53). After an address clash the REPORT ACCEPTED is the
first frame sent, whatever the reset queues behind it (R198; assumption 56). -/
def Obligations.StationResetTaken : Prop :=
  ∀ (src : Addr) (s : State), atFront src .stationReset s = true → s.tli.kind = .carriage →
    let stay := (s.ce.own.filter (fun e => decide (e.seg ∈ occupied s ∧ e.seg ∉ spanSegs s))).map
      (fun e => { e with leg := .none })
    let head := (headPos s).1
    let standing (e : OwnClaim) : OwnClaim := if e.seg = head then { e with st := .standing } else e
    (s.pu.standstill = false →
      exec (.stationReset src) s = .next (report .cs .stationReset (.refused .notStandstill) 0 (taken s))) ∧
    (s.pu.standstill = true → s.cs.eStop = false → s.cs.driveFault = false →
      ∃ t, exec (.stationReset src) s = .next t ∧
        t.os.active = none ∧ t.os.pending = none ∧ t.cs.comm = s.cs.comm ∧ t.cs.console = s.cs.console ∧
        t.cs.latch = s.cs.latch ∧ t.cs.fault = none ∧ t.cs.watcher = none ∧
        t.ov = { claims := [], viewFull := false, pointsTab := [], posTab := [], listen := some 0 } ∧
        t.ce.span = none ∧ t.ce.abort = none ∧ t.ce.abortCount = 0 ∧ t.ce.attempts = 0 ∧ t.ce.backoff = none ∧
        t.ce.refresh = some 0 ∧ t.tli.clash = false ∧ t.tli.inbound = [] ∧
        (∀ e ∈ s.tli.txq, e.sending = true → ∃ k ∈ t.tli.txq, k.sending = true ∧ k.withdrawn = true ∧
          k.frame = e.frame ∧ (e.tag ≠ .refresh → k.tag = e.tag)) ∧
        t.tli.counters.malformed = 0 ∧ t.tli.counters.unacked = 0 ∧ t.tli.counters.overflow = 0 ∧
        t.eu.demand = 0 ∧ t.ds.cmd = .off ∧ t.cr.leader = none ∧ t.cr.hold = false ∧
        (∀ c, s.cs.console = some c → queued (.report c { subject := .stationReset, outcome := .accepted, oid := 0 }) t) ∧
        (∀ c, s.cs.console = some c → s.tli.clash = true → (∀ e ∈ s.tli.txq, e.sending = false) →
          ∃ i k, t.tli.txq[i]? = some k ∧
            k.frame = .report c { subject := .stationReset, outcome := .accepted, oid := 0 } ∧
            exec .lineIdle t = .next (t.setTli
              { t.tli with idle := false, txq := t.tli.txq.set i { k with sending := true } })) ∧
        ((s.pu.known = false ∨ s.cs.fault.any FaultRec.positional = true) →
          t.cs.state = .unlocated ∧ t.ce.own = [] ∧ t.pu.known = false) ∧
        (s.pu.known = true → s.cs.fault.any FaultRec.positional = false →
          (s.ds.pos = .up → t.cs.state = .ready ∧ t.pu.known = true ∧ t.ce.own = stay) ∧
          (s.ds.pos ≠ .up → t.cs.state = .parked ∧ t.pu.known = true ∧ t.ce.own = stay.map standing ∧
            ((∃ e ∈ stay, e.seg = head ∧ e.st ≠ .standing) → queued (.claim 3 (cfg s).refresh
              ((stay.filter (fun e => decide (e.seg = head))).map (fun e => itemOf (standing e)))) t))))

/-- STATION-RESET on a points node is refused while the points move. Taken, the view, the queue, the last answer, the
drop count, the counters and a held clash go and listen-in starts; a grant becomes HELD_STALE; the commissioning, the
latch and the marks stay, and the points state and fault record too unless an address clash opened the record, when the
lock inputs decide both (R101, R180), as R81 has it at POWER-ON: LOCK_LOST where they show no position (the model's
reading of R101, assumption 36). A frame being sent is finished (R189, assumption 53). The REPORT ACCEPTED is queued,
and is the first frame sent after an address clash (R198; assumption 56). -/
def Obligations.PointsResetTaken : Prop :=
  ∀ (src : Addr) (s : State), atFront src .stationReset s = true → s.tli.kind = .points →
    (s.ts.state = .throwing ∨ s.ts.state = .recovering →
      exec (.pointsStationReset src) s = .next (report .pa .stationReset (.refused .state) 0 (taken s))) ∧
    (s.ts.state ≠ .throwing → s.ts.state ≠ .recovering →
      ∃ t, exec (.pointsStationReset src) s = .next t ∧
        t.sv = { entries := [], listen := some 0, overflow := none } ∧
        (∀ e ∈ s.tli.txq, e.sending = true → ∃ k ∈ t.tli.txq, k.sending = true ∧ k.withdrawn = true ∧
          k.frame = e.frame) ∧
        t.tli.clash = false ∧ t.tli.inbound = [] ∧ t.tli.counters = ⟨0, 0, 0, 0⟩ ∧
        t.pa.queue = [] ∧ t.pa.lastAnswer = none ∧ t.pa.askDrops = 0 ∧ t.pa.watcher = none ∧ t.pa.countdown = some 0 ∧
        t.pa.grant = s.pa.grant.map (fun g => { g with live := false }) ∧
        t.pa.comm = s.pa.comm ∧ t.pa.console = s.pa.console ∧ t.pa.latch = s.pa.latch ∧
        t.pa.unavailNormal = s.pa.unavailNormal ∧ t.pa.unavailReverse = s.pa.unavailReverse ∧
        (∀ c, s.pa.console = some c → queued (.report c { subject := .stationReset, outcome := .accepted, oid := 0 }) t) ∧
        (∀ c, s.pa.console = some c → s.tli.clash = true → (∀ e ∈ s.tli.txq, e.sending = false) →
          ∃ i k, t.tli.txq[i]? = some k ∧
            k.frame = .report c { subject := .stationReset, outcome := .accepted, oid := 0 } ∧
            exec .lineIdle t = .next (t.setTli
              { t.tli with idle := false, txq := t.tli.txq.set i { k with sending := true } })) ∧
        (s.pa.fault.map FaultRec.code ≠ some .addressClash → t.ts = s.ts ∧ t.pa.fault = s.pa.fault) ∧
        (s.pa.fault.map FaultRec.code = some .addressClash →
          (s.ts.normalLock = s.ts.reverseLock →
            t.ts.state = .failed ∧ t.pa.fault.map FaultRec.code = some .lockLost) ∧
          (s.ts.normalLock ≠ s.ts.reverseLock → t.pa.fault = none ∧
            t.ts.state = if s.ts.normalLock then .lockedNormal else .lockedReverse)) ∧
        queued (.points (pointsNotice t)) t)

/-- QUERY queues one STATUS to the console and changes nothing else; every field of the STATUS shows the state as it
stands, and is 0 or none where it does not apply (R194), as the leg indices of an order not yet started (assumption
31); that a tail on a rear segment run UP shows no offset below 0, as R109 has it for one run DOWN, is assumption 51. -/
def Obligations.QueryAnswered : Prop :=
  ∀ (src c : Addr) (s : State), atFront src .query s = true → console s = some c →
    (s.tli.kind = .carriage → ∃ v,
      exec (.query src) s = .next (offer .cs false .plain (.carriageStatus c v) (taken s)) ∧
      v.state = s.cs.state ∧ v.brake = s.eu.brake ∧
      v.holds = ⟨s.tli.silent, s.ov.listen.isSome, s.cs.latch.isSome, s.cr.hold⟩ ∧
      v.activeId = ((s.os.active.map (fun a => a.ord.id)).getD 0) ∧ v.pendingId = (s.os.pending.map OrderRec.id).getD 0 ∧
      v.phase = s.os.active.map ActiveOrder.phase ∧
      ((∀ a, s.os.active = some a → a.phase = .waiting) → v.headLeg = 0 ∧ v.tailLeg = none ∧ v.nextClaim = 0) ∧
      (∀ a, s.os.active = some a → a.phase ≠ .waiting →
        v.headLeg = a.headLeg ∧ v.tailLeg = some a.tailLeg ∧ v.nextClaim = a.nextClaim) ∧
      (s.pu.known = false → v.endA = (0, 0) ∧ v.endB = (0, 0)) ∧
      (s.pu.known = true →
        (∀ x y, s.pu.route = none → s.pu.endA = some x → s.pu.endB = some y →
          v.endA = (x.seg, x.off) ∧ v.endB = (y.seg, y.off)) ∧
        (∀ a r, s.pu.route = some r → s.os.active = some a →
          let head := match a.ord.lead with
            | .a => v.endA
            | .b => v.endB
          let tail := match a.ord.lead with
            | .a => v.endB
            | .b => v.endA
          let on (l : Leg) (travel : Int) : Seg × Mm :=
            (l.seg, if l.dir = .up then min travel.toNat l.len else l.len - min travel.toNat l.len)
          (∀ l, legAt a.ord.legs a.headLeg = some l → head = on l (r.x - legStart a.ord.legs a.headLeg)) ∧
          (∀ k l, a.tailLeg = .leg k → legAt a.ord.legs k = some l → tail = on l (v.tailCoord - legStart a.ord.legs k)) ∧
          (∀ q, a.tailLeg = .rear → a.rear = some q → tail = (q.seg,
            (if q.dir = .up then (r.rearOff : Int) + (v.tailCoord - r.tail0)
             else (r.rearOff : Int) - (v.tailCoord - r.tail0)).toNat)))) ∧
      (s.pu.route = none → v.headCoord = 0 ∧ v.tailCoord = 0) ∧
      (∀ r, s.pu.route = some r → v.headCoord = r.x ∧ v.tailCoord = r.x - (cfg s).length + r.trim) ∧
      v.lastCorrection = s.pu.lastCorrection ∧ (s.ce.firmEnd = none → v.authorityEnd = 0) ∧
      (∀ f, s.ce.firmEnd = some f → v.authorityEnd = f - (cfg s).margin) ∧
      v.latch = s.cs.latch ∧ v.fault = s.cs.fault ∧ v.abort = s.ce.abort ∧ v.abortCount = s.ce.abortCount ∧
      v.tailMisses = s.pu.tailMisses ∧ v.counters = s.tli.counters ∧ v.claims = s.ov.claims.length ∧
      v.staleClaims = (s.ov.claims.filter ClaimEntry.stale).length ∧ v.viewFull = s.ov.viewFull ∧
      (v.leaderStale = true ↔ ∃ l, s.cr.leader = some l ∧ l.stale = true)) ∧
    (s.tli.kind = .points → ∃ v,
      exec (.query src) s = .next (offer .pa false .plain (.pointsStatus c v) (taken s)) ∧
      v.seg = (s.pa.comm.map PointsComm.seg).getD 0 ∧ v.state = s.ts.state ∧
      (v.listening = true ↔ s.sv.listen.isSome = true ∨ s.tli.silent = true) ∧ v.grant = s.pa.grant ∧
      v.queue = s.pa.queue ∧ v.lastAnswer = s.pa.lastAnswer ∧ v.unavailNormal = s.pa.unavailNormal ∧
      v.unavailReverse = s.pa.unavailReverse ∧ v.latch = s.pa.latch ∧ v.fault = s.pa.fault ∧
      v.askDrops = s.pa.askDrops ∧ v.counters = s.tli.counters ∧ v.entries = s.sv.entries.length ∧
      v.staleEntries = (s.sv.entries.filter SegEntry.stale).length ∧ v.viewFull = s.sv.overflow.isSome)

/-! ## Asks, frees and serving at a points node -/

/-- A POINTS-ASK, a grant its requester holds freed first, is answered by the first test that applies:
REFUSED_UNCOMMISSIONED, REFUSED_LISTEN_IN, REFUSED_FAILED, REFUSED_NOT_CLAIMANT; otherwise it is queued, in its requester's
place or as the newest, and answered QUEUED, or with 6 entries counted as dropped. An answer is announced and serving tested
after it; a refusal removes the requester's entry (R87). A carriage node answers WRONG_KIND (R188). A POINTS-FREE from the
holder frees the grant, with one POINTS notice that shows holder 0 and serving tested after it; from a waiting requester it
removes the queue entry; and from any other it changes nothing (R96, R88). A carriage node answers WRONG_KIND (R188). -/
def Obligations.AskOrFreeTaken : Prop :=
  (∀ (src : Addr) (pos : PointsPos) (cls oid : Nat) (s : State), atFront src (.pointsAsk pos cls oid) s = true →
      (s.tli.kind = .carriage →
        exec (.pointsAsk src pos cls oid) s = .next (report .tli .pointsAsk (.refused .wrongKind) 0 (taken s))) ∧
      (s.tli.kind = .points →
        let base := if holdsGrant src s then freeGrant (taken s) else taken s
        let answered (c : AnswerCode) (q : List AskEntry) : Host.Outcome State Fault Refusal :=
          .next (serveAfter (queuePoints (base.setPa { base.pa with queue := q, lastAnswer := some (src, c) }))
                            (queuePoints (base.setPa { base.pa with queue := q, lastAnswer := some (src, c) })))
        let others := base.pa.queue.filter (fun q => decide (q.requester ≠ src))
        let e : AskEntry := ⟨src, pos, cls, oid⟩
        (base.pa.comm = none → exec (.pointsAsk src pos cls oid) s = answered .refusedUncommissioned others) ∧
        (base.pa.comm.isSome = true →
          (listeningIn base = true → exec (.pointsAsk src pos cls oid) s = answered .refusedListenIn others) ∧
          (listeningIn base = false →
            (base.ts.state = .failed ∨ unavail base pos = true →
              exec (.pointsAsk src pos cls oid) s = answered .refusedFailed others) ∧
            (base.ts.state ≠ .failed → unavail base pos = false →
              (liveIn base src = false → exec (.pointsAsk src pos cls oid) s = answered .refusedNotClaimant others) ∧
              (liveIn base src = true →
                ((∃ q ∈ base.pa.queue, q.requester = src) → exec (.pointsAsk src pos cls oid) s =
                  answered .queued (base.pa.queue.map (fun q => if q.requester = src then e else q))) ∧
                ((∀ q ∈ base.pa.queue, q.requester ≠ src) →
                  (base.pa.queue.length < 6 → exec (.pointsAsk src pos cls oid) s =
                    answered .queued (base.pa.queue ++ [e])) ∧
                  (6 ≤ base.pa.queue.length → exec (.pointsAsk src pos cls oid) s =
                    .next (base.setPa { base.pa with askDrops := min (base.pa.askDrops + 1) 65535 }))))))))) ∧
  (∀ (src : Addr) (s : State), atFront src .pointsFree s = true →
      (s.tli.kind = .carriage →
        exec (.pointsFree src) s = .next (report .tli .pointsFree (.refused .wrongKind) 0 (taken s))) ∧
      (s.tli.kind = .points →
        let freed := queuePoints ((taken s).setPa { s.pa with grant := none })
        (∀ g, s.pa.grant = some g → g.holder = src →
          exec (.pointsFree src) s = .next (serveAfter freed freed) ∧
          (pointsNotice ((taken s).setPa { s.pa with grant := none })).holder = 0) ∧
        ((∀ g, s.pa.grant = some g → g.holder ≠ src) →
          ((∃ q ∈ s.pa.queue, q.requester = src) → exec (.pointsFree src) s = .next (serveAfter (taken s)
            ((taken s).setPa { s.pa with queue := s.pa.queue.filter (fun q => decide (q.requester ≠ src)) }))) ∧
          ((∀ q ∈ s.pa.queue, q.requester ≠ src) → exec (.pointsFree src) s = .next (taken s)))))

/-! ## The Segment View and the throws -/

/-- The Segment View follows the notices that name the points segment. A CLAIM, whatever else it names, updates its
sender's entry, stores it, or with 8 entries starts the overflow hold, its last entry for the segment standing; a claim
so stored, or freed of its STALE mark, makes its holder's grant GRANTED again. A RELEASE removes the sender's entry, with
its grant, GRANTED or HELD_STALE, and its ask. An entry at its stale limit goes when TENTATIVE and else takes the STALE
mark, every other entry as it was, its holder's ask leaves and its grant becomes HELD_STALE. Other notices, and all while
uncommissioned, are only heard (R82, R83, R88, R95, R96, R80). That an expiry given for no unmarked entry changes nothing
is the model's reading (assumption 4). -/
def Obligations.SegmentViewFollows : Prop :=
  (∀ (src : Addr) (s : State), s.tli.kind = .points → s.pa.comm = none → fromOther src s = true →
    (∀ cls period items, claimWf cls period items = true →
      exec (.pointsNodeClaim src cls period items) s = .next (quiet s)) ∧
    (∀ segs, releaseWf segs = true → exec (.pointsNodeRelease src segs) s = .next (quiet s))) ∧
  (∀ (src : Addr) (c : PointsComm) (s : State), s.tli.kind = .points → s.pa.comm = some c → fromOther src s = true →
    (∀ cls period items, claimWf cls period items = true →
      ((∀ i ∈ items, i.seg ≠ c.seg) → exec (.pointsNodeClaim src cls period items) s = .next (quiet s)) ∧
      (∀ i, (items.filter (fun k => decide (k.seg = c.seg))).getLast? = some i →
        ∃ t, exec (.pointsNodeClaim src cls period items) s = .next t ∧ t.pa.comm = s.pa.comm ∧
          (let e : SegEntry := ⟨src, i.st, max 200 (min 1000 period), 0, false⟩
           ((∃ k ∈ s.sv.entries, k.holder = src) →
             t.sv.entries = s.sv.entries.map (fun k => if k.holder = src then e else k)) ∧
           ((∀ k ∈ s.sv.entries, k.holder ≠ src) →
             (s.sv.entries.length < 8 → t.sv.entries = s.sv.entries ++ [e]) ∧
             (8 ≤ s.sv.entries.length → t.sv.entries = s.sv.entries ∧ t.sv.overflow = some 0))) ∧
          (∀ g, s.pa.grant = some g → g.holder = src →
            (∃ k ∈ s.sv.entries, k.holder = src ∧ k.stale = true) ∨
              ((∀ k ∈ s.sv.entries, k.holder ≠ src) ∧ s.sv.entries.length < 8) →
            t.pa.grant = some { g with live := true }))) ∧
    (∀ segs, releaseWf segs = true →
      (c.seg ∉ segs → exec (.pointsNodeRelease src segs) s = .next (quiet s)) ∧
      (c.seg ∈ segs → ∃ t, exec (.pointsNodeRelease src segs) s = .next t ∧
        t.sv.entries = s.sv.entries.filter (fun k => decide (k.holder ≠ src)) ∧
        (∀ g, t.pa.grant = some g → g.holder ≠ src) ∧
        (((∃ k ∈ s.sv.entries, k.holder = src) ∨ ∃ g, s.pa.grant = some g ∧ g.holder = src) →
          ∀ q ∈ t.pa.queue, q.requester ≠ src)))) ∧
  (∀ (h : Addr) (s : State), s.tli.kind = .points →
    let named (k : SegEntry) : Bool := decide (k.holder = h) && !k.stale
    ((∀ k ∈ s.sv.entries, named k = false) → exec (.segmentViewEntryStale h) s = .next s) ∧
    ((∃ k ∈ s.sv.entries, named k = true) → ∃ t, exec (.segmentViewEntryStale h) s = .next t ∧
      t.sv.entries.map (fun k => (k.holder, k.st, k.period, k.stale)) =
        (s.sv.entries.filter (fun k => !(named k && decide (k.st = .tentative)))).map
          (fun k => (k.holder, k.st, k.period, k.stale || named k)) ∧
      (∀ k ∈ s.sv.entries, named k = false → k ∈ t.sv.entries) ∧ (∀ q ∈ t.pa.queue, q.requester ≠ h) ∧
      (∀ g, s.pa.grant = some g → g.holder = h → t.pa.grant = some { g with live := false }) ∧
      (∀ g, t.pa.grant = some g → g.holder = h → g.live = false)))

/-- The sole-claimant test asks for an entry of the requester without the STALE mark, for the mark on every entry of another
holder, and for no overflow hold (R85); the node is listening in while the timer runs, and while line silence is reported
(R84). The serving test: the head is granted where the points stand locked at its position, a throw begins for it where they
stand locked at the other and no halt is latched, and in every other case nothing changes (R89, R90). At the end of
listen-in and of the overflow hold the timer stops and serving is tested (R84, R83); at each expiry of the notice countdown
it restarts and a periodic POINTS notice of the state as it stands waits (R100). That an expiry given while its timer is
stopped changes nothing is the model's reading (assumption 4). -/
def Obligations.ServingTested : Prop :=
  (∀ (x : Addr) (s : State),
      (soleClaimant s x = true ↔ (∃ e ∈ s.sv.entries, e.holder = x ∧ e.stale = false) ∧
        (∀ e ∈ s.sv.entries, e.holder ≠ x → e.stale = true) ∧ s.sv.overflow = none) ∧
      (listeningIn s = true ↔ s.sv.listen.isSome = true ∨ s.tli.silent = true)) ∧
  (∀ (h : AskEntry) (rest : List AskEntry) (p : PointsPos) (s : State),
      (s.pa.queue = h :: rest → s.ts.state = lockedAt p → s.pa.comm.isSome = true → s.pa.grant = none →
        listeningIn s = false → soleClaimant s h.requester = true →
        (h.pos = p → serve s = s.setPa
          { s.pa with grant := some ⟨h.requester, p, true⟩, queue := rest, lastAnswer := some (h.requester, .granted) }) ∧
        (h.pos ≠ p → s.pa.latch = none → serve s = s.setTs
          { s.ts with state := .throwing, motor := .toward h.pos, timer := some 0, target := h.pos, previous := p }) ∧
        (h.pos ≠ p → s.pa.latch.isSome = true → serve s = s)) ∧
      (s.pa.queue = [] ∨ s.ts.state = .throwing ∨ s.ts.state = .recovering ∨ s.ts.state = .failed ∨ s.pa.comm = none ∨
        s.pa.grant.isSome = true ∨ listeningIn s = true ∨
        (s.pa.queue = h :: rest ∧ soleClaimant s h.requester = false) → serve s = s)) ∧
  (∀ s : State, s.tli.kind = .points →
      (s.sv.listen.isSome = true →
        exec .pointsListenInExpiry s = .next (serveAfter s (s.setSv { s.sv with listen := none }))) ∧
      (s.sv.overflow.isSome = true →
        exec .overflowHoldExpiry s = .next (serveAfter s (s.setSv { s.sv with overflow := none }))) ∧
      (s.sv.listen = none → exec .pointsListenInExpiry s = .next s) ∧
      (s.sv.overflow = none → exec .overflowHoldExpiry s = .next s) ∧
      (s.pa.countdown = none → exec .pointsPeriodicNotice s = .next s) ∧
      (s.pa.countdown.isSome = true → ∃ t, exec .pointsPeriodicNotice s = .next t ∧ t.pa.countdown = some 0 ∧
        t.ts = s.ts ∧ t.sv = s.sv ∧
        (s.tli.clash = false → (∀ k ∈ s.tli.txq, k.sending = false) →
          (s.tli.txq.length < 10 ∨ ∃ k ∈ s.tli.txq, isPeriodicPoints k = true) → queued (.points (pointsNotice s)) t)))

/-- In LOCKED_NORMAL or LOCKED_REVERSE a change that leaves the locked position's input alone changes the inputs only; any
other is a lock loss: FAILED, no grant, an empty queue, the motor off, LOCK_LOST raised, the last answer unchanged, and one
POINTS notice showing it (R97). -/
def Obligations.LockLoss : Prop :=
  ∀ (p : PointsPos) (normal reverse : Bool) (s : State), s.tli.kind = .points → s.ts.state = lockedAt p →
    let kept : Bool := match p with
      | .normal => normal && !reverse
      | .reverse => reverse && !normal
    (kept = true → exec (.lockInputChange normal reverse) s =
      .next (s.setTs { s.ts with normalLock := normal, reverseLock := reverse })) ∧
    (kept = false → ∃ t, exec (.lockInputChange normal reverse) s = .next t ∧
      t.ts = { s.ts with state := .failed, motor := .off, timer := none, normalLock := normal, reverseLock := reverse } ∧
      t.pa.grant = none ∧ t.pa.queue = [] ∧ t.pa.lastAnswer = s.pa.lastAnswer ∧ t.sv = s.sv ∧
      (s.pa.fault = none → t.pa.fault.map FaultRec.code = some .lockLost) ∧
      (∀ f, s.pa.fault = some f → t.pa.fault =
        some { f with further := min (f.further + 1) 65535, last := some .lockLost }) ∧
      (s.tli.clash = false → queued (.points (pointsNotice t)) t ∧ (pointsNotice t).state = .failed ∧
        (pointsNotice t).holder = 0 ∧ (pointsNotice t).qlen = 0 ∧
        (∀ c, s.pa.console = some c →
          queued (.report c { subject := .fault, outcome := .faultRaised .lockLost, oid := 0 }) t)))

/-- When the throw timer reaches its limit in RECOVERING the points are FAILED: the motor stops, the queue is cleared,
THROW_FAILED is raised, and one POINTS notice shows FAILED and queue length 0; a lock of the previous position taken first
ends the recovery; and a lock that arrives in FAILED changes the inputs only (R93). -/
def Obligations.RecoveryFails : Prop :=
  ∀ (normal reverse : Bool) (s : State), s.tli.kind = .points →
    (s.ts.state = .recovering → ∃ t, exec .recoveryTimeout s = .next t ∧
      t.ts = { s.ts with state := .failed, motor := .off, timer := none } ∧ t.pa.queue = [] ∧
      (s.pa.fault = none → t.pa.fault.map FaultRec.code = some .throwFailed) ∧
      (∀ f, s.pa.fault = some f → t.pa.fault =
        some { f with further := min (f.further + 1) 65535, last := some .throwFailed }) ∧
      (s.tli.clash = false → queued (.points (pointsNotice t)) t ∧ (pointsNotice t).state = .failed ∧
        (pointsNotice t).qlen = 0)) ∧
    (s.ts.state = .recovering → (match s.ts.previous with
        | .normal => normal
        | .reverse => reverse) = true →
      ∃ t, exec (.lockInputChange normal reverse) s = .next t ∧ t.ts.state ≠ .recovering ∧ t.ts.state ≠ .failed) ∧
    (s.ts.state = .failed → exec (.lockInputChange normal reverse) s =
      .next (s.setTs { s.ts with normalLock := normal, reverseLock := reverse }))

/-- A throw, and a recovery late at its target, ends with the target's lock, and a throw disregards the other; the lock has
one notice, of the state as serving leaves it: the head that wants the target is granted, one that wants the points back has
the throw back begun at once, and one that may not be served waits (R89 to R92, R100); that a throw back has no notice of
its own is the model's reading (assumption 33). At the limit, with no lock asserted, the motor reverses and a recovery
begins. A recovery ends with the previous position's lock: the target is marked unavailable, every ask that requires it
leaves and is answered REFUSED_FAILED in a notice of its own, in queue order, and the head of those that stay is served or
waits (R92). That the previous position is taken where both locks stand asserted is the model's reading (assumption 35), and
so is that a THROW_TIMEOUT outside THROWING and a RECOVERY_TIMEOUT outside RECOVERING change nothing (assumption 4). -/
def Obligations.ThrowRuns : Prop :=
  ∀ (normal reverse : Bool) (s : State), s.tli.kind = .points →
    let atTarget : Bool := match s.ts.target with
      | .normal => normal
      | .reverse => reverse
    let atPrevious : Bool := match s.ts.previous with
      | .normal => normal
      | .reverse => reverse
    let locks (t : Throw) : Throw := { t with normalLock := normal, reverseLock := reverse }
    let lockedNow (p : PointsPos) : Throw := locks { s.ts with state := lockedAt p, motor := .off, timer := none }
    let may (h : AskEntry) : Bool :=
      s.pa.comm.isSome && s.pa.grant.isNone && !listeningIn s && soleClaimant s h.requester
    let room (n : Nat) : Prop := s.tli.clash = false ∧ s.tli.txq.length + n < 10 ∧ ∀ k ∈ s.tli.kept, k.block ≠ .pa
    let sent (ns : List PointsNotice) (t : State) : Prop :=
      t.tli.txq.map TxEntry.frame = s.tli.txq.map TxEntry.frame ++ ns.map Frame.points
    let noticed (t : State) : Prop :=
      (s.tli.clash = false → queued (.points (pointsNotice t)) t) ∧ (room 0 → sent [pointsNotice t] t)
    (atTarget = true → (s.ts.state = .throwing ∨ (s.ts.state = .recovering ∧ atPrevious = false)) →
      (s.pa.queue = [] → ∃ t, exec (.lockInputChange normal reverse) s = .next t ∧
        t.ts = lockedNow s.ts.target ∧ t.pa = s.pa ∧ noticed t) ∧
      (∀ h rest, s.pa.queue = h :: rest →
        (may h = true → h.pos = s.ts.target → ∃ t, exec (.lockInputChange normal reverse) s = .next t ∧
          t.ts = lockedNow s.ts.target ∧ noticed t ∧
          t.pa = { s.pa with grant := some ⟨h.requester, h.pos, true⟩, queue := rest,
                             lastAnswer := some (h.requester, .granted) }) ∧
        (may h = true → h.pos ≠ s.ts.target → s.pa.latch = none →
          ∃ t, exec (.lockInputChange normal reverse) s = .next t ∧ t.pa = s.pa ∧ noticed t ∧
            t.ts = locks { s.ts with state := .throwing, motor := .toward h.pos, timer := some 0, target := h.pos,
                                     previous := s.ts.target }) ∧
        (may h = false ∨ (h.pos ≠ s.ts.target ∧ s.pa.latch.isSome = true) →
          ∃ t, exec (.lockInputChange normal reverse) s = .next t ∧
            t.ts = lockedNow s.ts.target ∧ t.pa = s.pa ∧ noticed t))) ∧
    (s.ts.state = .throwing →
      (atTarget = false → exec (.lockInputChange normal reverse) s = .next (s.setTs (locks s.ts))) ∧
      (s.ts.normalLock = false → s.ts.reverseLock = false → ∃ t, exec .throwTimeout s = .next t ∧
        t.ts = { s.ts with state := .recovering, motor := .toward s.ts.previous, timer := some 0 } ∧ t.pa = s.pa ∧
        (s.tli.clash = false → queued (.points (pointsNotice t)) t))) ∧
    (s.ts.state = .recovering → atPrevious = true →
      let out := s.pa.queue.filter (fun q => decide (q.pos = s.ts.target))
      let left := s.pa.queue.filter (fun q => decide (q.pos ≠ s.ts.target))
      let refused (p : Arbiter) : Arbiter :=
        { p with queue := left
                 lastAnswer := (out.getLast?.map (fun q => (q.requester, AnswerCode.refusedFailed))).or p.lastAnswer
                 unavailNormal := p.unavailNormal || decide (s.ts.target = .normal)
                 unavailReverse := p.unavailReverse || decide (s.ts.target = .reverse) }
      let answered (t : State) : Prop :=
        (s.tli.clash = false → queued (.points (pointsNotice t)) t) ∧
        (room out.length → ∃ ns, sent ns t ∧ ns.getLast? = some (pointsNotice t) ∧
          (ns.take out.length).map (fun n => (n.requester, n.code)) = out.map (fun q => (q.requester, .refusedFailed)))
      ((∀ h ∈ left.head?, may h = false) → ∃ t, exec (.lockInputChange normal reverse) s = .next t ∧
        t.ts = lockedNow s.ts.previous ∧ t.pa = refused s.pa ∧ answered t) ∧
      (∀ h rest, left = h :: rest → may h = true → h.pos = s.ts.previous →
        ∃ t, exec (.lockInputChange normal reverse) s = .next t ∧ t.ts = lockedNow s.ts.previous ∧ answered t ∧
          t.pa = { refused s.pa with grant := some ⟨h.requester, h.pos, true⟩, queue := rest,
                                     lastAnswer := some (h.requester, .granted) })) ∧
    (s.ts.state ≠ .throwing → exec .throwTimeout s = .next s) ∧
    (s.ts.state ≠ .recovering → exec .recoveryTimeout s = .next s)

/-! ## The yard halt -/

/-- A HALT heard sets a clear latch of a carriage node with its origin and reason: RUNNING becomes HALTED, with Rest as it
then stands (R138), a span in flight aborts HALTED, and nothing else changes; a latch already set stays (R167, R168). On a
points node every HALT heard sets the latch (R99), a set one too (the model's reading, assumption 32). RESUME-A from the
console arms the watcher with its token, and from another sender disarms it. A RESUME-B of the armed sender and token
completes the pair: the latch clears, HALTED becomes RUNNING, or a pad stop held there at rest is checked for alignment, a
WAITING order starts, or leaves refused FIRST_LEG, and a points node tests serving; any other RESUME-B, and the end of the
window, only disarm the watcher (R169, R170, R99, R156). -/
def Obligations.HaltAndResume : Prop :=
  (∀ (src origin : Addr) (reason : HaltReason) (s : State), fromOther src s = true → addrOk origin = true →
      (s.tli.kind = .points → exec (.pointsHalt src origin reason) s =
        .next ((quiet s).setPa { (quiet s).pa with latch := some ⟨origin, reason⟩ })) ∧
      (s.tli.kind = .carriage →
        (s.cs.latch.isSome = true → exec (.halt src origin reason) s = .next (quiet s)) ∧
        (s.cs.latch = none →
          (s.cs.state ≠ .running → s.ce.span = none → exec (.halt src origin reason) s =
            .next ((quiet s).setCs { (quiet s).cs with latch := some ⟨origin, reason⟩ })) ∧
          (s.cs.state = .running → s.ce.span = none ∨ headWithin (outsideSpan s) s →
            ∃ t, exec (.halt src origin reason) s = .next t ∧
              t.cs = { s.cs with state := .halted, latch := some ⟨origin, reason⟩, watcher := none, stopCond := none } ∧
              t.ce.span = none ∧ t.eu = { s.eu with rest := decide (s.eu.demand = 0) && s.pu.standstill,
                                                    stopTarget := none } ∧
              t.cr = s.cr ∧ t.ds = s.ds ∧ t.ov = (quiet s).ov ∧ t.ce.attempts = s.ce.attempts ∧
              s.pu = { t.pu with timer := s.pu.timer } ∧
              (s.ce.span.isSome = true → t.ce.abort.map AbortRec.reason = some .halted ∧ t.ce.own = outsideSpan s) ∧
              (s.ce.span = none → t.os = s.os ∧
                s.ce = { t.ce with refresh := s.ce.refresh, refreshOut := s.ce.refreshOut }))))) ∧
  (∀ (src : Addr) (token : Nat) (s : State),
      exec .resumeWindowExpiry s = .next (match s.tli.kind with
        | .carriage => s.setCs { s.cs with watcher := none }
        | .points => s.setPa { s.pa with watcher := none }) ∧
      (fromOther src s = true → token ≤ 65535 →
        (s.tli.kind = .carriage →
          (s.cs.console = some src → exec (.resumeA src token) s =
            .next ((quiet s).setCs { (quiet s).cs with watcher := some ⟨src, token, 0⟩ })) ∧
          (s.cs.console ≠ some src → exec (.resumeA src token) s = .next (quiet s)) ∧
          ((∀ w, s.cs.watcher = some w → w.sender ≠ src ∨ w.token ≠ token) →
            exec (.resumeB src token) s = .next (quiet s)) ∧
          (∀ w, s.cs.watcher = some w → w.sender = src → w.token = token → s.cs.latch.isSome = true →
            ((s.cs.state = .ready ∨ s.cs.state = .parked → s.os.active = none) →
              ∃ t, exec (.resumeB src token) s = .next t ∧ t.cs.latch = none ∧ t.cs.watcher = none ∧
                (s.cs.state = .halted → (s.eu.padStop = false ∨ s.eu.demand ≠ 0 ∨ s.pu.standstill = false) →
                  t.cs.state = .running ∧ t.os = s.os ∧ t.eu.demand = s.eu.demand ∧ t.ce.own = s.ce.own) ∧
                (s.cs.state ≠ .halted →
                  t.cs.state = s.cs.state ∧ t.os = s.os ∧ t.eu = s.eu ∧ t.ce.own = s.ce.own)) ∧
            (∀ a r p, s.cs.state = .halted → s.eu.padStop = true → s.eu.demand = 0 → s.pu.standstill = true →
              s.os.active = some a → s.pu.route = some r → s.pu.padRead = some p → s.os.pending = none →
              s.ce.span = none → (lastPad a.ord).any PadSpec.dock = false →
              ∃ t, exec (.resumeB src token) s = .next t ∧ t.cs.state = .ready ∧ t.cs.latch = none ∧ t.os.active = none ∧
                (s.tli.clash = false → ∀ c, s.cs.console = some c → queued (.report c
                  { subject := .orderEnd, oid := a.ord.id,
                    outcome := if (r.x - p).natAbs ≤ (cfg s).dockTol then .completed else .failed .misaligned }) t)) ∧
            (∀ a, s.cs.state = .ready ∨ s.cs.state = .parked → s.os.active = some a → a.phase = .waiting →
              (startsClean a.ord s → ∃ t, exec (.resumeB src token) s = .next t ∧ t.cs.latch = none ∧
                t.os.active.map (fun b => (b.ord, b.phase)) = some (a.ord, .underway) ∧
                (s.cs.state = .ready → t.cs.state = .running) ∧
                (s.cs.state = .parked → s.ds.pos ≠ .up → t.cs.state = .undocking)) ∧
              (firstLegOk a.ord s = false → s.os.pending = none → ∃ t, exec (.resumeB src token) s = .next t ∧
                t.cs.latch = none ∧ t.os.active = none ∧ t.cs.state = s.cs.state ∧
                (s.tli.clash = false → ∀ c, s.cs.console = some c → queued (.report c
                  { subject := .order, outcome := .refused (.badOrder .firstLeg 0), oid := a.ord.id }) t))))) ∧
        (s.tli.kind = .points →
          (s.pa.console = some src → exec (.resumeA src token) s =
            .next ((quiet s).setPa { (quiet s).pa with watcher := some ⟨src, token, 0⟩ })) ∧
          (s.pa.console ≠ some src → exec (.resumeA src token) s = .next (quiet s)) ∧
          ((∀ w, s.pa.watcher = some w → w.sender ≠ src ∨ w.token ≠ token) →
            exec (.resumeB src token) s = .next (quiet s)) ∧
          (∀ w, s.pa.watcher = some w → w.sender = src → w.token = token → s.pa.latch.isSome = true →
            exec (.resumeB src token) s =
              .next (serveAfter (quiet s) ((quiet s).setPa { (quiet s).pa with latch := none }))))))

/-! ## The Occupancy View -/

/-- A RELEASE removes, for each id it carries, the sender's entry on that segment, whatever the entry's state; every other
entry stays, and a removal that leaves 87 entries or fewer clears VIEW_FULL (R24, R23). -/
def Obligations.ReleaseApplied : Prop :=
  ∀ (src : Addr) (segs : List Seg) (s : State), s.tli.kind = .carriage → fromOther src s = true → releaseWf segs = true →
    let left := s.ov.claims.filter (fun e => !(decide (e.holder = src) && decide (e.seg ∈ segs)))
    ∃ t, exec (.release src segs) s = .next t ∧ t.ov.claims = left ∧
      t.ov.viewFull = (if left.length < s.ov.claims.length ∧ left.length ≤ 87 then false else s.ov.viewFull) ∧
      t.ov.pointsTab = s.ov.pointsTab ∧ t.ov.posTab = s.ov.posTab ∧
      t.ce = s.ce ∧ t.os = s.os ∧ t.pu = s.pu ∧ t.eu = s.eu ∧ t.cr = s.cr ∧ t.ds = s.ds ∧ t.cs.state = s.cs.state

/-- A CLAIM's entries, one to four, are applied one at a time, in the order the frame carries them, each to the view as
the ones before it left it: stored over the sender's entry on the segment, as a new entry while fewer than 96 are held,
and otherwise lost, which sets VIEW_FULL and leaves the entries after it to be applied; a stored entry's age is 0 and
its refresh period clamped (R22, R23). Nothing else changes where no entry names an own claim's segment. A claim entry
at four refresh periods is deleted when TENTATIVE, which may clear VIEW_FULL, and otherwise takes the STALE mark and
stays (R26). -/
def Obligations.ClaimStored : Prop :=
  (∀ (src : Addr) (cls : Nat) (period : Ms) (items : List ClaimItem) (s : State), s.tli.kind = .carriage →
      fromOther src s = true → claimWf cls period items = true →
      ∃ t, exec (.claim src cls period items) s = .next t ∧
        t.ov = items.foldl (viewWith src cls period) (quiet s).ov ∧
        ((∀ i ∈ items, ∀ e ∈ s.ce.own, e.seg ≠ i.seg) → t = (quiet s).setOv t.ov)) ∧
  (∀ (src : Addr) (cls : Nat) (period : Ms) (i : ClaimItem) (rest : List ClaimItem) (v : OccView),
      let e : ClaimEntry := ⟨src, i.seg, i.dir, i.st, i.convoy, cls, max 200 (min 1000 period), 0, false⟩
      let applied (w : OccView) : Prop :=
        (i :: rest).foldl (viewWith src cls period) v = rest.foldl (viewWith src cls period) w
      ((∃ k ∈ v.claims, k.holder = src ∧ k.seg = i.seg) →
        applied { v with claims := v.claims.map (fun k => if k.holder = src ∧ k.seg = i.seg then e else k) }) ∧
      ((∀ k ∈ v.claims, ¬(k.holder = src ∧ k.seg = i.seg)) →
        (v.claims.length < 96 → applied { v with claims := v.claims ++ [e] }) ∧
        (96 ≤ v.claims.length → applied { v with viewFull := true }))) ∧
  (∀ (e : ClaimEntry) (before after : List ClaimEntry) (s : State), s.tli.kind = .carriage →
      s.ov.claims = before ++ e :: after → e.stale = false → e.age = 4 * e.period →
      (∀ k ∈ before ++ after, ¬(k.holder = e.holder ∧ k.seg = e.seg)) →
      (e.st = .tentative → exec (.claimEntryStale e.holder e.seg) s = .next (s.setOv
        { s.ov with claims := before ++ after,
                    viewFull := s.ov.viewFull && !decide ((before ++ after).length ≤ 87) })) ∧
      (e.st ≠ .tentative → exec (.claimEntryStale e.holder e.seg) s = .next (s.setOv
        { s.ov with claims := before ++ { e with stale := true } :: after })))

/-- A POSITION with a position is stored over its sender's entry, or in a free entry, with age 0 and no stale mark; one of
an UNCOMMISSIONED or UNLOCATED carriage removes its entry. With 16 entries, the one evicted is, the leader's apart, the
first by R36's preferences: not on route, then stale, then the greatest age, then the highest address; its place goes to the
notice, and every other entry stays; but with every candidate on route an off-route notice is dropped (R34, R36). -/
def Obligations.PositionStored : Prop :=
  ∀ (src : Addr) (n : PositionNotice) (s : State), s.tli.kind = .carriage → fromOther src s = true → n.wf = true →
    let e : PosEntry := ⟨src, n.headSeg, n.headOff, n.tailSeg, n.tailOff, n.state,
      if n.period = 0 then 0 else max n.period 100, 0, false⟩
    let stored (tab : List PosEntry) : Host.Outcome State Fault Refusal :=
      .next ((quiet s).setOv { (quiet s).ov with posTab := tab })
    let onRoute (k : PosEntry) : Prop := ∃ a j l, s.os.active = some a ∧ a.phase ≠ .waiting ∧ a.headLeg ≤ j ∧
      legAt a.ord.legs j = some l ∧ (l.seg = k.headSeg ∨ l.seg = k.tailSeg)
    let ahead (v k : PosEntry) : Prop := (¬ onRoute v ∧ onRoute k) ∨ ((onRoute v ↔ onRoute k) ∧
      ((v.stale = true ∧ k.stale = false) ∨ (v.stale = k.stale ∧
        (k.age < v.age ∨ (k.age = v.age ∧ k.carriage ≤ v.carriage)))))
    let candidate (k : PosEntry) : Prop := k ∈ s.ov.posTab ∧ ∀ l, s.cr.leader = some l → l.addr ≠ k.carriage
    ((n.state = .uncommissioned ∨ n.state = .unlocated) → exec (.position src n) s =
      stored (s.ov.posTab.filter (fun k => decide (k.carriage ≠ src)))) ∧
    (n.state ≠ .uncommissioned → n.state ≠ .unlocated →
      ((∃ k ∈ s.ov.posTab, k.carriage = src) → exec (.position src n) s =
        stored (s.ov.posTab.map (fun k => if k.carriage = src then e else k))) ∧
      ((∀ k ∈ s.ov.posTab, k.carriage ≠ src) →
        (s.ov.posTab.length < 16 → exec (.position src n) s = stored (s.ov.posTab ++ [e])) ∧
        (16 ≤ s.ov.posTab.length → (∃ k, candidate k) →
          ∃ v, candidate v ∧ (∀ k, candidate k → ahead v k) ∧
            (onRoute v → ¬ onRoute e → exec (.position src n) s = .next (quiet s)) ∧
            (¬ onRoute v ∨ onRoute e → exec (.position src n) s =
              stored (s.ov.posTab.filter (fun k => decide (k.carriage ≠ v.carriage)) ++ [e])))))

/-- A position entry takes the stale mark when its age reaches its stale limit, the greater of three periods and 750 ms, or
10,000 ms for period 0; it stays in the table with all its other fields, and the next POSITION of its carriage that carries
a position clears the mark (R35). -/
def Obligations.PositionGoesStale : Prop :=
  ∀ (e : PosEntry) (before after : List PosEntry) (s : State), s.tli.kind = .carriage →
    s.ov.posTab = before ++ e :: after → e.stale = false →
    e.age = (if e.period = 0 then 10000 else max (3 * e.period) 750) → (∀ k ∈ before ++ after, k.carriage ≠ e.carriage) →
    let marked := s.setOv { s.ov with posTab := before ++ { e with stale := true } :: after }
    exec (.positionEntryStale e.carriage) s = .next marked ∧
    (∀ n : PositionNotice, n.wf = true → n.state.carriesPosition = true → fromOther e.carriage s = true →
      ∃ t k, exec (.position e.carriage n) marked = .next t ∧ k ∈ t.ov.posTab ∧ k.carriage = e.carriage ∧
        k.stale = false ∧ k.age = 0)

/-- A POINTS notice replaces its sender's entry in the points table, or takes a free one; where no own claim names the node
it changes nothing else, and with 16 entries one not in use gives way (R31, R32). What it says of the node's state: FAILED,
where a held claim the head has reached, or one REAR or NONE, names the node, raises POINTS_LOST naming its segment (R103);
where the claims held for it all lie ahead, pulls the order back to the first of them, counted, with the failed-points hold
set (R102); and where a span's leg names it, aborts the span POINTS_FAILED under the hold (R53); any other state clears the
hold (R61). -/
def Obligations.PointsStored : Prop :=
  ∀ (src : Addr) (n : PointsNotice) (s : State), s.tli.kind = .carriage → fromOther src s = true → n.wf = true →
    let e : PointsEntry := ⟨src, n.seg, n.state, n.holder, n.holderStale, n.pos, n.requester, n.code, 0⟩
    ((∀ o ∈ s.ce.own, namesNode src o = false) → s.ce.failedHold ≠ some src →
      ((∃ k ∈ s.ov.pointsTab, k.node = src) → exec (.points src n) s = .next ((quiet s).setOv
        { (quiet s).ov with pointsTab := s.ov.pointsTab.map (fun k => if k.node = src then e else k) })) ∧
      ((∀ k ∈ s.ov.pointsTab, k.node ≠ src) →
        (s.ov.pointsTab.length < 16 → exec (.points src n) s =
          .next ((quiet s).setOv { (quiet s).ov with pointsTab := s.ov.pointsTab ++ [e] })) ∧
        (16 ≤ s.ov.pointsTab.length → (∃ k ∈ s.ov.pointsTab, pointsInUse s k.node = false) →
          ∃ t v, exec (.points src n) s = .next t ∧ v ∈ s.ov.pointsTab ∧ pointsInUse s v.node = false ∧
            (∀ k ∈ s.ov.pointsTab, pointsInUse s k.node = false → k.age ≤ v.age) ∧
            t.ov.pointsTab = s.ov.pointsTab.filter (fun k => decide (k.node ≠ v.node)) ++ [e]))) ∧
    (n.state = .failed → ∀ o, s.ce.own.filter (namesNode src) = [o] → firmState o.st = true →
      (o.leg = .none ∨ o.leg = .rear ∨ ∃ k a r, o.leg = .leg k ∧ s.os.active = some a ∧ s.pu.route = some r ∧
        ((legStart a.ord.legs k : Nat) : Int) ≤ r.x) →
      s.cs.state ≠ .fault → s.ce.span = none → ∃ t, exec (.points src n) s = .next t ∧ t.cs.state = .fault ∧
        t.cs.fault = some ⟨.pointsLost, o.seg, 0, 0, none, false⟩ ∧ t.ce.lostMem = s.ce.lostMem ++ [src]) ∧
    (n.state = .failed → ∀ (before after : List OwnClaim) (o : OwnClaim) (j : Nat) (a : ActiveOrder) (r : Route),
      s.ce.own = before ++ o :: after → (s.ce.own.map OwnClaim.seg).Nodup → firmState o.st = true → o.leg = .leg j →
      namesNode src o = true → (∀ k ∈ before, firmState k.st = true → namesNode src k = false) →
      s.os.active = some a → a.phase = .underway → s.pu.route = some r → s.ce.span = none →
      (∀ k ∈ o :: after, firmState k.st = true → namesNode src k = true →
        ∃ i, k.leg = .leg i ∧ r.x < ((legStart a.ord.legs i : Nat) : Int)) → headWithin before s →
      let m := if s.ce.attemptLeg = some j then s.ce.attempts else 0
      m + 1 < 8 → ∃ t, exec (.points src n) s = .next t ∧ t.ce.own = before ∧
        t.os.active = some { a with nextClaim := j } ∧ t.ce.failedHold = some src ∧ t.ce.attempts = m + 1 ∧
        t.ce.abort = some ⟨.pointsFailed, o.seg, src, m + 1, a.ord.id⟩ ∧
        t.ce.backoff = some ⟨0, 250 * (m + 1) + 15 * s.tli.addr⟩ ∧ t.cs.state = s.cs.state ∧
        (s.tli.clash = false →
          (∀ k ∈ o :: after, ∃ ids, k.seg ∈ ids ∧ queued (.release ids) t) ∧
          (∀ p, o.points = some p → p.status ≠ .asked → queued (.pointsFree p.node) t))) ∧
    (n.state = .failed → ∀ sp o, s.ce.span = some sp → s.ce.own.filter (namesNode src) = [o] → inSpan sp o = true →
      o.st = .tentative → s.ce.attempts + 1 < 8 → headWithin (outsideSpan s) s →
      ∃ t, exec (.points src n) s = .next t ∧ t.ce.span = none ∧ t.ce.own = outsideSpan s ∧
        t.ce.abort.map (fun b => (b.reason, b.seg, b.rival)) = some (.pointsFailed, o.seg, src) ∧
        t.ce.attempts = s.ce.attempts + 1 ∧ t.ce.failedHold = some src ∧ t.cs.state = s.cs.state) ∧
    (n.state ≠ .failed → s.ce.failedHold = some src → ∃ t, exec (.points src n) s = .next t ∧ t.ce.failedHold = none)

/-! ## Held claims against claims heard -/

/-- A CLAIM heard, of one to four entries, is applied to the view, and then its entries are examined against the own
claims one at a time, in the frame's order, each on the state the ones before it left (R22, R30, R48, R72). One whose
segment no own claim names, or that is compatible with it, changes nothing. Of one that conflicts with an own claim: a
TENTATIVE one draws an OBJECT stating the own state while the own claim is held firm, or TENTATIVE while it belongs to
the span in flight with the better rank; a FIRM one against a held claim raises FIRM_CLASH, keeps the own entry, and
queues its CLAIM (R72, R73), which carries rank class 3 once the order is gone (assumption 25), and in FAULT it is taken
once for a sender and segment. -/
def Obligations.ClaimAnswered : Prop :=
  (∀ (src : Addr) (cls : Nat) (period : Ms) (items : List ClaimItem) (s : State), s.tli.kind = .carriage →
    fromOther src s = true → claimWf cls period items = true →
    exec (.claim src cls period items) s = .next (items.foldl (fun u i => examineItem src cls i u)
      ((quiet s).setOv (items.foldl (viewWith src cls period) (quiet s).ov)))) ∧
  (∀ (src : Addr) (cls : Nat) (i : ClaimItem) (s : State),
    ownOn s i.seg = none ∨ (∃ e, ownOn s i.seg = some e ∧ compatible e.dir e.convoy i.dir i.convoy = true) →
    examineItem src cls i s = s) ∧
  (∀ (src : Addr) (cls : Nat) (i : ClaimItem) (e : OwnClaim) (s : State), s.tli.kind = .carriage →
    ownOn s i.seg = some e → compatible e.dir e.convoy i.dir i.convoy = false →
    let t := examineItem src cls i s
    (i.st = .tentative → firmState e.st = true → (∀ sp, s.ce.span = some sp → inSpan sp e = false) →
      t.ce.own = s.ce.own ∧ t.ce.span = s.ce.span ∧ t.cs.state = s.cs.state ∧ t.os = s.os ∧ t.eu = s.eu ∧
        (s.tli.clash = false → queued (.object src i.seg e.st) t)) ∧
    (∀ sp, i.st = .tentative → s.ce.span = some sp → inSpan sp e = true → e.st = .tentative →
      outranks (ownClass s) s.tli.addr cls src = true →
      t.ce.own = s.ce.own ∧ t.ce.span = some sp ∧ t.cs.state = s.cs.state ∧ t.os = s.os ∧
        (s.tli.clash = false → queued (.object src i.seg .tentative) t)) ∧
    (i.st ≠ .tentative → firmState e.st = true → s.ce.span = none → s.cs.state ≠ .fault →
      t.cs.state = .fault ∧
        t.cs.fault = some ⟨.firmClash, i.seg, 0, 0, none, false⟩ ∧ (src, i.seg) ∈ t.ce.clashMem ∧
        t.eu.brake = .emergency ∧ (∃ o ∈ t.ce.own, o.seg = i.seg ∧ o.st = e.st) ∧
        (s.tli.clash = false → queued (.claim 3 (cfg s).refresh
          ((t.ce.own.filter (fun o => decide (o.seg = i.seg))).map itemOf)) t)) ∧
    (i.st ≠ .tentative → firmState e.st = true → s.ce.span = none → s.cs.state = .fault → (src, i.seg) ∈ s.ce.clashMem →
      t.cs.fault = s.cs.fault ∧ t.ce = s.ce))

/-- A span in flight aborts at a conflicting entry of a CLAIM on one of its segments, each entry examined as O44 says:
FIRM_CONFLICT at a FIRM one, OUTRANKED at a TENTATIVE one of a better rank, and OBJECTED at an OBJECT to this node, each
naming the segment and the sender (R48, R49). So does one whose points node, with an answer that is new, refuses its
ask: POINTS_REFUSED; the answer QUEUED sets the leg queued (R52). An OBJECT to another holder, or with no own claim on
the segment, or stating TENTATIVE against a held claim, is only heard, and one stating a firm claim against a held one
raises FIRM_CLASH (R74). -/
def Obligations.SpanContested : Prop :=
  (∀ (src target : Addr) (cls : Nat) (i : ClaimItem) (st : ClaimState) (s : State),
    s.tli.kind = .carriage → fromOther src s = true → addrOk target = true → segOk i.seg = true → s.tli.silent = false →
    (∀ (sp : Span) (e : OwnClaim), s.ce.span = some sp → ownOn s i.seg = some e → inSpan sp e = true →
      e.st = .tentative → s.ce.attempts + 1 < 8 → headWithin (outsideSpan s) s →
      (compatible e.dir e.convoy i.dir i.convoy = false →
        let t := examineItem src cls i s
        (i.st ≠ .tentative → t.ce.span = none ∧
          t.ce.abort.map (fun a => (a.reason, a.seg, a.rival)) = some (.firmConflict, i.seg, src) ∧
          t.ce.attempts = s.ce.attempts + 1 ∧ t.ce.own = outsideSpan s ∧ t.cs.state = s.cs.state) ∧
        (i.st = .tentative → outranks cls src (ownClass s) s.tli.addr = true → t.ce.span = none ∧
          t.ce.abort.map (fun a => (a.reason, a.seg, a.rival)) = some (.outranked, i.seg, src) ∧
          t.ce.attempts = s.ce.attempts + 1 ∧ t.ce.own = outsideSpan s ∧ t.cs.state = s.cs.state)) ∧
      (target = s.tli.addr → ∃ t, exec (.object src target i.seg st) s = .next t ∧ t.ce.span = none ∧
        t.ce.abort.map (fun a => (a.reason, a.seg, a.rival)) = some (.objected, i.seg, src) ∧
        t.ce.attempts = s.ce.attempts + 1)) ∧
    (target ≠ s.tli.addr ∨ ownOn s i.seg = none ∨
        (st = .tentative ∧ ∃ e, ownOn s i.seg = some e ∧ firmState e.st = true) →
      exec (.object src target i.seg st) s = .next (quiet s)) ∧
    (∀ e, target = s.tli.addr → ownOn s i.seg = some e → firmState e.st = true → st ≠ .tentative →
      s.cs.state ≠ .fault → ∃ t, exec (.object src target i.seg st) s = .next t ∧ t.cs.state = .fault ∧
        t.cs.fault = some ⟨.firmClash, i.seg, 0, 0, none, false⟩)) ∧
  (∀ (src : Addr) (n : PointsNotice) (sp : Span) (o : OwnClaim) (p : OwnPoints) (s : State), s.tli.kind = .carriage →
    fromOther src s = true → n.wf = true → n.state ≠ .failed → s.ce.span = some sp →
    s.ce.own.filter (namesNode src) = [o] → inSpan sp o = true → o.st = .tentative → o.points = some p →
    p.status = .asked ∨ p.status = .queued → n.requester = s.tli.addr → s.tli.addr ≠ 0 →
    (∀ k ∈ s.ov.pointsTab, k.node = src → k.requester ≠ s.tli.addr ∨ k.code ≠ n.code) →
    (n.code ≠ .queued → n.code ≠ .granted → s.ce.attempts + 1 < 8 → headWithin (outsideSpan s) s →
      ∃ t, exec (.points src n) s = .next t ∧ t.ce.span = none ∧ t.ce.own = outsideSpan s ∧
        t.ce.abort.map (fun a => (a.reason, a.seg, a.rival)) = some (.pointsRefused, o.seg, src) ∧
        t.ce.attempts = s.ce.attempts + 1 ∧ t.cs.state = s.cs.state) ∧
    (n.code = .queued → n.holder ≠ s.tli.addr → ∃ t, exec (.points src n) s = .next t ∧ t.ce.span = some sp ∧
      t.cs.state = s.cs.state ∧ t.ce.own = s.ce.own.map (fun k =>
        if namesNode src k then { k with points := k.points.map (fun q => { q with status := .queued }) } else k)))

/-! ## The span transaction and the refresh -/

/-- Two claims on one segment are compatible exactly when both carry the convoy mark and both name the same direction; and
the blocking test answers an entry that conflicts and is FIRM, STANDING, STALE, or TENTATIVE of a better rank (R27, R28). An
acquisition starts exactly where the conditions of R42 hold, with the lookahead of R43, and the next leg to claim lies on no
segment held; where they do not hold, nothing starts. It takes, from that leg, as many legs as the span limit, four, the
free entries, the route and the segments held leave it (R44). Then it makes its local check: with every leg clear the span
is announced, its TENTATIVE entries, CLAIM and POINTS-ASKs queued (R45, R46); VIEW_FULL or the first blocked leg aborts it,
counted, with nothing sent and the own list as it was (R45, R57 to R59). -/
def Obligations.SpanOpened : Prop :=
  ((∀ (d₁ d₂ : Dir) (c₁ c₂ : Bool), compatible d₁ c₁ d₂ c₂ = true ↔ c₁ = true ∧ c₂ = true ∧ d₁ = d₂) ∧
    ∀ (s : State) (g : Seg) (d : Dir) (c : Bool) (cls : Nat),
      let blocking (e : ClaimEntry) : Prop := e ∈ s.ov.claims ∧ e.seg = g ∧ ¬(c = true ∧ e.convoy = true ∧ d = e.dir) ∧
        (e.st = .firm ∨ e.st = .standing ∨ e.stale = true ∨ e.cls < cls ∨ (e.cls = cls ∧ e.holder < s.tli.addr))
      (blockedBy s g d c cls = none ↔ ∀ e, ¬ blocking e) ∧
      (∀ h, blockedBy s g d c cls = some h → ∃ e, blocking e ∧ e.holder = h ∧
        ∀ f, blocking f → e.cls < f.cls ∨ (e.cls = f.cls ∧ e.holder ≤ f.holder))) ∧
  (∀ (a : ActiveOrder) (s : State), s.os.active = some a →
      let v := if s.eu.gust then (cfg s).gust else (cfg s).ceiling
      (acquisitionReady s = true ↔ ∃ r, s.pu.route = some r ∧ s.cs.state = .running ∧ a.phase = .underway ∧
        s.ce.span = none ∧ s.ce.backoff = none ∧ a.nextClaim ≤ a.ord.legs.length ∧ s.cs.latch = none ∧
        s.ov.listen = none ∧ s.tli.silent = false ∧ s.ce.own.length < 12 ∧ s.ce.failedHold = none ∧
        (s.ce.exempt = true ∨ (((s.ce.firmEnd.getD 0 - (cfg s).margin : Nat) : Int) - r.x ≤
          ((2 * (v * v / (2 * (cfg s).decel)) + (cfg s).margin : Nat) : Int))) ∧
        (∀ l, legAt a.ord.legs a.nextClaim = some l → ∀ e ∈ s.ce.own, e.seg ≠ l.seg)) ∧
      (∀ limit, let legs := chooseSpan a limit s
        let next := a.nextClaim - 1 + legs.length
        legs = (a.ord.legs.drop (a.nextClaim - 1)).take legs.length ∧ legs.length ≤ 4 ∧ legs.length ≤ limit ∧
        legs.length ≤ 12 - s.ce.own.length ∧ (∀ l ∈ legs, ∀ e ∈ s.ce.own, e.seg ≠ l.seg) ∧
        (legs.length = 4 ∨ legs.length = limit ∨ 12 ≤ s.ce.own.length + legs.length ∨ a.ord.legs.length ≤ next ∨
          ∃ l, a.ord.legs[next]? = some l ∧ ∃ e ∈ s.ce.own, e.seg = l.seg))) ∧
  (∀ (a : ActiveOrder) (s : State), s.tli.kind = .carriage → s.os.active = some a →
      (acquisitionReady s = false → exec .spanAcquisitionStart s = .next (s.setCe { s.ce with triggered := false })) ∧
      (acquisitionReady s = true →
        let n := if s.ce.attemptLeg = some a.nextClaim then s.ce.attempts else 0
        let limit := if s.ce.attemptLeg = some a.nextClaim then s.ce.spanLimit else 4
        let legs := chooseSpan a limit s
        (s.ov.viewFull = false → legs ≠ [] →
          (∀ l ∈ legs, blockedBy s l.seg l.dir l.convoy a.ord.cls = none) →
          headWithin (s.ce.own ++ spanEntries a.nextClaim legs) s →
          ∃ t, exec .spanAcquisitionStart s = .next t ∧
            t.ce.span = some ⟨a.nextClaim, legs.length, .contest, false, none, none, n + 1, []⟩ ∧
            t.ce.own = s.ce.own ++ spanEntries a.nextClaim legs ∧ t.ce.exempt = false ∧
            t.os.active = some { a with nextClaim := a.nextClaim + legs.length } ∧
            (s.tli.clash = false →
              queued (.claim a.ord.cls (cfg s).refresh ((spanEntries a.nextClaim legs).map itemOf)) t ∧
              (∀ l ∈ legs, ∀ p, l.points = some p → queued (.pointsAsk p.node p.pos a.ord.cls a.ord.id) t))) ∧
        (n + 1 < 8 →
          (s.ov.viewFull = true → ∃ t, exec .spanAcquisitionStart s = .next t ∧ t.ce.span = none ∧ t.ce.own = s.ce.own ∧
            t.os = s.os ∧ t.tli = s.tli ∧ t.ce.attempts = n + 1 ∧ t.ce.spanLimit = limit ∧
            t.ce.abort = some ⟨.viewFull, (legs.map Leg.seg).headD 0, 0, n + 1, a.ord.id⟩ ∧
            t.ce.backoff = some ⟨0, 250 * (n + 1) + 15 * s.tli.addr⟩) ∧
          (∀ (i : Nat) (l : Leg) (h : Addr), s.ov.viewFull = false → legs[i]? = some l →
            blockedBy s l.seg l.dir l.convoy a.ord.cls = some h →
            (∀ m ∈ legs.take i, blockedBy s m.seg m.dir m.convoy a.ord.cls = none) →
            ∃ t, exec .spanAcquisitionStart s = .next t ∧ t.ce.span = none ∧ t.ce.own = s.ce.own ∧ t.os = s.os ∧
              t.tli = s.tli ∧ t.ce.attempts = n + 1 ∧ t.ce.spanLimit = (if 1 ≤ i then min limit i else limit) ∧
              t.ce.abort = some ⟨.localConflict, l.seg, h, n + 1, a.ord.id⟩ ∧
              t.ce.backoff = some ⟨0, 250 * (n + 1) + 15 * s.tli.addr⟩))))

/-- The granted question asks the points table for an entry of the node that is held by this station, not stale, for
the leg's segment and position, with the points locked there (R33). At the close of the window in CONTEST it is asked
for every points leg of the span, and its answers grade their statuses, by the model's choice (assumption 62): where
every one is granted the span commits, its entries FIRM, their CLAIM queued, the attempt state reset and the firm end
handed on, and an ask that still waits is the span's no more (assumption 49); any other enters POINTS_WAIT (R54, R55).
A notice that grants a span's leg makes its status granted, and one that no longer does makes it queued, or freed
where the claim is held; in POINTS_WAIT the notice that completes the grants commits the span (R53, R70, R56). That an
expiry given for a span not announced, or not in CONTEST, changes nothing is the model's reading (assumption 4). -/
def Obligations.WindowCloses : Prop :=
  (∀ (s : State) (node : Addr) (g : Seg) (p : PointsPos), tableGrants s node g p = true ↔
      ∃ k ∈ s.ov.pointsTab, k.node = node ∧ k.seg = g ∧ k.holder = s.tli.addr ∧ k.holderStale = false ∧ k.pos = p ∧
        k.state = lockedAt p) ∧
  (∀ (sp : Span) (s : State), s.tli.kind = .carriage → s.ce.span = some sp →
      let own := s.ce.own.map (fun e => if inSpan sp e then
        { e with st := .firm, points := e.points.map (fun p => { p with status := .granted }) } else e)
      ((sp.phase = .pointsWait ∨ sp.window = none) → exec .contestWindowExpiry s = .next s) ∧
      (sp.phase = .contest → sp.window.isSome = true →
        ((∃ e ∈ s.ce.own, inSpan sp e = true ∧ ∃ p, e.points = some p ∧ tableGrants s p.node e.seg p.pos = false) →
          exec .contestWindowExpiry s = .next (s.setCe
            { s.ce with span := some { sp with phase := .pointsWait, window := some 400 },
                        own := s.ce.own.map (fun e => if inSpan sp e then { e with points := e.points.map (fun p =>
                          { p with status := if tableGrants s p.node e.seg p.pos then .granted
                                             else if p.status = .granted then .queued else p.status }) } else e) })) ∧
        ((∀ e ∈ s.ce.own, inSpan sp e = true → ∀ p, e.points = some p → tableGrants s p.node e.seg p.pos = true) →
          headWithin own s →
          ∃ t, exec .contestWindowExpiry s = .next t ∧ t.ce.own = own ∧ t.ce.span = none ∧ t.ce.attempts = 0 ∧
            t.ce.spanLimit = 4 ∧ t.ce.attemptLeg = none ∧ t.os = s.os ∧ t.pu = s.pu ∧ t.cs = s.cs ∧
            t.ce.firmEnd = firmEndOf (s.setCe { s.ce with own := own }) ∧
            (∀ k ∈ t.tli.txq, ∀ node g, k.tag = .ask node g → k.withdrawn = true) ∧
            (s.tli.clash = false → (∃ e ∈ own, inSpan sp e = true) →
              queued (.claim (claimClass s) (cfg s).refresh ((own.filter (inSpan sp)).map itemOf)) t)))) ∧
  (∀ (src : Addr) (n : PointsNotice) (s : State), s.tli.kind = .carriage → fromOther src s = true → n.wf = true →
      n.state ≠ .failed → (n.requester ≠ s.tli.addr ∨ n.code = .granted) →
      let grants (e : OwnClaim) (p : OwnPoints) : Bool := decide (n.seg = e.seg) && decide (n.holder = s.tli.addr) &&
        !n.holderStale && decide (n.pos = p.pos) && decide (n.state = lockedAt p.pos)
      let grade (e : OwnClaim) (p : OwnPoints) : PtStatus :=
        if p.node ≠ src then p.status
        else if grants e p then (if e.st = .tentative ∨ p.status = .freed then .granted else p.status)
        else if p.status = .granted then (if e.st = .tentative then .queued else .freed) else p.status
      let graded (e : OwnClaim) : OwnClaim := { e with points := e.points.map (fun p => { p with status := grade e p }) }
      ((∀ sp, s.ce.span = some sp → sp.phase = .contest) → ∃ t, exec (.points src n) s = .next t ∧
        t.ce.own = s.ce.own.map graded ∧ t.ce.span = s.ce.span ∧ t.os = s.os ∧ t.cs.state = s.cs.state) ∧
      (∀ sp, s.ce.span = some sp → sp.phase = .pointsWait →
        (∃ e ∈ s.ce.own, inSpan sp e = true ∧ namesNode src e = true) →
        (∀ e ∈ s.ce.own, inSpan sp e = true → e.st = .tentative ∧ ∀ p, e.points = some p →
          (p.node = src ∧ grants e p = true) ∨ (p.node ≠ src ∧ p.status = .granted)) →
        let own := s.ce.own.map (fun e => if inSpan sp e then { graded e with st := .firm } else graded e)
        headWithin own s → ∃ t, exec (.points src n) s = .next t ∧ t.ce.own = own ∧ t.ce.span = none ∧
          t.ce.attempts = 0 ∧ t.ce.spanLimit = 4 ∧ t.os = s.os ∧ t.cs.state = s.cs.state ∧
          (s.tli.clash = false →
            queued (.claim (claimClass s) (cfg s).refresh ((own.filter (inSpan sp)).map itemOf)) t)))

/-- The reasons that count as attempts are the nine of R58, and those that may shrink the span limit the four of R59; the
position of a segment is its place in the span, from 1. An abort after the local check: the span's entries leave the own
list, the next leg to claim returns to its first leg, an announced span is released and its acknowledged asks freed, and the
record is written (R57). A counted one raises the attempt counter and starts the backoff, and one of the four conflicts at
position 2 or more shrinks the span limit (R58, R59); the eighth starts no backoff and blocks the route: the order enters
ENDING, and a carriage at rest ends it FAILED ROUTE_BLOCKED (R60, R18). The points wait, run out in POINTS_WAIT, so aborts
naming the first points leg not granted (R56); that it changes nothing in CONTEST is the model's reading (assumption 4). -/
def Obligations.SpanAborts : Prop :=
  (∀ r : AbortReason,
    (counts r = true ↔ r ∈ [AbortReason.localConflict, .viewFull, .outranked, .firmConflict, .objected, .pointsNoAck,
      .pointsRefused, .pointsTimeout, .pointsFailed]) ∧
    (counts r = false ↔ r ∈ [AbortReason.halted, .lineSilent, .stopped, .faulted]) ∧
    (shrinks r = true ↔ r ∈ [AbortReason.localConflict, .outranked, .firmConflict, .objected])) ∧
  (∀ (g : Seg) (s : State),
    (∀ i, (spanSegs s)[i]? = some g → g ∉ (spanSegs s).take i → spanPos g s = i + 1) ∧
    (g ∉ spanSegs s → spanPos g s = 0)) ∧
  ∀ (reason : AbortReason) (seg : Seg) (rival : Addr) (sp : Span) (s : State), s.ce.span = some sp →
    (headWithin (outsideSpan s) s →
      let t := spanAbort reason seg rival s
      t.ce.span = none ∧
      t.ce.abort = some ⟨reason, seg, rival, sp.attempt, (s.os.active.map (fun a => a.ord.id)).getD 0⟩ ∧
      t.ce.abortCount = min (s.ce.abortCount + 1) 65535 ∧
      (s.tli.clash = false →
        (sp.announced = true → ∀ g ∈ spanSegs s, ∃ ids, g ∈ ids ∧ queued (.release ids) t) ∧
        (∀ n ∈ sp.acked, queued (.pointsFree n) t)) ∧
      (counts reason = false ∨ s.ce.attempts + 1 < 8 → t.ce.own = outsideSpan s ∧
        t.os.active = s.os.active.map (fun a => { a with nextClaim := sp.first }) ∧ t.cs = s.cs ∧ t.eu = s.eu) ∧
      (counts reason = false → t.ce.attempts = s.ce.attempts ∧ t.ce.backoff = s.ce.backoff ∧
        t.ce.spanLimit = s.ce.spanLimit) ∧
      (counts reason = true → s.ce.attempts + 1 < 8 → t.ce.attempts = s.ce.attempts + 1 ∧
        t.ce.backoff = some ⟨0, 250 * (s.ce.attempts + 1) + 15 * s.tli.addr⟩ ∧
        t.ce.spanLimit = (if shrinks reason = true ∧ 2 ≤ spanPos seg s then min s.ce.spanLimit (spanPos seg s - 1)
                          else s.ce.spanLimit)) ∧
      (∀ a, counts reason = true → 8 ≤ s.ce.attempts + 1 → s.os.active = some a →
        (s.eu.demand ≠ 0 ∨ s.pu.standstill = false ∨ movingState s.cs.state = false →
          t.os.active = some { a with phase := .ending, nextClaim := sp.first } ∧ t.ce.own = outsideSpan s ∧
          t.ce.attempts = s.ce.attempts + 1 ∧ t.ce.backoff = s.ce.backoff ∧ t.cs = s.cs ∧ t.eu = s.eu) ∧
        (s.eu.demand = 0 → s.pu.standstill = true → movingState s.cs.state = true → s.os.pending = none →
          t.os.active = none ∧ t.cs.state = .ready ∧ t.ce.attempts = 0 ∧ t.eu.brake = .service ∧
          (s.tli.clash = false → ∀ c, console s = some c → queued (.report c
            { subject := .orderEnd, outcome := .failed .routeBlocked, oid := a.ord.id }) t)))) ∧
    (∀ (e : OwnClaim) (p : OwnPoints), s.tli.kind = .carriage → sp.phase = .pointsWait →
      (s.ce.own.filter (inSpan sp)).find? (fun o => o.points.any (fun q => decide (q.status ≠ .granted))) = some e →
      e.points = some p → exec .pointsTimeout s = .next (spanAbort .pointsTimeout e.seg p.node s)) ∧
    (s.tli.kind = .carriage → sp.phase = .contest → exec .pointsTimeout s = .next s)

/-- The end of the backoff does nothing but test the conditions of R42 (R58), and so does the end of listen-in, which
takes a held location first (R37, R75, R118); that the acquisition itself follows as its own step is assumption 8. At a
refresh with no unannounced span in flight, and room to send, every entry of the own list is announced again, the list
unchanged and the countdown stopped until the frames have gone; with nothing to send it restarts at once (R68). At the
end of the effective position period a POSITION of the state as it stands is queued (R120), and the period restarts also
where a full queue discards the notice, by the model's choice (assumption 78). What a POSITION carries (R119): the
carriage state, the measured speed (R108), the effective period (R120), and while located the segment and offset of the
notice head and of the other end: those of the end records in the end form, with the direction from the tail toward the
head, and in the route form those of R109, held within the leg, with the direction of the head leg; while not located 0,
0 and UP. A tail on a rear segment run DOWN is held at offset 0 (R109); that one on a rear segment run UP is held at 0
too is the model's reading (assumption 51). An offset above its 20-bit field is sent as a free value (assumption 40). The effective period is the
commissioned one, or 250 while an own claim carries the convoy mark, unless the commissioned one is shorter and not 0
(R120). That an expiry given while its timer is stopped changes nothing is the model's reading (assumption 4). -/
def Obligations.CarriageTimers : Prop :=
  (∀ s : State,
    let n := positionNotice s
    let carries (field offset : Mm) : Prop := offset ≤ 1048575 → field = offset
    let onLeg (l : Leg) (travel : Int) : Mm := match l.dir with
      | .up => min travel.toNat l.len
      | .down => l.len - min travel.toNat l.len
    let start (a : ActiveOrder) (k : Nat) : Mm := ((a.ord.legs.take (k - 1)).map Leg.len).sum
    n.state = s.cs.state ∧ n.speed = min (10 * s.pu.window.sum.natAbs) 4095 ∧ n.period = effPeriod s ∧
    (s.cs.comm = none → effPeriod s = 0) ∧
    (∀ c, s.cs.comm = some c →
      ((∀ e ∈ s.ce.own, e.convoy = false) → effPeriod s = c.posPeriod) ∧
      ((∃ e ∈ s.ce.own, e.convoy = true) → effPeriod s = if c.posPeriod = 0 then 250 else min c.posPeriod 250)) ∧
    (s.pu.known = false → n.headSeg = 0 ∧ n.headOff = 0 ∧ n.tailSeg = 0 ∧ n.tailOff = 0 ∧ n.dir = .up) ∧
    (s.pu.known = true → s.pu.route = none → ∀ a b, s.pu.endA = some a → s.pu.endB = some b →
      (s.pu.noticeHead = some .a → n.headSeg = a.seg ∧ carries n.headOff a.off ∧ n.tailSeg = b.seg ∧
        carries n.tailOff b.off ∧ n.dir = a.aSense) ∧
      (s.pu.noticeHead = some .b → n.headSeg = b.seg ∧ carries n.headOff b.off ∧ n.tailSeg = a.seg ∧
        carries n.tailOff a.off ∧ n.dir = flip b.aSense)) ∧
    (s.pu.known = true → ∀ r a l, s.pu.route = some r → s.os.active = some a → s.pu.noticeHead = some a.ord.lead →
      legAt a.ord.legs a.headLeg = some l →
      let tail : Int := r.x - (cfg s).length + r.trim
      n.dir = l.dir ∧ n.headSeg = l.seg ∧ carries n.headOff (onLeg l (r.x - start a a.headLeg)) ∧
      (∀ k m, a.tailLeg = .leg k → legAt a.ord.legs k = some m →
        n.tailSeg = m.seg ∧ carries n.tailOff (onLeg m (tail - start a k))) ∧
      (∀ k, a.tailLeg = .rear → a.rear = some k → n.tailSeg = k.seg ∧
        (k.dir = .up → carries n.tailOff (r.rearOff + (tail - r.tail0)).toNat) ∧
        (k.dir = .down → carries n.tailOff (r.rearOff - (tail - r.tail0)).toNat)))) ∧
  ∀ s : State, s.tli.kind = .carriage →
    (s.ce.backoff.isSome = true → exec .backoffExpiry s = .next (s.setCe
      { s.ce with backoff := none,
                  triggered := s.ce.triggered || acquisitionReady (s.setCe { s.ce with backoff := none }) })) ∧
    (s.ce.refresh.isSome = true →
      (s.ce.own = [] → exec .refreshExpiry s =
        .next (s.setCe { s.ce with refresh := some 0, refreshOut := false })) ∧
      (s.ce.own ≠ [] → s.ce.own.length ≤ 12 → s.tli.txq.length ≤ 7 → s.tli.clash = false →
        (∀ sp, s.ce.span = some sp → sp.announced = true) →
        ∃ t, exec .refreshExpiry s = .next t ∧ t.ce.own = s.ce.own ∧ t.ce.refresh = none ∧ t.ce.refreshOut = true ∧
          t.os = s.os ∧ t.cs = s.cs ∧
          ∀ e ∈ s.ce.own, ∃ items, itemOf e ∈ items ∧ items.length ≤ 4 ∧
            queued (.claim (claimClass s) (cfg s).refresh items) t)) ∧
    (s.ce.refresh = none → exec .refreshExpiry s = .next s) ∧ (s.ce.backoff = none → exec .backoffExpiry s = .next s) ∧
    (s.ov.listen = none → exec .listenInExpiry s = .next s) ∧
    (s.ov.listen.isSome = true →
      (s.pu.held = none ∨ s.cs.state ≠ .unlocated ∨ s.tli.silent = true → exec .listenInExpiry s = .next
        ((s.setOv { s.ov with listen := none }).setCe
          { s.ce with triggered := s.ce.triggered || acquisitionReady (s.setOv { s.ov with listen := none }) })) ∧
      (∀ h, s.pu.held = some h → s.cs.state = .unlocated → s.tli.silent = false → s.cs.eStop = false →
        s.cs.driveFault = false →
        (∀ o ∈ locatedClaims h, ∀ e ∈ s.ov.claims, e.seg = o.seg → e.stale = true ∨ firmState e.st = false) →
        ∃ t, exec .listenInExpiry s = .next t ∧ t.ov = { s.ov with listen := none } ∧
          t.cs.state = (if h.pad then .parked else .ready) ∧ t.pu.known = true ∧ t.pu.endA = some h.a ∧
          t.pu.endB = some h.b ∧ t.pu.held = none ∧ t.pu.noticeHead = some h.headEnd ∧ t.eu.brake = .service ∧
          t.ce.own = locatedClaims h)) ∧
    (effPeriod s = 0 ∨ s.pu.timer = none → exec .positionPeriodExpiry s = .next s) ∧
    (effPeriod s ≠ 0 → s.pu.timer.isSome = true → s.tli.clash = false →
      ∃ t, exec .positionPeriodExpiry s = .next t ∧ t.pu = { s.pu with timer := some 0 } ∧ t.cs = s.cs ∧
        ((∀ k ∈ s.tli.txq, k.sending = false) → (s.tli.txq.length < 10 ∨ ∃ k ∈ s.tli.txq, isPosition k = true) →
          queued (.position (positionNotice s)) t))

/-! ## Faults -/

/-- A first fault: the record takes the code and position, the carriage enters FAULT with demand 0 and the emergency brake,
the REPORT names the active order, both orders and the span go, the convoy state clears, and the position stays known
(R173); the claims ahead of the head's segment are released, but a clash entry, and the others stay (R78). A further fault
raises the count, becomes the last further code, sets the positional mark if it is positional, keeps the first code and its
position, queues its REPORT with order id 0, and changes nothing else, but that ESTOP and DRIVE_FAULT stop the jacks; a
FIRM_CLASH of a rival and segment already raised in FAULT, and a POINTS_LOST of a node, are not raised again (R174, R73,
R103). -/
def Obligations.FaultRaised : Prop :=
  (∀ (code : FaultCode) (seg : Seg) (off : Mm) (s : State), s.cs.state ≠ .fault →
      let t := raiseFaultAt code seg off s
      t.cs.state = .fault ∧ t.cs.fault = some ⟨code, seg, off, 0, none, positionalCode code⟩ ∧ t.cs.latch = s.cs.latch ∧
      t.eu.demand = 0 ∧ t.eu.brake = .emergency ∧ t.eu.padStop = false ∧ t.eu.stopTarget = none ∧
      t.os.active = none ∧ t.os.pending = none ∧ t.ce.span = none ∧ t.ce.firmEnd = none ∧ t.cr.leader = none ∧
      t.cr.hold = false ∧ t.pu.route = none ∧ t.pu.known = s.pu.known ∧ t.ov = s.ov ∧
      t.ds = (if code = .estop ∨ code = .driveFault then { s.ds with cmd := .off, dockTimer := none, undockTimer := none }
              else s.ds) ∧
      (s.ce.span.isSome = true → t.ce.abort.map AbortRec.reason = some .faulted) ∧
      (∀ (before after : List OwnClaim) (o : OwnClaim), s.ce.span = none → s.ce.own = before ++ o :: after →
        o.seg = (headPos s).1 → (s.ce.own.map OwnClaim.seg).Nodup →
        t.ce.own = (before ++ o :: after.filter (fun e => decide (e.seg ∈ s.ce.clashMem.map Prod.snd))).map
          (fun e => { e with leg := .none }) ∧
        (s.tli.clash = false → ∀ e ∈ after, e.seg ∉ s.ce.clashMem.map Prod.snd →
          ∃ ids, e.seg ∈ ids ∧ queued (.release ids) t)) ∧
      (s.tli.clash = false → ∀ c, console s = some c →
        queued (.report c { subject := .fault, outcome := .faultRaised code,
                            oid := (s.os.active.map (fun a => a.ord.id)).getD 0 }) t ∧
        (∀ a, s.os.active = some a →
          queued (.report c { subject := .orderEnd, outcome := .failed .fault, oid := a.ord.id }) t) ∧
        (∀ o, s.os.pending = some o →
          queued (.report c { subject := .orderEnd, outcome := .cancelled, oid := o.id }) t))) ∧
  (∀ (code : FaultCode) (seg : Seg) (off : Mm) (f : FaultRec) (s : State), s.cs.state = .fault → s.cs.fault = some f →
      (raiseFaultAt code seg off s =
        let u := report .cs .fault (.faultRaised code) 0 (s.setCs
          { s.cs with fault := some { f with further := min (f.further + 1) 65535, last := some code,
                                             positional := f.positional || positionalCode code } })
        if code = .estop ∨ code = .driveFault then
          u.setDs { s.ds with cmd := .off, dockTimer := none, undockTimer := none }
        else u) ∧
      (∀ rival, (rival, seg) ∈ s.ce.clashMem → raiseClash rival seg s = s) ∧
      (∀ n, n ∈ s.ce.lostMem → pointsLost n seg s = s))

/-- E-STOP sends a HALT with this station as origin, sets the latch if it is clear, and in a located carriage raises ESTOP,
which stops the jacks; the drive fault input raises DRIVE_FAULT there. Neither raises a fault while the position is unknown,
an input that stays asserted is no new assertion, and a release changes the input alone (R171). -/
def Obligations.InputsAsserted : Prop :=
  ∀ s : State, s.tli.kind = .carriage →
    exec .eStopRelease s = .next (s.setCs { s.cs with eStop := false }) ∧
    exec .driveFaultRelease s = .next (s.setCs { s.cs with driveFault := false }) ∧
    (s.cs.eStop = true → exec .eStop s = .next s) ∧ (s.cs.driveFault = true → exec .driveFault s = .next s) ∧
    (s.cs.eStop = false → (s.ce.span = none ∨ headWithin (outsideSpan s) s) → ∃ t, exec .eStop s = .next t ∧
      t.cs.eStop = true ∧
      (s.cs.latch = none → t.cs.latch = some ⟨s.tli.addr, .estop⟩) ∧ (s.cs.latch.isSome = true → t.cs.latch = s.cs.latch) ∧
      (s.tli.clash = false → queued (.halt s.tli.addr .estop) t) ∧
      (s.pu.known = true → s.cs.state ≠ .fault → t.cs.state = .fault ∧ t.cs.fault.map FaultRec.code = some .estop ∧
        t.ds.cmd = .off ∧ t.eu.brake = .emergency ∧ t.eu.demand = 0) ∧
      (s.pu.known = false → s.cs.state ≠ .running → t.cs.state = s.cs.state ∧ t.cs.fault = s.cs.fault)) ∧
    (s.cs.driveFault = false →
      (s.pu.known = false → exec .driveFault s = .next (s.setCs { s.cs with driveFault := true })) ∧
      (s.pu.known = true → s.cs.state ≠ .fault → ∃ t, exec .driveFault s = .next t ∧ t.cs.driveFault = true ∧
        t.cs.state = .fault ∧ t.cs.fault.map FaultRec.code = some .driveFault ∧ t.ds.cmd = .off ∧
        t.cs.latch = s.cs.latch ∧ t.eu.brake = .emergency))

/-! ## The Envelope Unit -/

/-- A full evaluation moves the demand one step toward its target, up only in RUNNING and by the acceleration step,
down by the brake step, and sets the brake mode (R135, R137); a measured speed above the threshold is counted, and at
the second evaluation in a row raises OVERSPEED (R139). One that brings the demand to 0 with the standstill flag set
presents the rest event: an order in STOPPING ends STOPPED, one in ENDING FAILED ROUTE_BLOCKED, and in RUNNING one
that has arrived COMPLETED, or with its destination pad unread PAD_MARKER_MISSED, and one blocked FAILED
ROUTE_BLOCKED; a pad stop is checked for alignment, and any other order runs on, at rest (R138, R16, R18, R13, R116,
R44, R156). In the other states the demand, the permit and the target are 0 (R123). The permit is the lowest of the
ceiling now and just these limits: those of the occupied legs, from leg 1 on under a REAR tail, and of the rear
segment, and where they apply the authority, approach, pad, stop-target and convoy limits (R124 to R132); and a root
is the floor of the square root (R142). -/
def Obligations.EvaluationMade : Prop :=
  (∀ (gust : Bool) (s : State), s.tli.kind = .carriage →
      (s.cs.state ≠ .running → s.cs.state ≠ .stopping → s.cs.state ≠ .halted →
        exec (.envelopeEvaluation gust) s = .next (s.setEu
          { s.eu with gust := gust, timer := 0, demand := 0, permit := 0, target := 0, exceed := 0,
                      brake := entryBrake s.cs.state s.eu.brake })) ∧
      ((s.cs.state = .running ∨ s.cs.state = .stopping ∨ s.cs.state = .halted) →
        let fast : Bool := decide (s.eu.demand + max 50 (s.eu.demand / 8) < measuredSpeed s)
        (fast = true → s.eu.exceed ≠ 0 → ∃ t, exec (.envelopeEvaluation gust) s = .next t ∧ t.cs.state = .fault ∧
          t.cs.fault.map FaultRec.code = some .overspeed ∧ t.eu.demand = 0 ∧ t.eu.brake = .emergency) ∧
        (fast = false ∨ s.eu.exceed = 0 → (s.os.active = none ∨ s.pu.standstill = false ∨ s.eu.demand = 0) →
          ∃ t, exec (.envelopeEvaluation gust) s = .next t ∧
          t.cs = s.cs ∧ t.os = s.os ∧ t.pu = s.pu ∧ t.ce.own = s.ce.own ∧ t.tli = s.tli ∧ t.eu.gust = gust ∧
          t.eu.exceed = (if fast then 1 else 0) ∧
          (s.eu.demand < t.eu.target → s.cs.state = .running →
            t.eu.demand = min t.eu.target (s.eu.demand +
              (if (cfg s).accel = 0 then 2 else if (cfg s).accel = 1 then 4 else if (cfg s).accel = 2 then 8 else 12))) ∧
          (s.eu.demand < t.eu.target → s.cs.state ≠ .running → t.eu.demand = s.eu.demand) ∧
          (t.eu.target ≤ s.eu.demand → t.eu.demand = max t.eu.target (s.eu.demand - (cfg s).decel * 50 / 1000)) ∧
          (0 < t.eu.demand → t.eu.rest = false) ∧
          t.eu.brake = (if 0 < t.eu.demand ∨ 0 < t.eu.target then .released
                        else if s.pu.standstill then .service else s.eu.brake)) ∧
        (fast = false ∨ s.eu.exceed = 0 → s.pu.standstill = true → s.eu.demand ≠ 0 →
          s.eu.demand ≤ (cfg s).decel * 50 / 1000 → targetNow (s.setEu { s.eu with gust := gust }) = 0 →
          ∀ a r, s.os.active = some a → s.pu.route = some r →
          let ends (out : ReportOutcome) : Prop := ∃ t, exec (.envelopeEvaluation gust) s = .next t ∧
            t.cs.state = .ready ∧ t.os.active = none ∧ t.eu.demand = 0 ∧ t.eu.brake = .service ∧ t.pu.route = none ∧
            (s.tli.clash = false → ∀ c, console s = some c →
              queued (.report c { subject := .orderEnd, outcome := out, oid := a.ord.id }) t)
          let runsOn : Prop := ∃ t, exec (.envelopeEvaluation gust) s = .next t ∧ t.cs = s.cs ∧ t.os = s.os ∧
            t.pu = s.pu ∧ t.ce.own = s.ce.own ∧ t.tli = s.tli ∧ t.eu.demand = 0 ∧ t.eu.brake = .service ∧ t.eu.rest = true
          (a.phase = .ending → s.os.pending = none → ends (.failed .routeBlocked)) ∧
          (a.phase = .underway → s.cs.state = .stopping → s.os.pending = none → ends .stopped) ∧
          (a.phase = .underway → s.cs.state = .halted → runsOn) ∧
          (a.phase = .underway → s.cs.state = .running →
            let there : Bool := decide (a.ord.legs.length < a.nextClaim) &&
              decide (((routeEnd a.ord.legs : Nat) : Int) - (cfg s).margin ≤ r.x)
            let blocked : Bool := s.ce.span.isNone && firstLegHeld s a && decide (remaining s r.x = 0)
            (s.eu.padStop = false → there = true →
              (lastPad a.ord = none → s.os.pending = none → ends .completed) ∧
              ((lastPad a.ord).isSome = true → ∃ t, exec (.envelopeEvaluation gust) s = .next t ∧ t.cs.state = .fault ∧
                t.cs.fault.map FaultRec.code = some .padMarkerMissed)) ∧
            (s.eu.padStop = false → there = false →
              (blocked = true → s.os.pending = none → ends (.failed .routeBlocked)) ∧ (blocked = false → runsOn)) ∧
            (∀ p, s.eu.padStop = true → s.pu.padRead = some p →
              ((r.x - p).natAbs ≤ (cfg s).dockTol → (lastPad a.ord).any PadSpec.dock = true → s.ds.pos ≠ .down →
                ∃ t, exec (.envelopeEvaluation gust) s = .next t ∧ t.cs.state = .docking ∧ t.ds.cmd = .lower ∧
                  t.ds.dockTimer = some 0 ∧ t.os = s.os ∧ t.eu.demand = 0 ∧ t.eu.brake = .service) ∧
              ((r.x - p).natAbs ≤ (cfg s).dockTol → (lastPad a.ord).any PadSpec.dock = false → s.os.pending = none →
                ends .completed) ∧
              ((cfg s).dockTol < (r.x - p).natAbs → s.os.pending = none → ends (.failed .misaligned))))))) ∧
  ((∀ n : Nat, n < 4294967296 → isqrt n * isqrt n ≤ n ∧ n < (isqrt n + 1) * (isqrt n + 1)) ∧
    ∀ s : State,
      let braking (v : Speed) (d : Int) : Speed := isqrt (v * v + 2 * (cfg s).decel * min d.toNat 2000000)
      ceilingNow s = (if s.eu.gust then (cfg s).gust else (cfg s).ceiling) ∧ permitNow s ≤ ceilingNow s ∧
      (∀ v ∈ limits s, permitNow s ≤ v) ∧ (permitNow s = ceilingNow s ∨ permitNow s ∈ limits s) ∧
      (∀ v, v ∈ limits s ↔ s.cr.limit = some v ∨ ∃ a r, s.os.active = some a ∧ s.pu.route = some r ∧
        ((∃ q, a.rear = some q ∧ v = q.limit) ∨
          (∃ j l, 1 ≤ j ∧ j ≤ a.headLeg ∧ (∀ k, a.tailLeg = .leg k → k ≤ j) ∧ legAt a.ord.legs j = some l ∧ v = l.limit) ∨
          (∃ f, s.ce.firmEnd = some f ∧
            (v = braking 0 (((f - (cfg s).margin : Nat) : Int) - r.x) ∨
              ∃ j l, a.headLeg < j ∧ legAt a.ord.legs j = some l ∧ legStart a.ord.legs j < f - (cfg s).margin ∧
                v = braking l.limit ((legStart a.ord.legs j : Int) - r.x))) ∨
          (∃ p, lastPad a.ord = some p ∧ v = (if r.x + 500 < (padCoord a.ord p : Int)
            then braking 50 ((padCoord a.ord p : Int) - 500 - r.x) else 50)) ∨
          (∃ t, s.eu.stopTarget = some t ∧ v = braking 0 ((t : Int) - r.x)))))

/-- At each full evaluation the target is 0 while a hold cause is present, in STOPPING with condition IMMEDIATE, or
with the pad stop set, and otherwise it is the permit, which is computed in either case; a pad read between two
evaluations sets the pad stop at once and leaves the target to the next (R134). That an evaluation which itself raises
OVERSPEED keeps the permit and the target it computed is the model's reading (assumption 29). -/
def Obligations.TargetSet : Prop :=
  (∀ (gust : Bool) (s : State), s.tli.kind = .carriage →
      (s.cs.state = .running ∨ s.cs.state = .stopping ∨ s.cs.state = .halted) →
      ∃ t, exec (.envelopeEvaluation gust) s = .next t ∧
        t.eu.permit = permitNow (s.setEu { s.eu with gust := gust }) ∧
        ((s.tli.silent = true ∨ s.ov.listen.isSome = true ∨ s.cs.latch.isSome = true ∨ s.cr.hold = true ∨
            (s.cs.state = .stopping ∧ s.cs.stopCond = some .immediate) ∨ s.eu.padStop = true) → t.eu.target = 0) ∧
        ((s.tli.silent = false ∧ s.ov.listen = none ∧ s.cs.latch = none ∧ s.cr.hold = false ∧
            ¬(s.cs.state = .stopping ∧ s.cs.stopCond = some .immediate) ∧ s.eu.padStop = false) →
          t.eu.target = t.eu.permit)) ∧
  (∀ (p : PadSpec) (a : ActiveOrder) (r : Route) (s : State), s.tli.kind = .carriage → s.os.active = some a →
      s.pu.route = some r → movingState s.cs.state = true → lastPad a.ord = some p → a.headLeg = a.ord.legs.length →
      s.pu.padRead = none →
      ∃ t, exec (.padMarkerRead true true p.id) s = .next t ∧ t.eu = { s.eu with padStop := true })

/-! ## The Convoy Regulator -/

/-- A leader evaluation in RUNNING, STOPPING or HALTED takes the nearest candidate as leader, the lower address between
equals, with its convoy limit, and with none clears the convoy state; in every other state only its interval starts anew
(R145, R148, R149). The candidates are just the carriages that the position table shows with their tail on a leg at or after
the head leg, ahead of this one's tail, and that hold a claim compatible with the own marked claim of a convoy leg, one tied
to a leg at or after the head leg (R146, R147), their holders asked for in ascending order (R29). A tail on a segment that
is both the rear one and a leg ahead is taken as ahead, by the model's choice (assumption 52). -/
def Obligations.LeaderFound : Prop :=
  ∀ s : State, s.tli.kind = .carriage →
    ((started s = none ∨ s.pu.route = none ∨ movingState s.cs.state = false) →
      exec .leaderEvaluation s = .next (s.setCr { s.cr with timer := 0 })) ∧
    (∀ o, (leaderQuestion s o).Pairwise (· < ·) ∧ ∀ x, x ∈ leaderQuestion s o ↔
      ∃ c ∈ s.ov.claims, c.holder = x ∧ c.seg = o.seg ∧ o.convoy = true ∧ c.convoy = true ∧ c.dir = o.dir) ∧
    (∀ a r, started s = some a → s.pu.route = some r → movingState s.cs.state = true →
      (candidates a r s = [] → exec .leaderEvaluation s =
        .next (s.setCr { s.cr with leader := none, limit := none, hold := false, timer := 0 })) ∧
      (candidates a r s ≠ [] → ∃ t l, exec .leaderEvaluation s = .next t ∧ l ∈ candidates a r s ∧
        (∀ m ∈ candidates a r s, l.coord < m.coord ∨ (l.coord = m.coord ∧ l.addr ≤ m.addr)) ∧
        t.cr.leader = some l ∧ t.cr.limit = some (isqrt (2 * (cfg s).decel * (l.gap - (cfg s).standoff))) ∧
        l.gap = min ((l.coord : Int) - r.x).toNat 2000000 ∧ t.eu = s.eu ∧ t.ov = s.ov ∧ t.ce = s.ce)) ∧
    (∀ (a : ActiveOrder) (r : Route) (l : Leader), 1 ≤ a.headLeg →
      (l ∈ candidates a r s ↔ ∃ e ∈ s.ov.posTab, ∃ m g,
        (∃ o ∈ s.ce.own, e.carriage ∈ leaderQuestion s o ∧
          ∃ k, o.leg = .leg k ∧ a.headLeg ≤ k ∧ k ≤ a.ord.legs.length) ∧
        a.headLeg ≤ m ∧ legAt a.ord.legs m = some g ∧ g.seg = e.tailSeg ∧
        (∀ j h, a.headLeg ≤ j → j < m → legAt a.ord.legs j = some h → h.seg ≠ e.tailSeg) ∧
        l.coord = (legStart a.ord.legs m + (if g.dir = .up then min e.tailOff g.len else g.len - min e.tailOff g.len) :
          Nat) ∧
        r.x - (cfg s).length + r.trim < l.coord ∧
        l = ⟨e.carriage, e.tailSeg, e.tailOff, l.coord, min (l.coord - r.x).toNat 2000000, e.stale⟩))

/-- CONVOY_HOLD is set at an evaluation that finds a leader at a gap of the hold or less, cleared at one that finds it at
the resume or more and at one that finds no leader, and between the two keeps the value it had (R150). -/
def Obligations.ConvoyHoldKept : Prop :=
  ∀ (a : ActiveOrder) (r : Route) (s : State), s.tli.kind = .carriage → started s = some a → s.pu.route = some r →
    movingState s.cs.state = true → (cfg s).hold < (cfg s).resume →
    ∃ t, exec .leaderEvaluation s = .next t ∧
      (t.cr.leader = none → t.cr.hold = false) ∧
      (∀ l, t.cr.leader = some l →
        (l.gap ≤ (cfg s).hold → t.cr.hold = true) ∧ ((cfg s).resume ≤ l.gap → t.cr.hold = false) ∧
        ((cfg s).hold < l.gap → l.gap < (cfg s).resume → t.cr.hold = s.cr.hold)) ∧
      holdCauses t = { holdCauses s with convoyHold := t.cr.hold }

/-! ## The Position Unit -/

/-- A batch moves the ends of the end form along their A-senses, a held location with them, and the head on the route by
the travel distance; before COMMISSION no distance is counted (R106, R107, R118). Standing, a distance beyond the
tolerance since the state was entered raises POSITION_DISCREPANCY, and so does backward movement past its limits on the
route (R107). A head carried more than the tolerance beyond its leg's end raises HEAD_MARKER_MISSED (R112); a tail so
carried past its next boundary defers the release of the segment behind, and with a deferral outstanding raises
TAIL_MARKERS_MISSED (R114); a head so carried past an unread destination pad raises PAD_MARKER_MISSED (R116), and one
beyond the firm end AUTHORITY_OVERRUN (R140); of several in one batch the first in this order stands, by the model's
choice (assumption 22); that a batch of distance 0 makes the test of R140 too is assumption 59. However the counts fall
into batches, the sum of their distances is the floor of the whole, and the residual what the floor leaves (R106). In
every form the distance enters the window of the last ten batches, and the measured speed is ten times the magnitude of
the window's sum, in mm/s; a batch that gives one other than 0 clears the standstill flag and starts the count of the
time at 0 anew (R108). -/
def Obligations.BatchApplied : Prop :=
  (∀ s : State, measuredSpeed s = 10 * s.pu.window.sum.natAbs) ∧
  (∀ (n : Int) (s : State), s.tli.kind = .carriage →
      let d : Int := match s.cs.comm with
        | none => 0
        | some c => (n * c.scale + s.pu.residual) / 65536
      let sum : Int := ((d :: s.pu.window).take 10).sum
      ∃ t, exec (.odometryBatch n) s = .next t ∧ t.pu.window = (d :: s.pu.window).take 10 ∧
        measuredSpeed t = 10 * sum.natAbs ∧
        (sum ≠ 0 → t.pu.standstill = false ∧ t.pu.zeroFor = 0) ∧
        (sum = 0 → t.pu.standstill = s.pu.standstill ∧ t.pu.zeroFor = s.pu.zeroFor)) ∧
  (∀ (n : Int) (s : State), s.tli.kind = .carriage →
      (s.cs.comm = none → ∃ t, exec (.odometryBatch n) s = .next t ∧ t.pu.residual = s.pu.residual ∧
        t.pu.window = ((0 : Int) :: s.pu.window).take 10 ∧ t.pu.endA = s.pu.endA ∧ t.pu.endB = s.pu.endB ∧ t.cs = s.cs) ∧
      (∀ c, s.cs.comm = some c →
        let d : Int := (n * c.scale + s.pu.residual) / 65536
        let res : Nat := ((n * c.scale + s.pu.residual) % 65536).toNat
        let faulted (code : FaultCode) : Prop := ∃ t, exec (.odometryBatch n) s = .next t ∧ t.cs.state = .fault ∧
          t.cs.fault.map FaultRec.code = some code
        (s.pu.route = none → driftState s.cs.state = false ∨ (s.pu.stillDist + d).natAbs ≤ c.tol →
          ∃ t, exec (.odometryBatch n) s = .next t ∧
          t.pu.residual = res ∧ t.pu.window = (d :: s.pu.window).take 10 ∧ t.pu.stillDist = s.pu.stillDist + d ∧
          t.pu.endA = s.pu.endA.map (fun e => moveEnd e d) ∧ t.pu.endB = s.pu.endB.map (fun e => moveEnd e d) ∧
          (∀ h, s.pu.held = some h → t.pu.held = if (h.moved + d).natAbs ≤ c.tol
            then some { h with a := moveEnd h.a d, b := moveEnd h.b d, moved := h.moved + d } else none) ∧
          t.cs = s.cs ∧ t.os = s.os ∧ t.ce = s.ce) ∧
        (driftState s.cs.state = true → c.tol < (s.pu.stillDist + d).natAbs → faulted .positionDiscrepancy) ∧
        (∀ (r : Route) (a : ActiveOrder), s.pu.route = some r → s.os.active = some a → a.phase ≠ .waiting →
          let td : Int := match a.ord.lead with
            | .a => d
            | .b => -d
          let x : Int := r.x + td
          let tail : Int := x - c.length + r.trim
          let start (k : Nat) : Int := (legStart a.ord.legs k : Nat)
          let back : Prop := td < 0 ∧ (x < start a.headLeg - c.tol ∨ x < 0 ∨
            ∃ k, a.tailLeg = .leg k ∧ tail < start k - c.tol)
          (s.cs.state ≠ .fault → back → faulted .positionDiscrepancy) ∧
          (movingState s.cs.state = true → ¬ back →
            (((legEnd a.ord.legs a.headLeg + c.tol : Nat) : Int) < x → faulted .headMarkerMissed) ∧
            (x ≤ ((legEnd a.ord.legs a.headLeg + c.tol : Nat) : Int) →
              let b := nextTailBoundary a
              let crossed : ActiveOrder := { a with tailLeg := .leg b.2.2, rear := none }
              let padOk : Prop := ∀ p, lastPad a.ord = some p →
                s.pu.padRead.isSome = true ∨ x ≤ ((padCoord a.ord p + c.tol : Nat) : Int)
              (((b.1 + c.tol : Nat) : Int) < tail →
                (s.pu.deferral.isSome = true ∨ (((nextTailBoundary crossed).1 + c.tol : Nat) : Int) < tail →
                  faulted .tailMarkersMissed) ∧
                (s.pu.deferral = none → tail ≤ (((nextTailBoundary crossed).1 + c.tol : Nat) : Int) → padOk →
                  (∀ f, s.ce.firmEnd = some f → x ≤ (f : Int)) →
                  ∃ t, exec (.odometryBatch n) s = .next t ∧ t.pu.route = some { r with x := x } ∧
                    t.pu.deferral = some b.2.1 ∧ t.pu.tailMisses = min (s.pu.tailMisses + 1) 65535 ∧
                    t.os = { s.os with active := some crossed } ∧ t.cs = s.cs ∧ t.ce = s.ce ∧ t.tli = s.tli)) ∧
              (tail ≤ ((b.1 + c.tol : Nat) : Int) →
                (∀ p, lastPad a.ord = some p → s.pu.padRead = none → ((padCoord a.ord p + c.tol : Nat) : Int) < x →
                  faulted .padMarkerMissed) ∧
                (padOk →
                  (∀ f, s.ce.firmEnd = some f → (f : Int) < x → faulted .authorityOverrun) ∧
                  ((∀ f, s.ce.firmEnd = some f → x ≤ (f : Int)) →
                    ∃ t, exec (.odometryBatch n) s = .next t ∧ t.pu.route = some { r with x := x } ∧
                      t.pu.residual = res ∧ t.pu.deferral = s.pu.deferral ∧ t.cs = s.cs ∧ t.os = s.os ∧ t.ce = s.ce ∧
                      t.tli = s.tli)))))))) ∧
  (∀ a : ActiveOrder,
      (a.tailLeg = .rear → nextTailBoundary a = (0, (a.rear.map Rear.seg).getD 0, 1)) ∧
      (∀ k l, a.tailLeg = .leg k → legAt a.ord.legs k = some l →
        nextTailBoundary a = (legEnd a.ord.legs k, l.seg, k + 1))) ∧
  (∀ (scale start : Nat) (counts : List Int), start < 65536 →
      let run := counts.foldl (fun (acc : Int × Nat) n =>
        (acc.1 + (odometry scale acc.2 n).1, (odometry scale acc.2 n).2)) ((0 : Int), start)
      run.1 = (counts.sum * scale + start) / 65536 ∧ (run.2 : Int) = (counts.sum * scale + start) % 65536)

/-- A standstill event sets the flag, once 0 has been measured; that one given while a speed is measured, or with the flag
set, changes nothing is the model's reading (assumption 4). In a moving state with demand 0 it applies the service brake, if
the target of the last evaluation is 0 too, keeps it otherwise, and the rest event follows (R108, R137, R138). An UNDERWAY
order in HALTED, or in RUNNING short of its destination and not blocked, with no pad stop begun, runs on: the carriage is at
rest and nothing else changes (R13, R137, R138). In RUNNING an UNDERWAY order whose head has reached the destination ends
COMPLETED (R13), and with a destination pad unread raises PAD_MARKER_MISSED (R116); under the pad stop the alignment is
checked, and the carriage docks, or the order ends COMPLETED or FAILED MISALIGNED (R14, R156, R157); an order whose next leg
lies on a segment still held, at the authority end, ends FAILED ROUTE_BLOCKED (R44), as one in ENDING does (R18); one in
STOPPING ends STOPPED (R16). The last three release the claims ahead of the head, with their RELEASEs and POINTS-FREEs (R77,
R67), as they do where the pending order is promoted; each ending leaves the carriage READY, and the pending order is
promoted: WAITING under the latch, and otherwise started or refused FIRST_LEG (R9). -/
def Obligations.StandstillTaken : Prop :=
  ∀ s : State, s.tli.kind = .carriage →
    let flagged := s.setPu { s.pu with zeroFor := 500, standstill := true }
    let resting := flagged.setEu { s.eu with brake := if s.eu.target = 0 then .service else s.eu.brake, rest := true }
    (measuredSpeed s ≠ 0 ∨ s.pu.standstill = true → exec .standstillEvent s = .next s) ∧
    (measuredSpeed s = 0 → s.pu.standstill = false →
      (movingState s.cs.state = false ∨ s.eu.demand ≠ 0 → exec .standstillEvent s = .next flagged) ∧
      (movingState s.cs.state = true → s.eu.demand = 0 → s.os.active = none → exec .standstillEvent s = .next resting) ∧
      (∀ a, s.os.active = some a → a.phase = .underway → s.eu.demand = 0 →
        (s.cs.state = .halted → exec .standstillEvent s = .next resting) ∧
        (∀ r, s.cs.state = .running → s.eu.padStop = false → s.pu.route = some r →
          (a.nextClaim ≤ a.ord.legs.length ∨ r.x < ((routeEnd a.ord.legs : Nat) : Int) - (cfg s).margin) →
          (s.ce.span.isSome = true ∨ r.x < ((s.ce.firmEnd.getD 0 - (cfg s).margin : Nat) : Int) ∨
            ∀ l, legAt a.ord.legs a.nextClaim = some l → ∀ e ∈ s.ce.own, e.seg ≠ l.seg) →
          exec .standstillEvent s = .next resting)) ∧
      (∀ a r, s.os.active = some a → s.pu.route = some r → s.eu.demand = 0 → s.ce.span = none →
        let ends (out : ReportOutcome) (t : State) : Prop := t.cs.state = .ready ∧ t.os.active = none ∧
          t.eu.brake = .service ∧ t.pu.route = none ∧ t.pu.standstill = true ∧ t.ce.firmEnd = none ∧
          (s.tli.clash = false → ∀ c, console s = some c →
            queued (.report c { subject := .orderEnd, outcome := out, oid := a.ord.id }) t)
        let freesAhead (t : State) : Prop := ∀ before after o, s.ce.own = before ++ o :: after →
          (s.ce.own.map OwnClaim.seg).Nodup → s.pu.known = true → o.seg = (headPos s).1 →
          t.ce.own.map OwnClaim.seg = (before ++ [o]).map OwnClaim.seg ∧
          (s.tli.clash = false → releasedWith after [] s t)
        (s.cs.state = .running → a.phase = .underway →
          (s.eu.padStop = false → a.ord.legs.length < a.nextClaim →
            ((routeEnd a.ord.legs : Nat) : Int) - (cfg s).margin ≤ r.x →
            (lastPad a.ord = none → s.os.pending = none → ∃ t, exec .standstillEvent s = .next t ∧ ends .completed t ∧
              t.ce.own.map OwnClaim.seg = s.ce.own.map OwnClaim.seg) ∧
            ((lastPad a.ord).isSome = true → ∃ t, exec .standstillEvent s = .next t ∧ t.cs.state = .fault ∧
              t.cs.fault.map FaultRec.code = some .padMarkerMissed)) ∧
          (∀ l, s.eu.padStop = false → s.os.pending = none → legAt a.ord.legs a.nextClaim = some l →
            (∃ e ∈ s.ce.own, e.seg = l.seg) → ((s.ce.firmEnd.getD 0 - (cfg s).margin : Nat) : Int) ≤ r.x →
            ∃ t, exec .standstillEvent s = .next t ∧ ends (.failed .routeBlocked) t ∧ freesAhead t) ∧
          (∀ p, s.eu.padStop = true → s.pu.padRead = some p →
            (((r.x - p).natAbs ≤ (cfg s).dockTol → (lastPad a.ord).any PadSpec.dock = true → s.ds.pos ≠ .down →
              ∃ t, exec .standstillEvent s = .next t ∧ t.cs.state = .docking ∧ t.ds.cmd = .lower ∧
                t.ds.dockTimer = some 0 ∧ t.os = s.os ∧ t.pu.route = s.pu.route ∧ t.ce.own = s.ce.own ∧
                t.eu.brake = .service)) ∧
            ((r.x - p).natAbs ≤ (cfg s).dockTol → (lastPad a.ord).any PadSpec.dock = false → s.os.pending = none →
              ∃ t, exec .standstillEvent s = .next t ∧ ends .completed t) ∧
            ((cfg s).dockTol < (r.x - p).natAbs → s.os.pending = none →
              ∃ t, exec .standstillEvent s = .next t ∧ ends (.failed .misaligned) t))) ∧
        (movingState s.cs.state = true → a.phase = .ending → s.os.pending = none →
          ∃ t, exec .standstillEvent s = .next t ∧ ends (.failed .routeBlocked) t ∧ freesAhead t) ∧
        (s.cs.state = .stopping → a.phase = .underway →
          (s.os.pending = none → ∃ t, exec .standstillEvent s = .next t ∧ ends .stopped t ∧ freesAhead t) ∧
          (∀ p, s.os.pending = some p → ∃ t, exec .standstillEvent s = .next t ∧ t.os.pending = none ∧
            (∀ before after o, s.ce.own = before ++ o :: after → (s.ce.own.map OwnClaim.seg).Nodup → s.pu.known = true →
              o.seg = (headPos s).1 → s.tli.clash = false → ∃ more, releasedWith after more s t) ∧
            (s.cs.latch.isSome = true → t.cs.state = .ready ∧
              t.os.active.map (fun b => (b.ord, b.phase)) = some (p, .waiting)) ∧
            (s.cs.latch = none → t.cs.state = .fault ∨
              (firstLegOk p t = true ∧ t.cs.state = .running ∧
                t.os.active.map (fun b => (b.ord, b.phase)) = some (p, .underway)) ∨
              (firstLegOk p t = false ∧ t.cs.state = .ready ∧ t.os.active = none ∧
                (s.tli.clash = false → ∀ c, console s = some c → queued (.report c
                  { subject := .order, outcome := .refused (.badOrder .firstLeg 0), oid := p.id }) t)))))))

/-- A leading read whose check fails, outside RUNNING, STOPPING and HALTED, or that repeats the boundary last accepted, the
head within the tolerance of it, in either order of its pair and across orders (assumption 20), is disregarded; one of
another pair than the head leg's segment and the next leg's raises ROUTE_MISMATCH, and one further than the tolerance
POSITION_DISCREPANCY; an accepted one, with a destination pad ahead or none, puts the head on the boundary, keeps the
residual, writes the correction and raises the head leg index (R110, R111, R10). The tail moves with it: carried past its
next boundary by more than the tolerance it defers the release of the segment behind, or with a deferral outstanding raises
TAIL_MARKERS_MISSED (R114); and a head so put beyond the firm end raises AUTHORITY_OVERRUN (R140). -/
def Obligations.LeadingReadTaken : Prop :=
  ∀ (checkOk : Bool) (g h : Seg) (a : ActiveOrder) (r : Route) (s : State), s.tli.kind = .carriage →
    s.os.active = some a → s.pu.route = some r →
    let e : Int := (legEnd a.ord.legs a.headLeg : Nat)
    let taken : Bool := checkOk && movingState s.cs.state
    let again : Prop := ∃ b, r.lastLead = some b ∧ ((b.first = g ∧ b.second = h) ∨ (b.first = h ∧ b.second = g)) ∧
      (r.x - b.coord).natAbs ≤ (cfg s).tol
    let expected : Prop := ∃ l m, legAt a.ord.legs a.headLeg = some l ∧ legAt a.ord.legs (a.headLeg + 1) = some m ∧
      l.seg = g ∧ m.seg = h
    ((∀ q, a.tailLeg = .rear → a.rear = some q → nextTailBoundary a = (0, q.seg, 1)) ∧
      (∀ k l, a.tailLeg = .leg k → legAt a.ord.legs k = some l →
        nextTailBoundary a = (((a.ord.legs.take k).map Leg.len).sum, l.seg, k + 1))) ∧
    (taken = false ∨ again → exec (.leadingBoundaryRead checkOk g h) s = .next s) ∧
    (taken = true → ¬ again →
      (¬ expected → exec (.leadingBoundaryRead checkOk g h) s = .next (raiseFault .routeMismatch s)) ∧
      (expected →
        ((cfg s).tol < (r.x - e).natAbs →
          exec (.leadingBoundaryRead checkOk g h) s = .next (raiseFault .positionDiscrepancy s)) ∧
        ((r.x - e).natAbs ≤ (cfg s).tol →
          let put : PosUnit :=
            { s.pu with route := some { r with x := e, lastLead := some ⟨g, h, e⟩ }, lastCorrection := r.x - e }
          let tailPast : Prop := (((nextTailBoundary a).1 + (cfg s).tol : Nat) : Int) < e - (cfg s).length + r.trim
          let faults (c : FaultCode) : Prop := ∃ t, exec (.leadingBoundaryRead checkOk g h) s = .next t ∧
            t.cs.state = .fault ∧ t.cs.fault.map FaultRec.code = some c
          (¬ tailPast → (∀ f, s.ce.firmEnd = some f → e ≤ (f : Int)) →
            ∃ t, exec (.leadingBoundaryRead checkOk g h) s = .next t ∧ t.pu = put ∧
              t.os.active = some { a with headLeg := a.headLeg + 1 } ∧ t.ce = s.ce ∧ t.cs = s.cs ∧ t.eu = s.eu) ∧
          (tailPast → a.phase ≠ .waiting → s.pu.deferral = none → (∀ f, s.ce.firmEnd = some f → e ≤ (f : Int)) →
            ∃ t, exec (.leadingBoundaryRead checkOk g h) s = .next t ∧
              t.pu = { put with deferral := some (nextTailBoundary a).2.1, tailMisses := min (s.pu.tailMisses + 1) 65535 } ∧
              t.os.active = some { a with headLeg := a.headLeg + 1, tailLeg := .leg (nextTailBoundary a).2.2, rear := none } ∧
              t.ce = s.ce ∧ t.cs = s.cs ∧ t.eu = s.eu) ∧
          (tailPast → a.phase ≠ .waiting → s.pu.deferral.isSome = true → faults .tailMarkersMissed) ∧
          (∀ f, ¬ tailPast → a.phase ≠ .waiting → s.ce.firmEnd = some f → (f : Int) < e → faults .authorityOverrun))))

/-- A trailing read is disregarded as a leading one is, a repeat of the boundary last accepted, the tail within the
tolerance of it, in either order of its pair among them (assumption 20); the boundary under deferral, between the deferred
segment and the tail's, in either order of its pair (assumption 21), and a discrepancy beyond the tolerance, raise
POSITION_DISCREPANCY, and any other pair than that of the rear segment and leg 1, at 0, or of the tail leg and the next, at
its end, ROUTE_MISMATCH, naming the tail; an accepted one corrects the trim within the tolerance, raises the tail leg index,
clears the deferral and releases every entry before that of the segment beyond, with their RELEASEs and POINTS-FREEs (R113,
R69, R67); the head is then tested against the firm end (R140). A leading read of the destination pad marker on the last leg
begins the pad stop at the head's coordinate, once; on an earlier leg it raises ROUTE_MISMATCH; every other pad, and every
trailing read of one, is disregarded (R116). -/
def Obligations.TrailingOrPadRead : Prop :=
  (∀ (checkOk : Bool) (g h : Seg) (a : ActiveOrder) (r : Route) (s : State), s.tli.kind = .carriage →
      s.os.active = some a → s.pu.route = some r →
      let taken : Bool := checkOk && movingState s.cs.state
      let tail : Int := r.x - (cfg s).length + r.trim
      let again : Prop := ∃ b, r.lastTrail = some b ∧ ((b.first = g ∧ b.second = h) ∨ (b.first = h ∧ b.second = g)) ∧
        (tail - b.coord).natAbs ≤ (cfg s).tol
      let deferred : Prop := ∃ d, s.pu.deferral = some d ∧
        ((d = g ∧ (tailPos s).1 = h) ∨ (d = h ∧ (tailPos s).1 = g))
      let expected (b : Mm) (k : Nat) : Prop :=
        (a.tailLeg = .rear ∧ b = 0 ∧ k = 1 ∧
          ∃ q l, a.rear = some q ∧ legAt a.ord.legs 1 = some l ∧ q.seg = g ∧ l.seg = h) ∨
        (∃ j l m, a.tailLeg = .leg j ∧ b = ((a.ord.legs.take j).map Leg.len).sum ∧ k = j + 1 ∧
          legAt a.ord.legs j = some l ∧ legAt a.ord.legs (j + 1) = some m ∧ l.seg = g ∧ m.seg = h)
      let wrong (c : FaultCode) : Host.Outcome State Fault Refusal := .next (raiseFaultAt c (tailPos s).1 (tailPos s).2 s)
      (taken = false ∨ again → exec (.trailingBoundaryRead checkOk g h) s = .next s) ∧
      (taken = true → ¬ again →
        (deferred → exec (.trailingBoundaryRead checkOk g h) s = wrong .positionDiscrepancy) ∧
        (¬ deferred →
          ((∀ b k, ¬ expected b k) → exec (.trailingBoundaryRead checkOk g h) s = wrong .routeMismatch) ∧
          (∀ b k, expected b k →
            ((cfg s).tol < (tail - b).natAbs →
              exec (.trailingBoundaryRead checkOk g h) s = wrong .positionDiscrepancy) ∧
            (∀ i, (tail - b).natAbs ≤ (cfg s).tol → s.ce.own.findIdx? (fun e => decide (e.seg = h)) = some i →
              (s.ce.own.map OwnClaim.seg).Nodup →
              ∃ u, exec (.trailingBoundaryRead checkOk g h) s = .next (overrunTest u) ∧
                u.pu.route = some { r with trim := max (-((cfg s).tol : Int)) (min (cfg s).tol (r.trim - (tail - b))),
                                           lastTrail := some ⟨g, h, b⟩ } ∧
                u.os.active = some { a with tailLeg := .leg k, rear := none } ∧ u.pu.deferral = none ∧
                u.ce.own = s.ce.own.drop i ∧ u.cs = s.cs ∧ u.eu = s.eu ∧
                (s.tli.clash = false → releasedWith (s.ce.own.take i) [] s u))))) ∧
      (∀ f, s.ce.firmEnd = some f →
        (r.x ≤ (f : Int) → overrunTest s = s) ∧
        ((f : Int) < r.x → movingState s.cs.state = true → a.phase ≠ .waiting →
          overrunTest s = raiseFault .authorityOverrun s))) ∧
  (∀ (checkOk leading : Bool) (pad : Nat) (a : ActiveOrder) (r : Route) (s : State), s.tli.kind = .carriage →
      s.os.active = some a → s.pu.route = some r →
      (checkOk = false ∨ leading = false ∨ movingState s.cs.state = false ∨ lastPad a.ord = none ∨
          (∃ p, lastPad a.ord = some p ∧ p.id ≠ pad) ∨ (s.pu.padRead.isSome = true ∧ a.headLeg = a.ord.legs.length) →
        exec (.padMarkerRead checkOk leading pad) s = .next s) ∧
      (∀ p, checkOk = true → leading = true → movingState s.cs.state = true → lastPad a.ord = some p → p.id = pad →
        (a.headLeg ≠ a.ord.legs.length →
          exec (.padMarkerRead checkOk leading pad) s = .next (raiseFault .routeMismatch s)) ∧
        (a.headLeg = a.ord.legs.length → s.pu.padRead = none → exec (.padMarkerRead checkOk leading pad) s =
          .next ((s.setPu { s.pu with padRead := some r.x }).setEu { s.eu with padStop := true }))))

/-! ## The Dock Sequencer -/

/-- The jack switches are followed in every state. DOWN in DOCKING completes the order and parks the carriage, the entry
under the head STANDING and a CLAIM carrying it queued, unless it stood so already (R158, R71), and a pending order is
promoted there: it waits under the latch, and starting it makes the STANDING entry FIRM again; UP in UNDOCKING enters
RUNNING, or HALTED under the latch, or ends a marked order STOPPED in READY, the claims ahead of the head released with
their RELEASEs and POINTS-FREEs (R77, R67); in FAULT the switch of the motion stops it (R155, R158, R160, R162, R16, R9). A
running dock or undock timer at its limit stops the jacks and raises its fault, in FAULT a further one (R159, R161, R174);
that an expiry given while its timer is stopped changes nothing is the model's reading (assumption 4). -/
def Obligations.JacksMove : Prop :=
  ∀ (up down : Bool) (s : State), s.tli.kind = .carriage →
    let pos : JackPos := if up && !down then .up else if down && !up then .down else .between
    let read : State := s.setDs { s.ds with upInput := up, downInput := down, pos := pos }
    let off : Dock := { read.ds with cmd := .off, dockTimer := none, undockTimer := none }
    let head := (headPos s).1
    let parked := s.ce.own.map (fun e => { e with leg := .none, st := if e.seg = head then .standing else e.st })
    let stands (t : State) : Prop := t.ce.own = parked ∧
      (s.tli.clash = false → (∃ e ∈ s.ce.own, e.seg = head ∧ e.st ≠ .standing) →
        queued (.claim 3 (cfg s).refresh ((parked.filter (fun e => decide (e.seg = head))).map itemOf)) t)
    (s.cs.state ≠ .docking → s.cs.state ≠ .undocking → s.cs.state ≠ .fault →
      exec (.jackPositionChange up down) s = .next read) ∧
    (s.cs.state = .docking → pos ≠ .down → exec (.jackPositionChange up down) s = .next read) ∧
    (s.cs.state = .undocking → pos ≠ .up → exec (.jackPositionChange up down) s = .next read) ∧
    (∀ a, s.cs.state = .docking → pos = .down → s.os.active = some a → s.ce.span = none →
      (s.os.pending = none → ∃ t, exec (.jackPositionChange up down) s = .next t ∧ t.cs.state = .parked ∧
        t.os.active = none ∧ t.ds = off ∧ t.eu.brake = .service ∧ stands t ∧
        (s.tli.clash = false → ∀ c, console s = some c →
          queued (.report c { subject := .orderEnd, outcome := .completed, oid := a.ord.id }) t)) ∧
      (∀ p, s.os.pending = some p → s.pu.route.isSome = true →
        ∃ t, exec (.jackPositionChange up down) s = .next t ∧ t.os.pending = none ∧
        (s.cs.latch.isSome = true → t.cs.state = .parked ∧ stands t ∧
          t.os.active.map (fun b => (b.ord, b.phase)) = some (p, .waiting)) ∧
        (s.cs.latch = none → t.cs.state = .fault ∨
          (firstLegOk p t = true ∧ t.cs.state = .undocking ∧ t.ds.cmd = .raise ∧
            (∀ e ∈ t.ce.own, e.st ≠ .standing) ∧
            t.os.active.map (fun b => (b.ord, b.phase)) = some (p, .underway)) ∨
          (firstLegOk p t = false ∧ t.cs.state = .parked ∧ t.os.active = none ∧ t.ds = off ∧ stands t)))) ∧
    (s.cs.state = .undocking → pos = .up →
      (s.os.stopMark = false → ∃ t, exec (.jackPositionChange up down) s = .next t ∧ t.ds = off ∧ t.os = s.os ∧
        t.cs.state = (if s.cs.latch.isSome then .halted else .running) ∧ t.eu.brake = s.eu.brake) ∧
      (∀ a, s.os.stopMark = true → s.os.active = some a → s.os.pending = none → s.ce.span = none →
        ∃ t, exec (.jackPositionChange up down) s = .next t ∧ t.ds = off ∧ t.cs.state = .ready ∧ t.os.active = none ∧
          (∀ before after o, s.ce.own = before ++ o :: after → (s.ce.own.map OwnClaim.seg).Nodup → s.pu.known = true →
            o.seg = head → t.ce.own = (before ++ [o]).map (fun e => { e with leg := .none }) ∧
              (s.tli.clash = false → releasedWith after [] s t)) ∧
          (s.tli.clash = false → ∀ c, console s = some c →
            queued (.report c { subject := .orderEnd, outcome := .stopped, oid := a.ord.id }) t))) ∧
    (s.cs.state = .fault →
      ((s.ds.cmd = .lower ∧ pos = .down) ∨ (s.ds.cmd = .raise ∧ pos = .up) →
        exec (.jackPositionChange up down) s = .next (read.setDs off)) ∧
      (s.ds.cmd = .off → exec (.jackPositionChange up down) s = .next read)) ∧
    (s.ds.dockTimer = none → exec .dockTimeout s = .next s) ∧
    (s.ds.undockTimer = none → exec .undockTimeout s = .next s) ∧
    (s.cs.state ≠ .fault →
      (s.ds.dockTimer.isSome = true → ∃ t, exec .dockTimeout s = .next t ∧ t.cs.state = .fault ∧
        t.cs.fault.map FaultRec.code = some .dockTimeout ∧ t.ds.cmd = .off ∧ t.ds.dockTimer = none) ∧
      (s.ds.undockTimer.isSome = true → ∃ t, exec .undockTimeout s = .next t ∧ t.cs.state = .fault ∧
        t.cs.fault.map FaultRec.code = some .undockTimeout ∧ t.ds.cmd = .off ∧ t.ds.undockTimer = none)) ∧
    (∀ f, s.cs.state = .fault → s.cs.fault = some f →
      let still : Dock := { s.ds with cmd := .off, dockTimer := none, undockTimer := none }
      let further (code : FaultCode) : Supervisor :=
        { s.cs with fault := some { f with further := min (f.further + 1) 65535, last := some code } }
      (s.ds.dockTimer.isSome = true → ∃ t, exec .dockTimeout s = .next t ∧ t.cs = further .dockTimeout ∧ t.ds = still) ∧
      (s.ds.undockTimer.isSome = true →
        ∃ t, exec .undockTimeout s = .next t ∧ t.cs = further .undockTimeout ∧ t.ds = still))
end

