-- ==== Sys2Proof/Laws/State.lean ====
section
/-! SUPPORT. Reading a block after an update of one block: one lemma for each field and each update. -/

namespace Sys2Proof.Machine.State

variable (s : State)

@[simp] theorem setPending_pending (v : List Instr) : (s.setPending v).pending = v := rfl
@[simp] theorem setPending_tli (v : List Instr) : (s.setPending v).tli = s.tli := rfl
@[simp] theorem setPending_os (v : List Instr) : (s.setPending v).os = s.os := rfl
@[simp] theorem setPending_ov (v : List Instr) : (s.setPending v).ov = s.ov := rfl
@[simp] theorem setPending_ce (v : List Instr) : (s.setPending v).ce = s.ce := rfl
@[simp] theorem setPending_pu (v : List Instr) : (s.setPending v).pu = s.pu := rfl
@[simp] theorem setPending_eu (v : List Instr) : (s.setPending v).eu = s.eu := rfl
@[simp] theorem setPending_cr (v : List Instr) : (s.setPending v).cr = s.cr := rfl
@[simp] theorem setPending_ds (v : List Instr) : (s.setPending v).ds = s.ds := rfl
@[simp] theorem setPending_cs (v : List Instr) : (s.setPending v).cs = s.cs := rfl
@[simp] theorem setPending_sv (v : List Instr) : (s.setPending v).sv = s.sv := rfl
@[simp] theorem setPending_pa (v : List Instr) : (s.setPending v).pa = s.pa := rfl
@[simp] theorem setPending_ts (v : List Instr) : (s.setPending v).ts = s.ts := rfl

@[simp] theorem setTli_pending (v : Tli) : (s.setTli v).pending = s.pending := rfl
@[simp] theorem setTli_tli (v : Tli) : (s.setTli v).tli = v := rfl
@[simp] theorem setTli_os (v : Tli) : (s.setTli v).os = s.os := rfl
@[simp] theorem setTli_ov (v : Tli) : (s.setTli v).ov = s.ov := rfl
@[simp] theorem setTli_ce (v : Tli) : (s.setTli v).ce = s.ce := rfl
@[simp] theorem setTli_pu (v : Tli) : (s.setTli v).pu = s.pu := rfl
@[simp] theorem setTli_eu (v : Tli) : (s.setTli v).eu = s.eu := rfl
@[simp] theorem setTli_cr (v : Tli) : (s.setTli v).cr = s.cr := rfl
@[simp] theorem setTli_ds (v : Tli) : (s.setTli v).ds = s.ds := rfl
@[simp] theorem setTli_cs (v : Tli) : (s.setTli v).cs = s.cs := rfl
@[simp] theorem setTli_sv (v : Tli) : (s.setTli v).sv = s.sv := rfl
@[simp] theorem setTli_pa (v : Tli) : (s.setTli v).pa = s.pa := rfl
@[simp] theorem setTli_ts (v : Tli) : (s.setTli v).ts = s.ts := rfl

@[simp] theorem setOs_pending (v : OrderStore) : (s.setOs v).pending = s.pending := rfl
@[simp] theorem setOs_tli (v : OrderStore) : (s.setOs v).tli = s.tli := rfl
@[simp] theorem setOs_os (v : OrderStore) : (s.setOs v).os = v := rfl
@[simp] theorem setOs_ov (v : OrderStore) : (s.setOs v).ov = s.ov := rfl
@[simp] theorem setOs_ce (v : OrderStore) : (s.setOs v).ce = s.ce := rfl
@[simp] theorem setOs_pu (v : OrderStore) : (s.setOs v).pu = s.pu := rfl
@[simp] theorem setOs_eu (v : OrderStore) : (s.setOs v).eu = s.eu := rfl
@[simp] theorem setOs_cr (v : OrderStore) : (s.setOs v).cr = s.cr := rfl
@[simp] theorem setOs_ds (v : OrderStore) : (s.setOs v).ds = s.ds := rfl
@[simp] theorem setOs_cs (v : OrderStore) : (s.setOs v).cs = s.cs := rfl
@[simp] theorem setOs_sv (v : OrderStore) : (s.setOs v).sv = s.sv := rfl
@[simp] theorem setOs_pa (v : OrderStore) : (s.setOs v).pa = s.pa := rfl
@[simp] theorem setOs_ts (v : OrderStore) : (s.setOs v).ts = s.ts := rfl

@[simp] theorem setOv_pending (v : OccView) : (s.setOv v).pending = s.pending := rfl
@[simp] theorem setOv_tli (v : OccView) : (s.setOv v).tli = s.tli := rfl
@[simp] theorem setOv_os (v : OccView) : (s.setOv v).os = s.os := rfl
@[simp] theorem setOv_ov (v : OccView) : (s.setOv v).ov = v := rfl
@[simp] theorem setOv_ce (v : OccView) : (s.setOv v).ce = s.ce := rfl
@[simp] theorem setOv_pu (v : OccView) : (s.setOv v).pu = s.pu := rfl
@[simp] theorem setOv_eu (v : OccView) : (s.setOv v).eu = s.eu := rfl
@[simp] theorem setOv_cr (v : OccView) : (s.setOv v).cr = s.cr := rfl
@[simp] theorem setOv_ds (v : OccView) : (s.setOv v).ds = s.ds := rfl
@[simp] theorem setOv_cs (v : OccView) : (s.setOv v).cs = s.cs := rfl
@[simp] theorem setOv_sv (v : OccView) : (s.setOv v).sv = s.sv := rfl
@[simp] theorem setOv_pa (v : OccView) : (s.setOv v).pa = s.pa := rfl
@[simp] theorem setOv_ts (v : OccView) : (s.setOv v).ts = s.ts := rfl

@[simp] theorem setCe_pending (v : ClaimEngine) : (s.setCe v).pending = s.pending := rfl
@[simp] theorem setCe_tli (v : ClaimEngine) : (s.setCe v).tli = s.tli := rfl
@[simp] theorem setCe_os (v : ClaimEngine) : (s.setCe v).os = s.os := rfl
@[simp] theorem setCe_ov (v : ClaimEngine) : (s.setCe v).ov = s.ov := rfl
@[simp] theorem setCe_ce (v : ClaimEngine) : (s.setCe v).ce = v := rfl
@[simp] theorem setCe_pu (v : ClaimEngine) : (s.setCe v).pu = s.pu := rfl
@[simp] theorem setCe_eu (v : ClaimEngine) : (s.setCe v).eu = s.eu := rfl
@[simp] theorem setCe_cr (v : ClaimEngine) : (s.setCe v).cr = s.cr := rfl
@[simp] theorem setCe_ds (v : ClaimEngine) : (s.setCe v).ds = s.ds := rfl
@[simp] theorem setCe_cs (v : ClaimEngine) : (s.setCe v).cs = s.cs := rfl
@[simp] theorem setCe_sv (v : ClaimEngine) : (s.setCe v).sv = s.sv := rfl
@[simp] theorem setCe_pa (v : ClaimEngine) : (s.setCe v).pa = s.pa := rfl
@[simp] theorem setCe_ts (v : ClaimEngine) : (s.setCe v).ts = s.ts := rfl

@[simp] theorem setPu_pending (v : PosUnit) : (s.setPu v).pending = s.pending := rfl
@[simp] theorem setPu_tli (v : PosUnit) : (s.setPu v).tli = s.tli := rfl
@[simp] theorem setPu_os (v : PosUnit) : (s.setPu v).os = s.os := rfl
@[simp] theorem setPu_ov (v : PosUnit) : (s.setPu v).ov = s.ov := rfl
@[simp] theorem setPu_ce (v : PosUnit) : (s.setPu v).ce = s.ce := rfl
@[simp] theorem setPu_pu (v : PosUnit) : (s.setPu v).pu = v := rfl
@[simp] theorem setPu_eu (v : PosUnit) : (s.setPu v).eu = s.eu := rfl
@[simp] theorem setPu_cr (v : PosUnit) : (s.setPu v).cr = s.cr := rfl
@[simp] theorem setPu_ds (v : PosUnit) : (s.setPu v).ds = s.ds := rfl
@[simp] theorem setPu_cs (v : PosUnit) : (s.setPu v).cs = s.cs := rfl
@[simp] theorem setPu_sv (v : PosUnit) : (s.setPu v).sv = s.sv := rfl
@[simp] theorem setPu_pa (v : PosUnit) : (s.setPu v).pa = s.pa := rfl
@[simp] theorem setPu_ts (v : PosUnit) : (s.setPu v).ts = s.ts := rfl

@[simp] theorem setEu_pending (v : Envelope) : (s.setEu v).pending = s.pending := rfl
@[simp] theorem setEu_tli (v : Envelope) : (s.setEu v).tli = s.tli := rfl
@[simp] theorem setEu_os (v : Envelope) : (s.setEu v).os = s.os := rfl
@[simp] theorem setEu_ov (v : Envelope) : (s.setEu v).ov = s.ov := rfl
@[simp] theorem setEu_ce (v : Envelope) : (s.setEu v).ce = s.ce := rfl
@[simp] theorem setEu_pu (v : Envelope) : (s.setEu v).pu = s.pu := rfl
@[simp] theorem setEu_eu (v : Envelope) : (s.setEu v).eu = v := rfl
@[simp] theorem setEu_cr (v : Envelope) : (s.setEu v).cr = s.cr := rfl
@[simp] theorem setEu_ds (v : Envelope) : (s.setEu v).ds = s.ds := rfl
@[simp] theorem setEu_cs (v : Envelope) : (s.setEu v).cs = s.cs := rfl
@[simp] theorem setEu_sv (v : Envelope) : (s.setEu v).sv = s.sv := rfl
@[simp] theorem setEu_pa (v : Envelope) : (s.setEu v).pa = s.pa := rfl
@[simp] theorem setEu_ts (v : Envelope) : (s.setEu v).ts = s.ts := rfl

@[simp] theorem setCr_pending (v : Convoy) : (s.setCr v).pending = s.pending := rfl
@[simp] theorem setCr_tli (v : Convoy) : (s.setCr v).tli = s.tli := rfl
@[simp] theorem setCr_os (v : Convoy) : (s.setCr v).os = s.os := rfl
@[simp] theorem setCr_ov (v : Convoy) : (s.setCr v).ov = s.ov := rfl
@[simp] theorem setCr_ce (v : Convoy) : (s.setCr v).ce = s.ce := rfl
@[simp] theorem setCr_pu (v : Convoy) : (s.setCr v).pu = s.pu := rfl
@[simp] theorem setCr_eu (v : Convoy) : (s.setCr v).eu = s.eu := rfl
@[simp] theorem setCr_cr (v : Convoy) : (s.setCr v).cr = v := rfl
@[simp] theorem setCr_ds (v : Convoy) : (s.setCr v).ds = s.ds := rfl
@[simp] theorem setCr_cs (v : Convoy) : (s.setCr v).cs = s.cs := rfl
@[simp] theorem setCr_sv (v : Convoy) : (s.setCr v).sv = s.sv := rfl
@[simp] theorem setCr_pa (v : Convoy) : (s.setCr v).pa = s.pa := rfl
@[simp] theorem setCr_ts (v : Convoy) : (s.setCr v).ts = s.ts := rfl

@[simp] theorem setDs_pending (v : Dock) : (s.setDs v).pending = s.pending := rfl
@[simp] theorem setDs_tli (v : Dock) : (s.setDs v).tli = s.tli := rfl
@[simp] theorem setDs_os (v : Dock) : (s.setDs v).os = s.os := rfl
@[simp] theorem setDs_ov (v : Dock) : (s.setDs v).ov = s.ov := rfl
@[simp] theorem setDs_ce (v : Dock) : (s.setDs v).ce = s.ce := rfl
@[simp] theorem setDs_pu (v : Dock) : (s.setDs v).pu = s.pu := rfl
@[simp] theorem setDs_eu (v : Dock) : (s.setDs v).eu = s.eu := rfl
@[simp] theorem setDs_cr (v : Dock) : (s.setDs v).cr = s.cr := rfl
@[simp] theorem setDs_ds (v : Dock) : (s.setDs v).ds = v := rfl
@[simp] theorem setDs_cs (v : Dock) : (s.setDs v).cs = s.cs := rfl
@[simp] theorem setDs_sv (v : Dock) : (s.setDs v).sv = s.sv := rfl
@[simp] theorem setDs_pa (v : Dock) : (s.setDs v).pa = s.pa := rfl
@[simp] theorem setDs_ts (v : Dock) : (s.setDs v).ts = s.ts := rfl

@[simp] theorem setCs_pending (v : Supervisor) : (s.setCs v).pending = s.pending := rfl
@[simp] theorem setCs_tli (v : Supervisor) : (s.setCs v).tli = s.tli := rfl
@[simp] theorem setCs_os (v : Supervisor) : (s.setCs v).os = s.os := rfl
@[simp] theorem setCs_ov (v : Supervisor) : (s.setCs v).ov = s.ov := rfl
@[simp] theorem setCs_ce (v : Supervisor) : (s.setCs v).ce = s.ce := rfl
@[simp] theorem setCs_pu (v : Supervisor) : (s.setCs v).pu = s.pu := rfl
@[simp] theorem setCs_eu (v : Supervisor) : (s.setCs v).eu = s.eu := rfl
@[simp] theorem setCs_cr (v : Supervisor) : (s.setCs v).cr = s.cr := rfl
@[simp] theorem setCs_ds (v : Supervisor) : (s.setCs v).ds = s.ds := rfl
@[simp] theorem setCs_cs (v : Supervisor) : (s.setCs v).cs = v := rfl
@[simp] theorem setCs_sv (v : Supervisor) : (s.setCs v).sv = s.sv := rfl
@[simp] theorem setCs_pa (v : Supervisor) : (s.setCs v).pa = s.pa := rfl
@[simp] theorem setCs_ts (v : Supervisor) : (s.setCs v).ts = s.ts := rfl

@[simp] theorem setSv_pending (v : SegView) : (s.setSv v).pending = s.pending := rfl
@[simp] theorem setSv_tli (v : SegView) : (s.setSv v).tli = s.tli := rfl
@[simp] theorem setSv_os (v : SegView) : (s.setSv v).os = s.os := rfl
@[simp] theorem setSv_ov (v : SegView) : (s.setSv v).ov = s.ov := rfl
@[simp] theorem setSv_ce (v : SegView) : (s.setSv v).ce = s.ce := rfl
@[simp] theorem setSv_pu (v : SegView) : (s.setSv v).pu = s.pu := rfl
@[simp] theorem setSv_eu (v : SegView) : (s.setSv v).eu = s.eu := rfl
@[simp] theorem setSv_cr (v : SegView) : (s.setSv v).cr = s.cr := rfl
@[simp] theorem setSv_ds (v : SegView) : (s.setSv v).ds = s.ds := rfl
@[simp] theorem setSv_cs (v : SegView) : (s.setSv v).cs = s.cs := rfl
@[simp] theorem setSv_sv (v : SegView) : (s.setSv v).sv = v := rfl
@[simp] theorem setSv_pa (v : SegView) : (s.setSv v).pa = s.pa := rfl
@[simp] theorem setSv_ts (v : SegView) : (s.setSv v).ts = s.ts := rfl

@[simp] theorem setPa_pending (v : Arbiter) : (s.setPa v).pending = s.pending := rfl
@[simp] theorem setPa_tli (v : Arbiter) : (s.setPa v).tli = s.tli := rfl
@[simp] theorem setPa_os (v : Arbiter) : (s.setPa v).os = s.os := rfl
@[simp] theorem setPa_ov (v : Arbiter) : (s.setPa v).ov = s.ov := rfl
@[simp] theorem setPa_ce (v : Arbiter) : (s.setPa v).ce = s.ce := rfl
@[simp] theorem setPa_pu (v : Arbiter) : (s.setPa v).pu = s.pu := rfl
@[simp] theorem setPa_eu (v : Arbiter) : (s.setPa v).eu = s.eu := rfl
@[simp] theorem setPa_cr (v : Arbiter) : (s.setPa v).cr = s.cr := rfl
@[simp] theorem setPa_ds (v : Arbiter) : (s.setPa v).ds = s.ds := rfl
@[simp] theorem setPa_cs (v : Arbiter) : (s.setPa v).cs = s.cs := rfl
@[simp] theorem setPa_sv (v : Arbiter) : (s.setPa v).sv = s.sv := rfl
@[simp] theorem setPa_pa (v : Arbiter) : (s.setPa v).pa = v := rfl
@[simp] theorem setPa_ts (v : Arbiter) : (s.setPa v).ts = s.ts := rfl

@[simp] theorem setTs_pending (v : Throw) : (s.setTs v).pending = s.pending := rfl
@[simp] theorem setTs_tli (v : Throw) : (s.setTs v).tli = s.tli := rfl
@[simp] theorem setTs_os (v : Throw) : (s.setTs v).os = s.os := rfl
@[simp] theorem setTs_ov (v : Throw) : (s.setTs v).ov = s.ov := rfl
@[simp] theorem setTs_ce (v : Throw) : (s.setTs v).ce = s.ce := rfl
@[simp] theorem setTs_pu (v : Throw) : (s.setTs v).pu = s.pu := rfl
@[simp] theorem setTs_eu (v : Throw) : (s.setTs v).eu = s.eu := rfl
@[simp] theorem setTs_cr (v : Throw) : (s.setTs v).cr = s.cr := rfl
@[simp] theorem setTs_ds (v : Throw) : (s.setTs v).ds = s.ds := rfl
@[simp] theorem setTs_cs (v : Throw) : (s.setTs v).cs = s.cs := rfl
@[simp] theorem setTs_sv (v : Throw) : (s.setTs v).sv = s.sv := rfl
@[simp] theorem setTs_pa (v : Throw) : (s.setTs v).pa = s.pa := rfl
@[simp] theorem setTs_ts (v : Throw) : (s.setTs v).ts = v := rfl

end Sys2Proof.Machine.State
end

