-- ==== Sys2Proof/Laws/Ops.lean ====
section
/-! SUPPORT. What the shared operations of Machine/Ops.lean leave alone and what they guarantee: the transmit queue and
the frames queued on it, the square root. -/

namespace Sys2Proof.Machine

open Sys2Proof

/-! ## The square root -/

theorem isqrtBits_spec (k r n : Nat) (lo : r * r ≤ n) (hi : n < (r + 2 ^ k) * (r + 2 ^ k)) :
    isqrtBits k r n * isqrtBits k r n ≤ n ∧ n < (isqrtBits k r n + 1) * (isqrtBits k r n + 1) := by
  induction k generalizing r with
  | zero => simpa [isqrtBits] using ⟨lo, hi⟩
  | succ k ih =>
    unfold isqrtBits
    split
    · exact ih _ ‹_› (by rw [show r + 2 ^ k + 2 ^ k = r + 2 ^ (k + 1) by rw [pow_succ]; ring]; exact hi)
    · exact ih _ lo (by omega)

/-- The square root of an unsigned 32-bit integer is the floor of its root (R142). -/
theorem isqrt_spec (n : Nat) (h : n < 2 ^ 32) : isqrt n * isqrt n ≤ n ∧ n < (isqrt n + 1) * (isqrt n + 1) :=
  isqrtBits_spec 16 0 n (by omega) (by simpa using h)

/-! ## What an offer leaves alone (R190) -/

@[simp] theorem offerPlain_addr (e : TxEntry) (t : Tli) : (offerPlain e t).addr = t.addr := by
  unfold offerPlain keepFrame; repeat' split
  all_goals rfl

@[simp] theorem offerTli_addr (e : TxEntry) (t : Tli) : (offerTli e t).addr = t.addr := by
  unfold offerTli; repeat' split
  all_goals simp

@[simp] theorem offerPlain_kind (e : TxEntry) (t : Tli) : (offerPlain e t).kind = t.kind := by
  unfold offerPlain keepFrame; repeat' split
  all_goals rfl

@[simp] theorem offerTli_kind (e : TxEntry) (t : Tli) : (offerTli e t).kind = t.kind := by
  unfold offerTli; repeat' split
  all_goals simp

@[simp] theorem offerPlain_inbound (e : TxEntry) (t : Tli) : (offerPlain e t).inbound = t.inbound := by
  unfold offerPlain keepFrame; repeat' split
  all_goals rfl

@[simp] theorem offerTli_inbound (e : TxEntry) (t : Tli) : (offerTli e t).inbound = t.inbound := by
  unfold offerTli; repeat' split
  all_goals simp

@[simp] theorem offerPlain_silence (e : TxEntry) (t : Tli) : (offerPlain e t).silence = t.silence := by
  unfold offerPlain keepFrame; repeat' split
  all_goals rfl

@[simp] theorem offerTli_silence (e : TxEntry) (t : Tli) : (offerTli e t).silence = t.silence := by
  unfold offerTli; repeat' split
  all_goals simp

@[simp] theorem offerPlain_silent (e : TxEntry) (t : Tli) : (offerPlain e t).silent = t.silent := by
  unfold offerPlain keepFrame; repeat' split
  all_goals rfl

@[simp] theorem offerTli_silent (e : TxEntry) (t : Tli) : (offerTli e t).silent = t.silent := by
  unfold offerTli; repeat' split
  all_goals simp

@[simp] theorem offerPlain_clash (e : TxEntry) (t : Tli) : (offerPlain e t).clash = t.clash := by
  unfold offerPlain keepFrame; repeat' split
  all_goals rfl

@[simp] theorem offerTli_clash (e : TxEntry) (t : Tli) : (offerTli e t).clash = t.clash := by
  unfold offerTli; repeat' split
  all_goals simp

@[simp] theorem offerPlain_malformed (e : TxEntry) (t : Tli) :
    (offerPlain e t).counters.malformed = t.counters.malformed := by
  unfold offerPlain keepFrame Counters.displace; repeat' split
  all_goals rfl

@[simp] theorem offerTli_malformed (e : TxEntry) (t : Tli) : (offerTli e t).counters.malformed = t.counters.malformed := by
  unfold offerTli; repeat' split
  all_goals simp

@[simp] theorem offerPlain_unacked (e : TxEntry) (t : Tli) :
    (offerPlain e t).counters.unacked = t.counters.unacked := by
  unfold offerPlain keepFrame Counters.displace; repeat' split
  all_goals rfl

@[simp] theorem offerTli_unacked (e : TxEntry) (t : Tli) : (offerTli e t).counters.unacked = t.counters.unacked := by
  unfold offerTli; repeat' split
  all_goals simp

@[simp] theorem offerPlain_overflow (e : TxEntry) (t : Tli) :
    (offerPlain e t).counters.overflow = t.counters.overflow := by
  unfold offerPlain keepFrame Counters.displace; repeat' split
  all_goals rfl

@[simp] theorem offerTli_overflow (e : TxEntry) (t : Tli) : (offerTli e t).counters.overflow = t.counters.overflow := by
  unfold offerTli; repeat' split
  all_goals simp

@[simp] theorem settleRefresh_pending (s : State) : (settleRefresh s).pending = s.pending := by
  unfold settleRefresh; split <;> rfl

@[simp] theorem settleRefresh_tli (s : State) : (settleRefresh s).tli = s.tli := by
  unfold settleRefresh; split <;> rfl

@[simp] theorem settleRefresh_os (s : State) : (settleRefresh s).os = s.os := by
  unfold settleRefresh; split <;> rfl

@[simp] theorem settleRefresh_ov (s : State) : (settleRefresh s).ov = s.ov := by
  unfold settleRefresh; split <;> rfl

@[simp] theorem settleRefresh_pu (s : State) : (settleRefresh s).pu = s.pu := by
  unfold settleRefresh; split <;> rfl

@[simp] theorem settleRefresh_eu (s : State) : (settleRefresh s).eu = s.eu := by
  unfold settleRefresh; split <;> rfl

@[simp] theorem settleRefresh_cr (s : State) : (settleRefresh s).cr = s.cr := by
  unfold settleRefresh; split <;> rfl

@[simp] theorem settleRefresh_ds (s : State) : (settleRefresh s).ds = s.ds := by
  unfold settleRefresh; split <;> rfl

@[simp] theorem settleRefresh_cs (s : State) : (settleRefresh s).cs = s.cs := by
  unfold settleRefresh; split <;> rfl

@[simp] theorem settleRefresh_sv (s : State) : (settleRefresh s).sv = s.sv := by
  unfold settleRefresh; split <;> rfl

@[simp] theorem settleRefresh_pa (s : State) : (settleRefresh s).pa = s.pa := by
  unfold settleRefresh; split <;> rfl

@[simp] theorem settleRefresh_ts (s : State) : (settleRefresh s).ts = s.ts := by
  unfold settleRefresh; split <;> rfl

@[simp] theorem settleRefresh_ce_own (s : State) : (settleRefresh s).ce.own = s.ce.own := by
  unfold settleRefresh; split <;> rfl

@[simp] theorem settleRefresh_ce_span (s : State) : (settleRefresh s).ce.span = s.ce.span := by
  unfold settleRefresh; split <;> rfl

@[simp] theorem settleRefresh_ce_backoff (s : State) : (settleRefresh s).ce.backoff = s.ce.backoff := by
  unfold settleRefresh; split <;> rfl

@[simp] theorem settleRefresh_ce_attempts (s : State) : (settleRefresh s).ce.attempts = s.ce.attempts := by
  unfold settleRefresh; split <;> rfl

@[simp] theorem settleRefresh_ce_attemptLeg (s : State) : (settleRefresh s).ce.attemptLeg = s.ce.attemptLeg := by
  unfold settleRefresh; split <;> rfl

@[simp] theorem settleRefresh_ce_spanLimit (s : State) : (settleRefresh s).ce.spanLimit = s.ce.spanLimit := by
  unfold settleRefresh; split <;> rfl

@[simp] theorem settleRefresh_ce_failedHold (s : State) : (settleRefresh s).ce.failedHold = s.ce.failedHold := by
  unfold settleRefresh; split <;> rfl

@[simp] theorem settleRefresh_ce_abort (s : State) : (settleRefresh s).ce.abort = s.ce.abort := by
  unfold settleRefresh; split <;> rfl

@[simp] theorem settleRefresh_ce_abortCount (s : State) : (settleRefresh s).ce.abortCount = s.ce.abortCount := by
  unfold settleRefresh; split <;> rfl

@[simp] theorem settleRefresh_ce_exempt (s : State) : (settleRefresh s).ce.exempt = s.ce.exempt := by
  unfold settleRefresh; split <;> rfl

@[simp] theorem settleRefresh_ce_firmEnd (s : State) : (settleRefresh s).ce.firmEnd = s.ce.firmEnd := by
  unfold settleRefresh; split <;> rfl

@[simp] theorem settleRefresh_ce_clashMem (s : State) : (settleRefresh s).ce.clashMem = s.ce.clashMem := by
  unfold settleRefresh; split <;> rfl

@[simp] theorem settleRefresh_ce_lostMem (s : State) : (settleRefresh s).ce.lostMem = s.ce.lostMem := by
  unfold settleRefresh; split <;> rfl

@[simp] theorem settleRefresh_ce_triggered (s : State) : (settleRefresh s).ce.triggered = s.ce.triggered := by
  unfold settleRefresh; split <;> rfl

@[simp] theorem offer_pending (b : Block) (p : Bool) (g : TxTag) (f : Frame) (s : State) : (offer b p g f s).pending = s.pending := by
  simp [offer]

@[simp] theorem offer_os (b : Block) (p : Bool) (g : TxTag) (f : Frame) (s : State) : (offer b p g f s).os = s.os := by
  simp [offer]

@[simp] theorem offer_ov (b : Block) (p : Bool) (g : TxTag) (f : Frame) (s : State) : (offer b p g f s).ov = s.ov := by
  simp [offer]

@[simp] theorem offer_pu (b : Block) (p : Bool) (g : TxTag) (f : Frame) (s : State) : (offer b p g f s).pu = s.pu := by
  simp [offer]

@[simp] theorem offer_eu (b : Block) (p : Bool) (g : TxTag) (f : Frame) (s : State) : (offer b p g f s).eu = s.eu := by
  simp [offer]

@[simp] theorem offer_cr (b : Block) (p : Bool) (g : TxTag) (f : Frame) (s : State) : (offer b p g f s).cr = s.cr := by
  simp [offer]

@[simp] theorem offer_ds (b : Block) (p : Bool) (g : TxTag) (f : Frame) (s : State) : (offer b p g f s).ds = s.ds := by
  simp [offer]

@[simp] theorem offer_cs (b : Block) (p : Bool) (g : TxTag) (f : Frame) (s : State) : (offer b p g f s).cs = s.cs := by
  simp [offer]

@[simp] theorem offer_sv (b : Block) (p : Bool) (g : TxTag) (f : Frame) (s : State) : (offer b p g f s).sv = s.sv := by
  simp [offer]

@[simp] theorem offer_pa (b : Block) (p : Bool) (g : TxTag) (f : Frame) (s : State) : (offer b p g f s).pa = s.pa := by
  simp [offer]

@[simp] theorem offer_ts (b : Block) (p : Bool) (g : TxTag) (f : Frame) (s : State) : (offer b p g f s).ts = s.ts := by
  simp [offer]

@[simp] theorem offer_ce_own (b : Block) (p : Bool) (g : TxTag) (f : Frame) (s : State) :
    (offer b p g f s).ce.own = s.ce.own := by
  simp [offer]

@[simp] theorem offer_ce_span (b : Block) (p : Bool) (g : TxTag) (f : Frame) (s : State) :
    (offer b p g f s).ce.span = s.ce.span := by
  simp [offer]

@[simp] theorem offer_ce_backoff (b : Block) (p : Bool) (g : TxTag) (f : Frame) (s : State) :
    (offer b p g f s).ce.backoff = s.ce.backoff := by
  simp [offer]

@[simp] theorem offer_ce_attempts (b : Block) (p : Bool) (g : TxTag) (f : Frame) (s : State) :
    (offer b p g f s).ce.attempts = s.ce.attempts := by
  simp [offer]

@[simp] theorem offer_ce_attemptLeg (b : Block) (p : Bool) (g : TxTag) (f : Frame) (s : State) :
    (offer b p g f s).ce.attemptLeg = s.ce.attemptLeg := by
  simp [offer]

@[simp] theorem offer_ce_spanLimit (b : Block) (p : Bool) (g : TxTag) (f : Frame) (s : State) :
    (offer b p g f s).ce.spanLimit = s.ce.spanLimit := by
  simp [offer]

@[simp] theorem offer_ce_failedHold (b : Block) (p : Bool) (g : TxTag) (f : Frame) (s : State) :
    (offer b p g f s).ce.failedHold = s.ce.failedHold := by
  simp [offer]

@[simp] theorem offer_ce_abort (b : Block) (p : Bool) (g : TxTag) (f : Frame) (s : State) :
    (offer b p g f s).ce.abort = s.ce.abort := by
  simp [offer]

@[simp] theorem offer_ce_abortCount (b : Block) (p : Bool) (g : TxTag) (f : Frame) (s : State) :
    (offer b p g f s).ce.abortCount = s.ce.abortCount := by
  simp [offer]

@[simp] theorem offer_ce_exempt (b : Block) (p : Bool) (g : TxTag) (f : Frame) (s : State) :
    (offer b p g f s).ce.exempt = s.ce.exempt := by
  simp [offer]

@[simp] theorem offer_ce_firmEnd (b : Block) (p : Bool) (g : TxTag) (f : Frame) (s : State) :
    (offer b p g f s).ce.firmEnd = s.ce.firmEnd := by
  simp [offer]

@[simp] theorem offer_ce_clashMem (b : Block) (p : Bool) (g : TxTag) (f : Frame) (s : State) :
    (offer b p g f s).ce.clashMem = s.ce.clashMem := by
  simp [offer]

@[simp] theorem offer_ce_lostMem (b : Block) (p : Bool) (g : TxTag) (f : Frame) (s : State) :
    (offer b p g f s).ce.lostMem = s.ce.lostMem := by
  simp [offer]

@[simp] theorem offer_ce_triggered (b : Block) (p : Bool) (g : TxTag) (f : Frame) (s : State) :
    (offer b p g f s).ce.triggered = s.ce.triggered := by
  simp [offer]

@[simp] theorem offer_tli_addr (b : Block) (p : Bool) (g : TxTag) (f : Frame) (s : State) :
    (offer b p g f s).tli.addr = s.tli.addr := by
  simp [offer]

@[simp] theorem offer_tli_kind (b : Block) (p : Bool) (g : TxTag) (f : Frame) (s : State) :
    (offer b p g f s).tli.kind = s.tli.kind := by
  simp [offer]

@[simp] theorem offer_tli_inbound (b : Block) (p : Bool) (g : TxTag) (f : Frame) (s : State) :
    (offer b p g f s).tli.inbound = s.tli.inbound := by
  simp [offer]

@[simp] theorem offer_tli_silence (b : Block) (p : Bool) (g : TxTag) (f : Frame) (s : State) :
    (offer b p g f s).tli.silence = s.tli.silence := by
  simp [offer]

@[simp] theorem offer_tli_silent (b : Block) (p : Bool) (g : TxTag) (f : Frame) (s : State) :
    (offer b p g f s).tli.silent = s.tli.silent := by
  simp [offer]

@[simp] theorem offer_tli_clash (b : Block) (p : Bool) (g : TxTag) (f : Frame) (s : State) :
    (offer b p g f s).tli.clash = s.tli.clash := by
  simp [offer]

@[simp] theorem report_pending (b : Block) (u : Subject) (o : ReportOutcome) (n : Nat) (s : State) : (report b u o n s).pending = s.pending := by
  unfold report; split <;> simp

@[simp] theorem report_os (b : Block) (u : Subject) (o : ReportOutcome) (n : Nat) (s : State) : (report b u o n s).os = s.os := by
  unfold report; split <;> simp

@[simp] theorem report_ov (b : Block) (u : Subject) (o : ReportOutcome) (n : Nat) (s : State) : (report b u o n s).ov = s.ov := by
  unfold report; split <;> simp

@[simp] theorem report_pu (b : Block) (u : Subject) (o : ReportOutcome) (n : Nat) (s : State) : (report b u o n s).pu = s.pu := by
  unfold report; split <;> simp

@[simp] theorem report_eu (b : Block) (u : Subject) (o : ReportOutcome) (n : Nat) (s : State) : (report b u o n s).eu = s.eu := by
  unfold report; split <;> simp

@[simp] theorem report_cr (b : Block) (u : Subject) (o : ReportOutcome) (n : Nat) (s : State) : (report b u o n s).cr = s.cr := by
  unfold report; split <;> simp

@[simp] theorem report_ds (b : Block) (u : Subject) (o : ReportOutcome) (n : Nat) (s : State) : (report b u o n s).ds = s.ds := by
  unfold report; split <;> simp

@[simp] theorem report_cs (b : Block) (u : Subject) (o : ReportOutcome) (n : Nat) (s : State) : (report b u o n s).cs = s.cs := by
  unfold report; split <;> simp

@[simp] theorem report_sv (b : Block) (u : Subject) (o : ReportOutcome) (n : Nat) (s : State) : (report b u o n s).sv = s.sv := by
  unfold report; split <;> simp

@[simp] theorem report_pa (b : Block) (u : Subject) (o : ReportOutcome) (n : Nat) (s : State) : (report b u o n s).pa = s.pa := by
  unfold report; split <;> simp

@[simp] theorem report_ts (b : Block) (u : Subject) (o : ReportOutcome) (n : Nat) (s : State) : (report b u o n s).ts = s.ts := by
  unfold report; split <;> simp

@[simp] theorem report_ce_own (b : Block) (u : Subject) (o : ReportOutcome) (n : Nat) (s : State) :
    (report b u o n s).ce.own = s.ce.own := by
  unfold report; split <;> simp

@[simp] theorem report_ce_span (b : Block) (u : Subject) (o : ReportOutcome) (n : Nat) (s : State) :
    (report b u o n s).ce.span = s.ce.span := by
  unfold report; split <;> simp

@[simp] theorem report_ce_backoff (b : Block) (u : Subject) (o : ReportOutcome) (n : Nat) (s : State) :
    (report b u o n s).ce.backoff = s.ce.backoff := by
  unfold report; split <;> simp

@[simp] theorem report_ce_attempts (b : Block) (u : Subject) (o : ReportOutcome) (n : Nat) (s : State) :
    (report b u o n s).ce.attempts = s.ce.attempts := by
  unfold report; split <;> simp

@[simp] theorem report_ce_attemptLeg (b : Block) (u : Subject) (o : ReportOutcome) (n : Nat) (s : State) :
    (report b u o n s).ce.attemptLeg = s.ce.attemptLeg := by
  unfold report; split <;> simp

@[simp] theorem report_ce_spanLimit (b : Block) (u : Subject) (o : ReportOutcome) (n : Nat) (s : State) :
    (report b u o n s).ce.spanLimit = s.ce.spanLimit := by
  unfold report; split <;> simp

@[simp] theorem report_ce_failedHold (b : Block) (u : Subject) (o : ReportOutcome) (n : Nat) (s : State) :
    (report b u o n s).ce.failedHold = s.ce.failedHold := by
  unfold report; split <;> simp

@[simp] theorem report_ce_abort (b : Block) (u : Subject) (o : ReportOutcome) (n : Nat) (s : State) :
    (report b u o n s).ce.abort = s.ce.abort := by
  unfold report; split <;> simp

@[simp] theorem report_ce_abortCount (b : Block) (u : Subject) (o : ReportOutcome) (n : Nat) (s : State) :
    (report b u o n s).ce.abortCount = s.ce.abortCount := by
  unfold report; split <;> simp

@[simp] theorem report_ce_exempt (b : Block) (u : Subject) (o : ReportOutcome) (n : Nat) (s : State) :
    (report b u o n s).ce.exempt = s.ce.exempt := by
  unfold report; split <;> simp

@[simp] theorem report_ce_firmEnd (b : Block) (u : Subject) (o : ReportOutcome) (n : Nat) (s : State) :
    (report b u o n s).ce.firmEnd = s.ce.firmEnd := by
  unfold report; split <;> simp

@[simp] theorem report_ce_clashMem (b : Block) (u : Subject) (o : ReportOutcome) (n : Nat) (s : State) :
    (report b u o n s).ce.clashMem = s.ce.clashMem := by
  unfold report; split <;> simp

@[simp] theorem report_ce_lostMem (b : Block) (u : Subject) (o : ReportOutcome) (n : Nat) (s : State) :
    (report b u o n s).ce.lostMem = s.ce.lostMem := by
  unfold report; split <;> simp

@[simp] theorem report_ce_triggered (b : Block) (u : Subject) (o : ReportOutcome) (n : Nat) (s : State) :
    (report b u o n s).ce.triggered = s.ce.triggered := by
  unfold report; split <;> simp

@[simp] theorem report_tli_addr (b : Block) (u : Subject) (o : ReportOutcome) (n : Nat) (s : State) :
    (report b u o n s).tli.addr = s.tli.addr := by
  unfold report; split <;> simp

@[simp] theorem report_tli_kind (b : Block) (u : Subject) (o : ReportOutcome) (n : Nat) (s : State) :
    (report b u o n s).tli.kind = s.tli.kind := by
  unfold report; split <;> simp

@[simp] theorem report_tli_inbound (b : Block) (u : Subject) (o : ReportOutcome) (n : Nat) (s : State) :
    (report b u o n s).tli.inbound = s.tli.inbound := by
  unfold report; split <;> simp

@[simp] theorem report_tli_silence (b : Block) (u : Subject) (o : ReportOutcome) (n : Nat) (s : State) :
    (report b u o n s).tli.silence = s.tli.silence := by
  unfold report; split <;> simp

@[simp] theorem report_tli_silent (b : Block) (u : Subject) (o : ReportOutcome) (n : Nat) (s : State) :
    (report b u o n s).tli.silent = s.tli.silent := by
  unfold report; split <;> simp

@[simp] theorem report_tli_clash (b : Block) (u : Subject) (o : ReportOutcome) (n : Nat) (s : State) :
    (report b u o n s).tli.clash = s.tli.clash := by
  unfold report; split <;> simp

@[simp] theorem queueClaim_pending (g : TxTag) (c : Nat) (l : List OwnClaim) (s : State) : (queueClaim g c l s).pending = s.pending := by
  unfold queueClaim; split <;> simp

@[simp] theorem queueClaim_os (g : TxTag) (c : Nat) (l : List OwnClaim) (s : State) : (queueClaim g c l s).os = s.os := by
  unfold queueClaim; split <;> simp

@[simp] theorem queueClaim_ov (g : TxTag) (c : Nat) (l : List OwnClaim) (s : State) : (queueClaim g c l s).ov = s.ov := by
  unfold queueClaim; split <;> simp

@[simp] theorem queueClaim_pu (g : TxTag) (c : Nat) (l : List OwnClaim) (s : State) : (queueClaim g c l s).pu = s.pu := by
  unfold queueClaim; split <;> simp

@[simp] theorem queueClaim_eu (g : TxTag) (c : Nat) (l : List OwnClaim) (s : State) : (queueClaim g c l s).eu = s.eu := by
  unfold queueClaim; split <;> simp

@[simp] theorem queueClaim_cr (g : TxTag) (c : Nat) (l : List OwnClaim) (s : State) : (queueClaim g c l s).cr = s.cr := by
  unfold queueClaim; split <;> simp

@[simp] theorem queueClaim_ds (g : TxTag) (c : Nat) (l : List OwnClaim) (s : State) : (queueClaim g c l s).ds = s.ds := by
  unfold queueClaim; split <;> simp

@[simp] theorem queueClaim_cs (g : TxTag) (c : Nat) (l : List OwnClaim) (s : State) : (queueClaim g c l s).cs = s.cs := by
  unfold queueClaim; split <;> simp

@[simp] theorem queueClaim_sv (g : TxTag) (c : Nat) (l : List OwnClaim) (s : State) : (queueClaim g c l s).sv = s.sv := by
  unfold queueClaim; split <;> simp

@[simp] theorem queueClaim_pa (g : TxTag) (c : Nat) (l : List OwnClaim) (s : State) : (queueClaim g c l s).pa = s.pa := by
  unfold queueClaim; split <;> simp

@[simp] theorem queueClaim_ts (g : TxTag) (c : Nat) (l : List OwnClaim) (s : State) : (queueClaim g c l s).ts = s.ts := by
  unfold queueClaim; split <;> simp

@[simp] theorem queueClaim_ce_own (g : TxTag) (c : Nat) (l : List OwnClaim) (s : State) :
    (queueClaim g c l s).ce.own = s.ce.own := by
  unfold queueClaim; split <;> simp

@[simp] theorem queueClaim_ce_span (g : TxTag) (c : Nat) (l : List OwnClaim) (s : State) :
    (queueClaim g c l s).ce.span = s.ce.span := by
  unfold queueClaim; split <;> simp

@[simp] theorem queueClaim_ce_backoff (g : TxTag) (c : Nat) (l : List OwnClaim) (s : State) :
    (queueClaim g c l s).ce.backoff = s.ce.backoff := by
  unfold queueClaim; split <;> simp

@[simp] theorem queueClaim_ce_attempts (g : TxTag) (c : Nat) (l : List OwnClaim) (s : State) :
    (queueClaim g c l s).ce.attempts = s.ce.attempts := by
  unfold queueClaim; split <;> simp

@[simp] theorem queueClaim_ce_attemptLeg (g : TxTag) (c : Nat) (l : List OwnClaim) (s : State) :
    (queueClaim g c l s).ce.attemptLeg = s.ce.attemptLeg := by
  unfold queueClaim; split <;> simp

@[simp] theorem queueClaim_ce_spanLimit (g : TxTag) (c : Nat) (l : List OwnClaim) (s : State) :
    (queueClaim g c l s).ce.spanLimit = s.ce.spanLimit := by
  unfold queueClaim; split <;> simp

@[simp] theorem queueClaim_ce_failedHold (g : TxTag) (c : Nat) (l : List OwnClaim) (s : State) :
    (queueClaim g c l s).ce.failedHold = s.ce.failedHold := by
  unfold queueClaim; split <;> simp

@[simp] theorem queueClaim_ce_abort (g : TxTag) (c : Nat) (l : List OwnClaim) (s : State) :
    (queueClaim g c l s).ce.abort = s.ce.abort := by
  unfold queueClaim; split <;> simp

@[simp] theorem queueClaim_ce_abortCount (g : TxTag) (c : Nat) (l : List OwnClaim) (s : State) :
    (queueClaim g c l s).ce.abortCount = s.ce.abortCount := by
  unfold queueClaim; split <;> simp

@[simp] theorem queueClaim_ce_exempt (g : TxTag) (c : Nat) (l : List OwnClaim) (s : State) :
    (queueClaim g c l s).ce.exempt = s.ce.exempt := by
  unfold queueClaim; split <;> simp

@[simp] theorem queueClaim_ce_firmEnd (g : TxTag) (c : Nat) (l : List OwnClaim) (s : State) :
    (queueClaim g c l s).ce.firmEnd = s.ce.firmEnd := by
  unfold queueClaim; split <;> simp

@[simp] theorem queueClaim_ce_clashMem (g : TxTag) (c : Nat) (l : List OwnClaim) (s : State) :
    (queueClaim g c l s).ce.clashMem = s.ce.clashMem := by
  unfold queueClaim; split <;> simp

@[simp] theorem queueClaim_ce_lostMem (g : TxTag) (c : Nat) (l : List OwnClaim) (s : State) :
    (queueClaim g c l s).ce.lostMem = s.ce.lostMem := by
  unfold queueClaim; split <;> simp

@[simp] theorem queueClaim_ce_triggered (g : TxTag) (c : Nat) (l : List OwnClaim) (s : State) :
    (queueClaim g c l s).ce.triggered = s.ce.triggered := by
  unfold queueClaim; split <;> simp

@[simp] theorem queueClaim_tli_addr (g : TxTag) (c : Nat) (l : List OwnClaim) (s : State) :
    (queueClaim g c l s).tli.addr = s.tli.addr := by
  unfold queueClaim; split <;> simp

@[simp] theorem queueClaim_tli_kind (g : TxTag) (c : Nat) (l : List OwnClaim) (s : State) :
    (queueClaim g c l s).tli.kind = s.tli.kind := by
  unfold queueClaim; split <;> simp

@[simp] theorem queueClaim_tli_inbound (g : TxTag) (c : Nat) (l : List OwnClaim) (s : State) :
    (queueClaim g c l s).tli.inbound = s.tli.inbound := by
  unfold queueClaim; split <;> simp

@[simp] theorem queueClaim_tli_silence (g : TxTag) (c : Nat) (l : List OwnClaim) (s : State) :
    (queueClaim g c l s).tli.silence = s.tli.silence := by
  unfold queueClaim; split <;> simp

@[simp] theorem queueClaim_tli_silent (g : TxTag) (c : Nat) (l : List OwnClaim) (s : State) :
    (queueClaim g c l s).tli.silent = s.tli.silent := by
  unfold queueClaim; split <;> simp

@[simp] theorem queueClaim_tli_clash (g : TxTag) (c : Nat) (l : List OwnClaim) (s : State) :
    (queueClaim g c l s).tli.clash = s.tli.clash := by
  unfold queueClaim; split <;> simp

/-! ## Folds over frames -/

/-- A property that every offer keeps is kept by the RELEASEs of a release step. -/
theorem queueReleases_keeps (P : State → Prop) (hP : ∀ ids s, P s → P (offer .ce false .plain (.release ids) s))
    (segs : List Seg) (s : State) (h : P s) : P (queueReleases segs s) := by
  unfold queueReleases
  generalize chunk4 segs = l
  induction l generalizing s with
  | nil => exact h
  | cons a l ih => exact ih _ (hP a s h)

/-- A property that every offer keeps is kept by the POINTS-FREEs of a release step. -/
theorem queueFrees_keeps (P : State → Prop) (hP : ∀ n s, P s → P (offer .ce false .plain (.pointsFree n) s))
    (nodes : List Addr) (s : State) (h : P s) : P (queueFrees nodes s) := by
  unfold queueFrees
  generalize nub nodes = l
  induction l generalizing s with
  | nil => exact h
  | cons a l ih => exact ih _ (hP a s h)

@[simp] theorem queueReleases_pending (l : List Seg) (s : State) : (queueReleases l s).pending = s.pending :=
  queueReleases_keeps (fun t => t.pending = s.pending) (fun _ _ h => by simpa using h) l s rfl

@[simp] theorem queueReleases_os (l : List Seg) (s : State) : (queueReleases l s).os = s.os :=
  queueReleases_keeps (fun t => t.os = s.os) (fun _ _ h => by simpa using h) l s rfl

@[simp] theorem queueReleases_ov (l : List Seg) (s : State) : (queueReleases l s).ov = s.ov :=
  queueReleases_keeps (fun t => t.ov = s.ov) (fun _ _ h => by simpa using h) l s rfl

@[simp] theorem queueReleases_pu (l : List Seg) (s : State) : (queueReleases l s).pu = s.pu :=
  queueReleases_keeps (fun t => t.pu = s.pu) (fun _ _ h => by simpa using h) l s rfl

@[simp] theorem queueReleases_eu (l : List Seg) (s : State) : (queueReleases l s).eu = s.eu :=
  queueReleases_keeps (fun t => t.eu = s.eu) (fun _ _ h => by simpa using h) l s rfl

@[simp] theorem queueReleases_cr (l : List Seg) (s : State) : (queueReleases l s).cr = s.cr :=
  queueReleases_keeps (fun t => t.cr = s.cr) (fun _ _ h => by simpa using h) l s rfl

@[simp] theorem queueReleases_ds (l : List Seg) (s : State) : (queueReleases l s).ds = s.ds :=
  queueReleases_keeps (fun t => t.ds = s.ds) (fun _ _ h => by simpa using h) l s rfl

@[simp] theorem queueReleases_cs (l : List Seg) (s : State) : (queueReleases l s).cs = s.cs :=
  queueReleases_keeps (fun t => t.cs = s.cs) (fun _ _ h => by simpa using h) l s rfl

@[simp] theorem queueReleases_sv (l : List Seg) (s : State) : (queueReleases l s).sv = s.sv :=
  queueReleases_keeps (fun t => t.sv = s.sv) (fun _ _ h => by simpa using h) l s rfl

@[simp] theorem queueReleases_pa (l : List Seg) (s : State) : (queueReleases l s).pa = s.pa :=
  queueReleases_keeps (fun t => t.pa = s.pa) (fun _ _ h => by simpa using h) l s rfl

@[simp] theorem queueReleases_ts (l : List Seg) (s : State) : (queueReleases l s).ts = s.ts :=
  queueReleases_keeps (fun t => t.ts = s.ts) (fun _ _ h => by simpa using h) l s rfl

@[simp] theorem queueReleases_ce_own (l : List Seg) (s : State) : (queueReleases l s).ce.own = s.ce.own :=
  queueReleases_keeps (fun t => t.ce.own = s.ce.own) (fun _ _ h => by simpa using h) l s rfl

@[simp] theorem queueReleases_ce_span (l : List Seg) (s : State) : (queueReleases l s).ce.span = s.ce.span :=
  queueReleases_keeps (fun t => t.ce.span = s.ce.span) (fun _ _ h => by simpa using h) l s rfl

@[simp] theorem queueReleases_ce_backoff (l : List Seg) (s : State) : (queueReleases l s).ce.backoff = s.ce.backoff :=
  queueReleases_keeps (fun t => t.ce.backoff = s.ce.backoff) (fun _ _ h => by simpa using h) l s rfl

@[simp] theorem queueReleases_ce_attempts (l : List Seg) (s : State) : (queueReleases l s).ce.attempts = s.ce.attempts :=
  queueReleases_keeps (fun t => t.ce.attempts = s.ce.attempts) (fun _ _ h => by simpa using h) l s rfl

@[simp] theorem queueReleases_ce_attemptLeg (l : List Seg) (s : State) : (queueReleases l s).ce.attemptLeg = s.ce.attemptLeg :=
  queueReleases_keeps (fun t => t.ce.attemptLeg = s.ce.attemptLeg) (fun _ _ h => by simpa using h) l s rfl

@[simp] theorem queueReleases_ce_spanLimit (l : List Seg) (s : State) : (queueReleases l s).ce.spanLimit = s.ce.spanLimit :=
  queueReleases_keeps (fun t => t.ce.spanLimit = s.ce.spanLimit) (fun _ _ h => by simpa using h) l s rfl

@[simp] theorem queueReleases_ce_failedHold (l : List Seg) (s : State) : (queueReleases l s).ce.failedHold = s.ce.failedHold :=
  queueReleases_keeps (fun t => t.ce.failedHold = s.ce.failedHold) (fun _ _ h => by simpa using h) l s rfl

@[simp] theorem queueReleases_ce_abort (l : List Seg) (s : State) : (queueReleases l s).ce.abort = s.ce.abort :=
  queueReleases_keeps (fun t => t.ce.abort = s.ce.abort) (fun _ _ h => by simpa using h) l s rfl

@[simp] theorem queueReleases_ce_abortCount (l : List Seg) (s : State) : (queueReleases l s).ce.abortCount = s.ce.abortCount :=
  queueReleases_keeps (fun t => t.ce.abortCount = s.ce.abortCount) (fun _ _ h => by simpa using h) l s rfl

@[simp] theorem queueReleases_ce_exempt (l : List Seg) (s : State) : (queueReleases l s).ce.exempt = s.ce.exempt :=
  queueReleases_keeps (fun t => t.ce.exempt = s.ce.exempt) (fun _ _ h => by simpa using h) l s rfl

@[simp] theorem queueReleases_ce_firmEnd (l : List Seg) (s : State) : (queueReleases l s).ce.firmEnd = s.ce.firmEnd :=
  queueReleases_keeps (fun t => t.ce.firmEnd = s.ce.firmEnd) (fun _ _ h => by simpa using h) l s rfl

@[simp] theorem queueReleases_ce_clashMem (l : List Seg) (s : State) : (queueReleases l s).ce.clashMem = s.ce.clashMem :=
  queueReleases_keeps (fun t => t.ce.clashMem = s.ce.clashMem) (fun _ _ h => by simpa using h) l s rfl

@[simp] theorem queueReleases_ce_lostMem (l : List Seg) (s : State) : (queueReleases l s).ce.lostMem = s.ce.lostMem :=
  queueReleases_keeps (fun t => t.ce.lostMem = s.ce.lostMem) (fun _ _ h => by simpa using h) l s rfl

@[simp] theorem queueReleases_ce_triggered (l : List Seg) (s : State) : (queueReleases l s).ce.triggered = s.ce.triggered :=
  queueReleases_keeps (fun t => t.ce.triggered = s.ce.triggered) (fun _ _ h => by simpa using h) l s rfl

@[simp] theorem queueReleases_tli_addr (l : List Seg) (s : State) : (queueReleases l s).tli.addr = s.tli.addr :=
  queueReleases_keeps (fun t => t.tli.addr = s.tli.addr) (fun _ _ h => by simpa using h) l s rfl

@[simp] theorem queueReleases_tli_kind (l : List Seg) (s : State) : (queueReleases l s).tli.kind = s.tli.kind :=
  queueReleases_keeps (fun t => t.tli.kind = s.tli.kind) (fun _ _ h => by simpa using h) l s rfl

@[simp] theorem queueReleases_tli_inbound (l : List Seg) (s : State) : (queueReleases l s).tli.inbound = s.tli.inbound :=
  queueReleases_keeps (fun t => t.tli.inbound = s.tli.inbound) (fun _ _ h => by simpa using h) l s rfl

@[simp] theorem queueReleases_tli_silence (l : List Seg) (s : State) : (queueReleases l s).tli.silence = s.tli.silence :=
  queueReleases_keeps (fun t => t.tli.silence = s.tli.silence) (fun _ _ h => by simpa using h) l s rfl

@[simp] theorem queueReleases_tli_silent (l : List Seg) (s : State) : (queueReleases l s).tli.silent = s.tli.silent :=
  queueReleases_keeps (fun t => t.tli.silent = s.tli.silent) (fun _ _ h => by simpa using h) l s rfl

@[simp] theorem queueReleases_tli_clash (l : List Seg) (s : State) : (queueReleases l s).tli.clash = s.tli.clash :=
  queueReleases_keeps (fun t => t.tli.clash = s.tli.clash) (fun _ _ h => by simpa using h) l s rfl

@[simp] theorem queueFrees_pending (l : List Addr) (s : State) : (queueFrees l s).pending = s.pending :=
  queueFrees_keeps (fun t => t.pending = s.pending) (fun _ _ h => by simpa using h) l s rfl

@[simp] theorem queueFrees_os (l : List Addr) (s : State) : (queueFrees l s).os = s.os :=
  queueFrees_keeps (fun t => t.os = s.os) (fun _ _ h => by simpa using h) l s rfl

@[simp] theorem queueFrees_ov (l : List Addr) (s : State) : (queueFrees l s).ov = s.ov :=
  queueFrees_keeps (fun t => t.ov = s.ov) (fun _ _ h => by simpa using h) l s rfl

@[simp] theorem queueFrees_pu (l : List Addr) (s : State) : (queueFrees l s).pu = s.pu :=
  queueFrees_keeps (fun t => t.pu = s.pu) (fun _ _ h => by simpa using h) l s rfl

@[simp] theorem queueFrees_eu (l : List Addr) (s : State) : (queueFrees l s).eu = s.eu :=
  queueFrees_keeps (fun t => t.eu = s.eu) (fun _ _ h => by simpa using h) l s rfl

@[simp] theorem queueFrees_cr (l : List Addr) (s : State) : (queueFrees l s).cr = s.cr :=
  queueFrees_keeps (fun t => t.cr = s.cr) (fun _ _ h => by simpa using h) l s rfl

@[simp] theorem queueFrees_ds (l : List Addr) (s : State) : (queueFrees l s).ds = s.ds :=
  queueFrees_keeps (fun t => t.ds = s.ds) (fun _ _ h => by simpa using h) l s rfl

@[simp] theorem queueFrees_cs (l : List Addr) (s : State) : (queueFrees l s).cs = s.cs :=
  queueFrees_keeps (fun t => t.cs = s.cs) (fun _ _ h => by simpa using h) l s rfl

@[simp] theorem queueFrees_sv (l : List Addr) (s : State) : (queueFrees l s).sv = s.sv :=
  queueFrees_keeps (fun t => t.sv = s.sv) (fun _ _ h => by simpa using h) l s rfl

@[simp] theorem queueFrees_pa (l : List Addr) (s : State) : (queueFrees l s).pa = s.pa :=
  queueFrees_keeps (fun t => t.pa = s.pa) (fun _ _ h => by simpa using h) l s rfl

@[simp] theorem queueFrees_ts (l : List Addr) (s : State) : (queueFrees l s).ts = s.ts :=
  queueFrees_keeps (fun t => t.ts = s.ts) (fun _ _ h => by simpa using h) l s rfl

@[simp] theorem queueFrees_ce_own (l : List Addr) (s : State) : (queueFrees l s).ce.own = s.ce.own :=
  queueFrees_keeps (fun t => t.ce.own = s.ce.own) (fun _ _ h => by simpa using h) l s rfl

@[simp] theorem queueFrees_ce_span (l : List Addr) (s : State) : (queueFrees l s).ce.span = s.ce.span :=
  queueFrees_keeps (fun t => t.ce.span = s.ce.span) (fun _ _ h => by simpa using h) l s rfl

@[simp] theorem queueFrees_ce_backoff (l : List Addr) (s : State) : (queueFrees l s).ce.backoff = s.ce.backoff :=
  queueFrees_keeps (fun t => t.ce.backoff = s.ce.backoff) (fun _ _ h => by simpa using h) l s rfl

@[simp] theorem queueFrees_ce_attempts (l : List Addr) (s : State) : (queueFrees l s).ce.attempts = s.ce.attempts :=
  queueFrees_keeps (fun t => t.ce.attempts = s.ce.attempts) (fun _ _ h => by simpa using h) l s rfl

@[simp] theorem queueFrees_ce_attemptLeg (l : List Addr) (s : State) : (queueFrees l s).ce.attemptLeg = s.ce.attemptLeg :=
  queueFrees_keeps (fun t => t.ce.attemptLeg = s.ce.attemptLeg) (fun _ _ h => by simpa using h) l s rfl

@[simp] theorem queueFrees_ce_spanLimit (l : List Addr) (s : State) : (queueFrees l s).ce.spanLimit = s.ce.spanLimit :=
  queueFrees_keeps (fun t => t.ce.spanLimit = s.ce.spanLimit) (fun _ _ h => by simpa using h) l s rfl

@[simp] theorem queueFrees_ce_failedHold (l : List Addr) (s : State) : (queueFrees l s).ce.failedHold = s.ce.failedHold :=
  queueFrees_keeps (fun t => t.ce.failedHold = s.ce.failedHold) (fun _ _ h => by simpa using h) l s rfl

@[simp] theorem queueFrees_ce_abort (l : List Addr) (s : State) : (queueFrees l s).ce.abort = s.ce.abort :=
  queueFrees_keeps (fun t => t.ce.abort = s.ce.abort) (fun _ _ h => by simpa using h) l s rfl

@[simp] theorem queueFrees_ce_abortCount (l : List Addr) (s : State) : (queueFrees l s).ce.abortCount = s.ce.abortCount :=
  queueFrees_keeps (fun t => t.ce.abortCount = s.ce.abortCount) (fun _ _ h => by simpa using h) l s rfl

@[simp] theorem queueFrees_ce_exempt (l : List Addr) (s : State) : (queueFrees l s).ce.exempt = s.ce.exempt :=
  queueFrees_keeps (fun t => t.ce.exempt = s.ce.exempt) (fun _ _ h => by simpa using h) l s rfl

@[simp] theorem queueFrees_ce_firmEnd (l : List Addr) (s : State) : (queueFrees l s).ce.firmEnd = s.ce.firmEnd :=
  queueFrees_keeps (fun t => t.ce.firmEnd = s.ce.firmEnd) (fun _ _ h => by simpa using h) l s rfl

@[simp] theorem queueFrees_ce_clashMem (l : List Addr) (s : State) : (queueFrees l s).ce.clashMem = s.ce.clashMem :=
  queueFrees_keeps (fun t => t.ce.clashMem = s.ce.clashMem) (fun _ _ h => by simpa using h) l s rfl

@[simp] theorem queueFrees_ce_lostMem (l : List Addr) (s : State) : (queueFrees l s).ce.lostMem = s.ce.lostMem :=
  queueFrees_keeps (fun t => t.ce.lostMem = s.ce.lostMem) (fun _ _ h => by simpa using h) l s rfl

@[simp] theorem queueFrees_ce_triggered (l : List Addr) (s : State) : (queueFrees l s).ce.triggered = s.ce.triggered :=
  queueFrees_keeps (fun t => t.ce.triggered = s.ce.triggered) (fun _ _ h => by simpa using h) l s rfl

@[simp] theorem queueFrees_tli_addr (l : List Addr) (s : State) : (queueFrees l s).tli.addr = s.tli.addr :=
  queueFrees_keeps (fun t => t.tli.addr = s.tli.addr) (fun _ _ h => by simpa using h) l s rfl

@[simp] theorem queueFrees_tli_kind (l : List Addr) (s : State) : (queueFrees l s).tli.kind = s.tli.kind :=
  queueFrees_keeps (fun t => t.tli.kind = s.tli.kind) (fun _ _ h => by simpa using h) l s rfl

@[simp] theorem queueFrees_tli_inbound (l : List Addr) (s : State) : (queueFrees l s).tli.inbound = s.tli.inbound :=
  queueFrees_keeps (fun t => t.tli.inbound = s.tli.inbound) (fun _ _ h => by simpa using h) l s rfl

@[simp] theorem queueFrees_tli_silence (l : List Addr) (s : State) : (queueFrees l s).tli.silence = s.tli.silence :=
  queueFrees_keeps (fun t => t.tli.silence = s.tli.silence) (fun _ _ h => by simpa using h) l s rfl

@[simp] theorem queueFrees_tli_silent (l : List Addr) (s : State) : (queueFrees l s).tli.silent = s.tli.silent :=
  queueFrees_keeps (fun t => t.tli.silent = s.tli.silent) (fun _ _ h => by simpa using h) l s rfl

@[simp] theorem queueFrees_tli_clash (l : List Addr) (s : State) : (queueFrees l s).tli.clash = s.tli.clash :=
  queueFrees_keeps (fun t => t.tli.clash = s.tli.clash) (fun _ _ h => by simpa using h) l s rfl

/-! ## Addresses in ascending order, and the overrun test -/

theorem mem_insertAddr (a x : Addr) (l : List Addr) : x ∈ insertAddr a l ↔ x = a ∨ x ∈ l := by
  induction l with
  | nil => simp [insertAddr]
  | cons b t ih =>
    unfold insertAddr
    split
    · simp
    · split
      · simp_all
      · simp [ih, or_left_comm]

theorem mem_ascending (x : Addr) (l : List Addr) : x ∈ ascending l ↔ x ∈ l := by
  induction l with
  | nil => simp [ascending]
  | cons b t ih => simpa [ascending, mem_insertAddr] using or_congr_right ih

theorem insertAddr_pairwise (a : Addr) (l : List Addr) (h : l.Pairwise (· < ·)) : (insertAddr a l).Pairwise (· < ·) := by
  induction l with
  | nil => simp [insertAddr]
  | cons b t ih =>
    obtain ⟨hb, ht⟩ := List.pairwise_cons.mp h
    unfold insertAddr
    split
    · refine List.pairwise_cons.mpr ⟨fun x hx => ?_, h⟩
      rcases List.mem_cons.mp hx with rfl | hx
      · assumption
      · exact Nat.lt_trans ‹_› (hb x hx)
    · next hlt =>
      split
      · exact h
      · next hne =>
        refine List.pairwise_cons.mpr ⟨fun x hx => ?_, ih ht⟩
        rcases (mem_insertAddr a x t).mp hx with rfl | hx
        · exact Nat.lt_of_le_of_ne (Nat.le_of_not_lt hlt) (Ne.symm hne)
        · exact hb x hx

theorem ascending_pairwise (l : List Addr) : (ascending l).Pairwise (· < ·) := by
  induction l with
  | nil => simp [ascending]
  | cons b t ih => exact insertAddr_pairwise b _ ih

/-- The overrun test changes nothing where the head has not passed the firm end handed. -/
theorem overrunTest_of_within (s : State) (h : ∀ r f, s.pu.route = some r → s.ce.firmEnd = some f → r.x ≤ (f : Int)) :
    overrunTest s = s := by
  unfold overrunTest
  split
  · next r f hr hf => simp [Int.not_lt.mpr (h r f hr hf)]
  · rfl

end Sys2Proof.Machine
end

