-- ==== Sys2Proof/Laws/Moves.lean ====
section
/-! SUPPORT. What the larger shared operations leave alone: the queue of commands, the Occupancy View, the points node's
blocks and the station's address and kind; the state an entry enters and what it sets. -/

namespace Sys2Proof.Machine

open Sys2Proof

/-! ## The line interface's edits -/

@[simp] theorem placeKept_addr (b : Block) (i : Nat) (t : Tli) : (placeKept b i t).addr = t.addr := rfl
@[simp] theorem placeKept_kind (b : Block) (i : Nat) (t : Tli) : (placeKept b i t).kind = t.kind := rfl
@[simp] theorem placeKept_inbound (b : Block) (i : Nat) (t : Tli) : (placeKept b i t).inbound = t.inbound := rfl
@[simp] theorem placeKept_silence (b : Block) (i : Nat) (t : Tli) : (placeKept b i t).silence = t.silence := rfl
@[simp] theorem placeKept_silent (b : Block) (i : Nat) (t : Tli) : (placeKept b i t).silent = t.silent := rfl
@[simp] theorem placeKept_clash (b : Block) (i : Nat) (t : Tli) : (placeKept b i t).clash = t.clash := rfl
@[simp] theorem placeKept_counters (b : Block) (i : Nat) (t : Tli) : (placeKept b i t).counters = t.counters := rfl
@[simp] theorem placeKept_idle (b : Block) (i : Nat) (t : Tli) : (placeKept b i t).idle = t.idle := rfl
@[simp] theorem placeKept_keptPosition (b : Block) (i : Nat) (t : Tli) : (placeKept b i t).keptPosition = t.keptPosition := rfl
@[simp] theorem placeKept_keptPoints (b : Block) (i : Nat) (t : Tli) : (placeKept b i t).keptPoints = t.keptPoints := rfl

@[simp] theorem fillLoop_addr (n : Nat) (t : Tli) : (fillLoop n t).addr = t.addr := by
  induction n generalizing t with
  | zero => rfl
  | succ n ih => unfold fillLoop; repeat' split
                 all_goals simp [ih]

@[simp] theorem fill_addr (t : Tli) : (fill t).addr = t.addr := by simp [fill]

@[simp] theorem editClaims_addr (l : List Seg) (t : Tli) : (editClaims l t).addr = t.addr := by
  simp [editClaims, pruneLine]

@[simp] theorem withdrawSpanFrames_addr (l : List Seg) (t : Tli) : (withdrawSpanFrames l t).addr = t.addr := by
  simp [withdrawSpanFrames, pruneLine]

@[simp] theorem fillLoop_kind (n : Nat) (t : Tli) : (fillLoop n t).kind = t.kind := by
  induction n generalizing t with
  | zero => rfl
  | succ n ih => unfold fillLoop; repeat' split
                 all_goals simp [ih]

@[simp] theorem fill_kind (t : Tli) : (fill t).kind = t.kind := by simp [fill]

@[simp] theorem editClaims_kind (l : List Seg) (t : Tli) : (editClaims l t).kind = t.kind := by
  simp [editClaims, pruneLine]

@[simp] theorem withdrawSpanFrames_kind (l : List Seg) (t : Tli) : (withdrawSpanFrames l t).kind = t.kind := by
  simp [withdrawSpanFrames, pruneLine]

@[simp] theorem fillLoop_inbound (n : Nat) (t : Tli) : (fillLoop n t).inbound = t.inbound := by
  induction n generalizing t with
  | zero => rfl
  | succ n ih => unfold fillLoop; repeat' split
                 all_goals simp [ih]

@[simp] theorem fill_inbound (t : Tli) : (fill t).inbound = t.inbound := by simp [fill]

@[simp] theorem editClaims_inbound (l : List Seg) (t : Tli) : (editClaims l t).inbound = t.inbound := by
  simp [editClaims, pruneLine]

@[simp] theorem withdrawSpanFrames_inbound (l : List Seg) (t : Tli) : (withdrawSpanFrames l t).inbound = t.inbound := by
  simp [withdrawSpanFrames, pruneLine]

@[simp] theorem fillLoop_silence (n : Nat) (t : Tli) : (fillLoop n t).silence = t.silence := by
  induction n generalizing t with
  | zero => rfl
  | succ n ih => unfold fillLoop; repeat' split
                 all_goals simp [ih]

@[simp] theorem fill_silence (t : Tli) : (fill t).silence = t.silence := by simp [fill]

@[simp] theorem editClaims_silence (l : List Seg) (t : Tli) : (editClaims l t).silence = t.silence := by
  simp [editClaims, pruneLine]

@[simp] theorem withdrawSpanFrames_silence (l : List Seg) (t : Tli) : (withdrawSpanFrames l t).silence = t.silence := by
  simp [withdrawSpanFrames, pruneLine]

@[simp] theorem fillLoop_silent (n : Nat) (t : Tli) : (fillLoop n t).silent = t.silent := by
  induction n generalizing t with
  | zero => rfl
  | succ n ih => unfold fillLoop; repeat' split
                 all_goals simp [ih]

@[simp] theorem fill_silent (t : Tli) : (fill t).silent = t.silent := by simp [fill]

@[simp] theorem editClaims_silent (l : List Seg) (t : Tli) : (editClaims l t).silent = t.silent := by
  simp [editClaims, pruneLine]

@[simp] theorem withdrawSpanFrames_silent (l : List Seg) (t : Tli) : (withdrawSpanFrames l t).silent = t.silent := by
  simp [withdrawSpanFrames, pruneLine]

@[simp] theorem fillLoop_clash (n : Nat) (t : Tli) : (fillLoop n t).clash = t.clash := by
  induction n generalizing t with
  | zero => rfl
  | succ n ih => unfold fillLoop; repeat' split
                 all_goals simp [ih]

@[simp] theorem fill_clash (t : Tli) : (fill t).clash = t.clash := by simp [fill]

@[simp] theorem editClaims_clash (l : List Seg) (t : Tli) : (editClaims l t).clash = t.clash := by
  simp [editClaims, pruneLine]

@[simp] theorem withdrawSpanFrames_clash (l : List Seg) (t : Tli) : (withdrawSpanFrames l t).clash = t.clash := by
  simp [withdrawSpanFrames, pruneLine]

@[simp] theorem fillLoop_counters (n : Nat) (t : Tli) : (fillLoop n t).counters = t.counters := by
  induction n generalizing t with
  | zero => rfl
  | succ n ih => unfold fillLoop; repeat' split
                 all_goals simp [ih]

@[simp] theorem fill_counters (t : Tli) : (fill t).counters = t.counters := by simp [fill]

@[simp] theorem editClaims_counters (l : List Seg) (t : Tli) : (editClaims l t).counters = t.counters := by
  simp [editClaims, pruneLine]

@[simp] theorem withdrawSpanFrames_counters (l : List Seg) (t : Tli) : (withdrawSpanFrames l t).counters = t.counters := by
  simp [withdrawSpanFrames, pruneLine]

/-! ## POSITION, the own list and its releases -/

@[simp] theorem queuePosition_pending  (s : State) : (queuePosition s).pending = s.pending := by
  unfold queuePosition; split <;> simp

@[simp] theorem queuePosition_ov  (s : State) : (queuePosition s).ov = s.ov := by
  unfold queuePosition; split <;> simp

@[simp] theorem queuePosition_sv  (s : State) : (queuePosition s).sv = s.sv := by
  unfold queuePosition; split <;> simp

@[simp] theorem queuePosition_pa  (s : State) : (queuePosition s).pa = s.pa := by
  unfold queuePosition; split <;> simp

@[simp] theorem queuePosition_ts  (s : State) : (queuePosition s).ts = s.ts := by
  unfold queuePosition; split <;> simp

@[simp] theorem queuePosition_eu  (s : State) : (queuePosition s).eu = s.eu := by
  unfold queuePosition; split <;> simp

@[simp] theorem queuePosition_cr  (s : State) : (queuePosition s).cr = s.cr := by
  unfold queuePosition; split <;> simp

@[simp] theorem queuePosition_ds  (s : State) : (queuePosition s).ds = s.ds := by
  unfold queuePosition; split <;> simp

@[simp] theorem queuePosition_cs  (s : State) : (queuePosition s).cs = s.cs := by
  unfold queuePosition; split <;> simp

@[simp] theorem queuePosition_os  (s : State) : (queuePosition s).os = s.os := by
  unfold queuePosition; split <;> simp

@[simp] theorem queuePosition_ce_own  (s : State) : (queuePosition s).ce.own = s.ce.own := by
  unfold queuePosition; split <;> simp

@[simp] theorem queuePosition_ce_span  (s : State) : (queuePosition s).ce.span = s.ce.span := by
  unfold queuePosition; split <;> simp

@[simp] theorem queuePosition_ce_triggered  (s : State) : (queuePosition s).ce.triggered = s.ce.triggered := by
  unfold queuePosition; split <;> simp

@[simp] theorem queuePosition_tli_addr  (s : State) : (queuePosition s).tli.addr = s.tli.addr := by
  unfold queuePosition; split <;> simp

@[simp] theorem queuePosition_tli_kind  (s : State) : (queuePosition s).tli.kind = s.tli.kind := by
  unfold queuePosition; split <;> simp

@[simp] theorem queuePosition_tli_clash  (s : State) : (queuePosition s).tli.clash = s.tli.clash := by
  unfold queuePosition; split <;> simp

@[simp] theorem refirm_pending  (s : State) : (refirm s).pending = s.pending := by
  simp [refirm]

@[simp] theorem refirm_ov  (s : State) : (refirm s).ov = s.ov := by
  simp [refirm]

@[simp] theorem refirm_sv  (s : State) : (refirm s).sv = s.sv := by
  simp [refirm]

@[simp] theorem refirm_pa  (s : State) : (refirm s).pa = s.pa := by
  simp [refirm]

@[simp] theorem refirm_ts  (s : State) : (refirm s).ts = s.ts := by
  simp [refirm]

@[simp] theorem refirm_eu  (s : State) : (refirm s).eu = s.eu := by
  simp [refirm]

@[simp] theorem refirm_cr  (s : State) : (refirm s).cr = s.cr := by
  simp [refirm]

@[simp] theorem refirm_ds  (s : State) : (refirm s).ds = s.ds := by
  simp [refirm]

@[simp] theorem refirm_cs  (s : State) : (refirm s).cs = s.cs := by
  simp [refirm]

@[simp] theorem refirm_os  (s : State) : (refirm s).os = s.os := by
  simp [refirm]

@[simp] theorem refirm_ce_own  (s : State) : (refirm s).ce.own = s.ce.own := by
  simp [refirm]

@[simp] theorem refirm_ce_span  (s : State) : (refirm s).ce.span = s.ce.span := by
  simp [refirm]

@[simp] theorem refirm_tli_addr  (s : State) : (refirm s).tli.addr = s.tli.addr := by
  simp [refirm]

@[simp] theorem refirm_tli_kind  (s : State) : (refirm s).tli.kind = s.tli.kind := by
  simp [refirm]

@[simp] theorem refirm_tli_clash  (s : State) : (refirm s).tli.clash = s.tli.clash := by
  simp [refirm]

@[simp] theorem setOwn_pending (l : List OwnClaim) (s : State) : (setOwn l s).pending = s.pending := by
  unfold setOwn; simp only; split <;> simp [refirm]

@[simp] theorem setOwn_ov (l : List OwnClaim) (s : State) : (setOwn l s).ov = s.ov := by
  unfold setOwn; simp only; split <;> simp [refirm]

@[simp] theorem setOwn_sv (l : List OwnClaim) (s : State) : (setOwn l s).sv = s.sv := by
  unfold setOwn; simp only; split <;> simp [refirm]

@[simp] theorem setOwn_pa (l : List OwnClaim) (s : State) : (setOwn l s).pa = s.pa := by
  unfold setOwn; simp only; split <;> simp [refirm]

@[simp] theorem setOwn_ts (l : List OwnClaim) (s : State) : (setOwn l s).ts = s.ts := by
  unfold setOwn; simp only; split <;> simp [refirm]

@[simp] theorem setOwn_eu (l : List OwnClaim) (s : State) : (setOwn l s).eu = s.eu := by
  unfold setOwn; simp only; split <;> simp [refirm]

@[simp] theorem setOwn_cr (l : List OwnClaim) (s : State) : (setOwn l s).cr = s.cr := by
  unfold setOwn; simp only; split <;> simp [refirm]

@[simp] theorem setOwn_ds (l : List OwnClaim) (s : State) : (setOwn l s).ds = s.ds := by
  unfold setOwn; simp only; split <;> simp [refirm]

@[simp] theorem setOwn_cs (l : List OwnClaim) (s : State) : (setOwn l s).cs = s.cs := by
  unfold setOwn; simp only; split <;> simp [refirm]

@[simp] theorem setOwn_os (l : List OwnClaim) (s : State) : (setOwn l s).os = s.os := by
  unfold setOwn; simp only; split <;> simp [refirm]

@[simp] theorem setOwn_ce_span (l : List OwnClaim) (s : State) : (setOwn l s).ce.span = s.ce.span := by
  unfold setOwn; simp only; split <;> simp [refirm]

@[simp] theorem setOwn_ce_triggered (l : List OwnClaim) (s : State) : (setOwn l s).ce.triggered = s.ce.triggered := by
  unfold setOwn; simp only; split <;> simp [refirm]

@[simp] theorem setOwn_tli_addr (l : List OwnClaim) (s : State) : (setOwn l s).tli.addr = s.tli.addr := by
  unfold setOwn; simp only; split <;> simp [refirm]

@[simp] theorem setOwn_tli_kind (l : List OwnClaim) (s : State) : (setOwn l s).tli.kind = s.tli.kind := by
  unfold setOwn; simp only; split <;> simp [refirm]

@[simp] theorem setOwn_tli_clash (l : List OwnClaim) (s : State) : (setOwn l s).tli.clash = s.tli.clash := by
  unfold setOwn; simp only; split <;> simp [refirm]

@[simp] theorem setOwn_ce_own (l : List OwnClaim) (s : State) : (setOwn l s).ce.own = l := by
  unfold setOwn; simp only; split <;> simp [refirm]

@[simp] theorem releaseStep_pending (g n : List Seg) (f : List Addr) (s : State) : (releaseStep g n f s).pending = s.pending := by
  simp [releaseStep]

@[simp] theorem releaseStep_ov (g n : List Seg) (f : List Addr) (s : State) : (releaseStep g n f s).ov = s.ov := by
  simp [releaseStep]

@[simp] theorem releaseStep_sv (g n : List Seg) (f : List Addr) (s : State) : (releaseStep g n f s).sv = s.sv := by
  simp [releaseStep]

@[simp] theorem releaseStep_pa (g n : List Seg) (f : List Addr) (s : State) : (releaseStep g n f s).pa = s.pa := by
  simp [releaseStep]

@[simp] theorem releaseStep_ts (g n : List Seg) (f : List Addr) (s : State) : (releaseStep g n f s).ts = s.ts := by
  simp [releaseStep]

@[simp] theorem releaseStep_eu (g n : List Seg) (f : List Addr) (s : State) : (releaseStep g n f s).eu = s.eu := by
  simp [releaseStep]

@[simp] theorem releaseStep_cr (g n : List Seg) (f : List Addr) (s : State) : (releaseStep g n f s).cr = s.cr := by
  simp [releaseStep]

@[simp] theorem releaseStep_ds (g n : List Seg) (f : List Addr) (s : State) : (releaseStep g n f s).ds = s.ds := by
  simp [releaseStep]

@[simp] theorem releaseStep_cs (g n : List Seg) (f : List Addr) (s : State) : (releaseStep g n f s).cs = s.cs := by
  simp [releaseStep]

@[simp] theorem releaseStep_os (g n : List Seg) (f : List Addr) (s : State) : (releaseStep g n f s).os = s.os := by
  simp [releaseStep]

@[simp] theorem releaseStep_ce_span (g n : List Seg) (f : List Addr) (s : State) : (releaseStep g n f s).ce.span = s.ce.span := by
  simp [releaseStep]

@[simp] theorem releaseStep_tli_addr (g n : List Seg) (f : List Addr) (s : State) : (releaseStep g n f s).tli.addr = s.tli.addr := by
  simp [releaseStep]

@[simp] theorem releaseStep_tli_kind (g n : List Seg) (f : List Addr) (s : State) : (releaseStep g n f s).tli.kind = s.tli.kind := by
  simp [releaseStep]

@[simp] theorem releaseStep_tli_clash (g n : List Seg) (f : List Addr) (s : State) : (releaseStep g n f s).tli.clash = s.tli.clash := by
  simp [releaseStep]

/-- A release step keeps exactly the entries that do not lie on the segments released (R67). -/
@[simp] theorem releaseStep_ce_own (g n : List Seg) (f : List Addr) (s : State) :
    (releaseStep g n f s).ce.own = s.ce.own.filter (fun e => decide (e.seg ∉ g)) := by
  simp [releaseStep]

@[simp] theorem releaseOwn_pending (g : List Seg) (s : State) : (releaseOwn g s).pending = s.pending := by
  unfold releaseOwn; simp only; split <;> simp

@[simp] theorem releaseOwn_ov (g : List Seg) (s : State) : (releaseOwn g s).ov = s.ov := by
  unfold releaseOwn; simp only; split <;> simp

@[simp] theorem releaseOwn_sv (g : List Seg) (s : State) : (releaseOwn g s).sv = s.sv := by
  unfold releaseOwn; simp only; split <;> simp

@[simp] theorem releaseOwn_pa (g : List Seg) (s : State) : (releaseOwn g s).pa = s.pa := by
  unfold releaseOwn; simp only; split <;> simp

@[simp] theorem releaseOwn_ts (g : List Seg) (s : State) : (releaseOwn g s).ts = s.ts := by
  unfold releaseOwn; simp only; split <;> simp

@[simp] theorem releaseOwn_eu (g : List Seg) (s : State) : (releaseOwn g s).eu = s.eu := by
  unfold releaseOwn; simp only; split <;> simp

@[simp] theorem releaseOwn_cr (g : List Seg) (s : State) : (releaseOwn g s).cr = s.cr := by
  unfold releaseOwn; simp only; split <;> simp

@[simp] theorem releaseOwn_ds (g : List Seg) (s : State) : (releaseOwn g s).ds = s.ds := by
  unfold releaseOwn; simp only; split <;> simp

@[simp] theorem releaseOwn_cs (g : List Seg) (s : State) : (releaseOwn g s).cs = s.cs := by
  unfold releaseOwn; simp only; split <;> simp

@[simp] theorem releaseOwn_os (g : List Seg) (s : State) : (releaseOwn g s).os = s.os := by
  unfold releaseOwn; simp only; split <;> simp

@[simp] theorem releaseOwn_ce_span (g : List Seg) (s : State) : (releaseOwn g s).ce.span = s.ce.span := by
  unfold releaseOwn; simp only; split <;> simp

@[simp] theorem releaseOwn_tli_addr (g : List Seg) (s : State) : (releaseOwn g s).tli.addr = s.tli.addr := by
  unfold releaseOwn; simp only; split <;> simp

@[simp] theorem releaseOwn_tli_kind (g : List Seg) (s : State) : (releaseOwn g s).tli.kind = s.tli.kind := by
  unfold releaseOwn; simp only; split <;> simp

@[simp] theorem releaseOwn_tli_clash (g : List Seg) (s : State) : (releaseOwn g s).tli.clash = s.tli.clash := by
  unfold releaseOwn; simp only; split <;> simp

/-! ## The span -/

@[simp] theorem recordAbort_pending (r : AbortReason) (g : Seg) (v : Addr) (n : Nat) (s : State) : (recordAbort r g v n s).pending = s.pending := by
  simp [recordAbort]

@[simp] theorem recordAbort_ov (r : AbortReason) (g : Seg) (v : Addr) (n : Nat) (s : State) : (recordAbort r g v n s).ov = s.ov := by
  simp [recordAbort]

@[simp] theorem recordAbort_sv (r : AbortReason) (g : Seg) (v : Addr) (n : Nat) (s : State) : (recordAbort r g v n s).sv = s.sv := by
  simp [recordAbort]

@[simp] theorem recordAbort_pa (r : AbortReason) (g : Seg) (v : Addr) (n : Nat) (s : State) : (recordAbort r g v n s).pa = s.pa := by
  simp [recordAbort]

@[simp] theorem recordAbort_ts (r : AbortReason) (g : Seg) (v : Addr) (n : Nat) (s : State) : (recordAbort r g v n s).ts = s.ts := by
  simp [recordAbort]

@[simp] theorem recordAbort_eu (r : AbortReason) (g : Seg) (v : Addr) (n : Nat) (s : State) : (recordAbort r g v n s).eu = s.eu := by
  simp [recordAbort]

@[simp] theorem recordAbort_cr (r : AbortReason) (g : Seg) (v : Addr) (n : Nat) (s : State) : (recordAbort r g v n s).cr = s.cr := by
  simp [recordAbort]

@[simp] theorem recordAbort_ds (r : AbortReason) (g : Seg) (v : Addr) (n : Nat) (s : State) : (recordAbort r g v n s).ds = s.ds := by
  simp [recordAbort]

@[simp] theorem recordAbort_cs (r : AbortReason) (g : Seg) (v : Addr) (n : Nat) (s : State) : (recordAbort r g v n s).cs = s.cs := by
  simp [recordAbort]

@[simp] theorem recordAbort_os (r : AbortReason) (g : Seg) (v : Addr) (n : Nat) (s : State) : (recordAbort r g v n s).os = s.os := by
  simp [recordAbort]

@[simp] theorem recordAbort_pu (r : AbortReason) (g : Seg) (v : Addr) (n : Nat) (s : State) : (recordAbort r g v n s).pu = s.pu := by
  simp [recordAbort]

@[simp] theorem recordAbort_ce_own (r : AbortReason) (g : Seg) (v : Addr) (n : Nat) (s : State) : (recordAbort r g v n s).ce.own = s.ce.own := by
  simp [recordAbort]

@[simp] theorem recordAbort_ce_span (r : AbortReason) (g : Seg) (v : Addr) (n : Nat) (s : State) : (recordAbort r g v n s).ce.span = s.ce.span := by
  simp [recordAbort]

@[simp] theorem recordAbort_tli_addr (r : AbortReason) (g : Seg) (v : Addr) (n : Nat) (s : State) : (recordAbort r g v n s).tli.addr = s.tli.addr := by
  simp [recordAbort]

@[simp] theorem recordAbort_tli_kind (r : AbortReason) (g : Seg) (v : Addr) (n : Nat) (s : State) : (recordAbort r g v n s).tli.kind = s.tli.kind := by
  simp [recordAbort]

@[simp] theorem recordAbort_tli_clash (r : AbortReason) (g : Seg) (v : Addr) (n : Nat) (s : State) : (recordAbort r g v n s).tli.clash = s.tli.clash := by
  simp [recordAbort]

@[simp] theorem setNextClaim_pending (k : Nat) (s : State) : (setNextClaim k s).pending = s.pending := by
  unfold setNextClaim; split <;> simp

@[simp] theorem setNextClaim_ov (k : Nat) (s : State) : (setNextClaim k s).ov = s.ov := by
  unfold setNextClaim; split <;> simp

@[simp] theorem setNextClaim_sv (k : Nat) (s : State) : (setNextClaim k s).sv = s.sv := by
  unfold setNextClaim; split <;> simp

@[simp] theorem setNextClaim_pa (k : Nat) (s : State) : (setNextClaim k s).pa = s.pa := by
  unfold setNextClaim; split <;> simp

@[simp] theorem setNextClaim_ts (k : Nat) (s : State) : (setNextClaim k s).ts = s.ts := by
  unfold setNextClaim; split <;> simp

@[simp] theorem setNextClaim_eu (k : Nat) (s : State) : (setNextClaim k s).eu = s.eu := by
  unfold setNextClaim; split <;> simp

@[simp] theorem setNextClaim_cr (k : Nat) (s : State) : (setNextClaim k s).cr = s.cr := by
  unfold setNextClaim; split <;> simp

@[simp] theorem setNextClaim_ds (k : Nat) (s : State) : (setNextClaim k s).ds = s.ds := by
  unfold setNextClaim; split <;> simp

@[simp] theorem setNextClaim_cs (k : Nat) (s : State) : (setNextClaim k s).cs = s.cs := by
  unfold setNextClaim; split <;> simp

@[simp] theorem setNextClaim_pu (k : Nat) (s : State) : (setNextClaim k s).pu = s.pu := by
  unfold setNextClaim; split <;> simp

@[simp] theorem setNextClaim_ce (k : Nat) (s : State) : (setNextClaim k s).ce = s.ce := by
  unfold setNextClaim; split <;> simp

@[simp] theorem setNextClaim_tli_addr (k : Nat) (s : State) : (setNextClaim k s).tli.addr = s.tli.addr := by
  unfold setNextClaim; split <;> simp

@[simp] theorem setNextClaim_tli_kind (k : Nat) (s : State) : (setNextClaim k s).tli.kind = s.tli.kind := by
  unfold setNextClaim; split <;> simp

@[simp] theorem setNextClaim_tli_clash (k : Nat) (s : State) : (setNextClaim k s).tli.clash = s.tli.clash := by
  unfold setNextClaim; split <;> simp

@[simp] theorem endSpan_pending (m : List Seg) (s : State) : (endSpan m s).pending = s.pending := by
  unfold endSpan; split <;> simp

@[simp] theorem endSpan_ov (m : List Seg) (s : State) : (endSpan m s).ov = s.ov := by
  unfold endSpan; split <;> simp

@[simp] theorem endSpan_sv (m : List Seg) (s : State) : (endSpan m s).sv = s.sv := by
  unfold endSpan; split <;> simp

@[simp] theorem endSpan_pa (m : List Seg) (s : State) : (endSpan m s).pa = s.pa := by
  unfold endSpan; split <;> simp

@[simp] theorem endSpan_ts (m : List Seg) (s : State) : (endSpan m s).ts = s.ts := by
  unfold endSpan; split <;> simp

@[simp] theorem endSpan_eu (m : List Seg) (s : State) : (endSpan m s).eu = s.eu := by
  unfold endSpan; split <;> simp

@[simp] theorem endSpan_cr (m : List Seg) (s : State) : (endSpan m s).cr = s.cr := by
  unfold endSpan; split <;> simp

@[simp] theorem endSpan_ds (m : List Seg) (s : State) : (endSpan m s).ds = s.ds := by
  unfold endSpan; split <;> simp

@[simp] theorem endSpan_cs (m : List Seg) (s : State) : (endSpan m s).cs = s.cs := by
  unfold endSpan; split <;> simp

@[simp] theorem endSpan_tli_addr (m : List Seg) (s : State) : (endSpan m s).tli.addr = s.tli.addr := by
  unfold endSpan; split <;> simp

@[simp] theorem endSpan_tli_kind (m : List Seg) (s : State) : (endSpan m s).tli.kind = s.tli.kind := by
  unfold endSpan; split <;> simp

@[simp] theorem endSpan_tli_clash (m : List Seg) (s : State) : (endSpan m s).tli.clash = s.tli.clash := by
  unfold endSpan; split <;> simp

@[simp] theorem abortSpan_pending (r : AbortReason) (g : Seg) (v : Addr) (s : State) : (abortSpan r g v s).pending = s.pending := by
  unfold abortSpan; split <;> simp

@[simp] theorem abortSpan_ov (r : AbortReason) (g : Seg) (v : Addr) (s : State) : (abortSpan r g v s).ov = s.ov := by
  unfold abortSpan; split <;> simp

@[simp] theorem abortSpan_sv (r : AbortReason) (g : Seg) (v : Addr) (s : State) : (abortSpan r g v s).sv = s.sv := by
  unfold abortSpan; split <;> simp

@[simp] theorem abortSpan_pa (r : AbortReason) (g : Seg) (v : Addr) (s : State) : (abortSpan r g v s).pa = s.pa := by
  unfold abortSpan; split <;> simp

@[simp] theorem abortSpan_ts (r : AbortReason) (g : Seg) (v : Addr) (s : State) : (abortSpan r g v s).ts = s.ts := by
  unfold abortSpan; split <;> simp

@[simp] theorem abortSpan_eu (r : AbortReason) (g : Seg) (v : Addr) (s : State) : (abortSpan r g v s).eu = s.eu := by
  unfold abortSpan; split <;> simp

@[simp] theorem abortSpan_cr (r : AbortReason) (g : Seg) (v : Addr) (s : State) : (abortSpan r g v s).cr = s.cr := by
  unfold abortSpan; split <;> simp

@[simp] theorem abortSpan_ds (r : AbortReason) (g : Seg) (v : Addr) (s : State) : (abortSpan r g v s).ds = s.ds := by
  unfold abortSpan; split <;> simp

@[simp] theorem abortSpan_cs (r : AbortReason) (g : Seg) (v : Addr) (s : State) : (abortSpan r g v s).cs = s.cs := by
  unfold abortSpan; split <;> simp

@[simp] theorem abortSpan_tli_addr (r : AbortReason) (g : Seg) (v : Addr) (s : State) : (abortSpan r g v s).tli.addr = s.tli.addr := by
  unfold abortSpan; split <;> simp

@[simp] theorem abortSpan_tli_kind (r : AbortReason) (g : Seg) (v : Addr) (s : State) : (abortSpan r g v s).tli.kind = s.tli.kind := by
  unfold abortSpan; split <;> simp

@[simp] theorem abortSpan_tli_clash (r : AbortReason) (g : Seg) (v : Addr) (s : State) : (abortSpan r g v s).tli.clash = s.tli.clash := by
  unfold abortSpan; split <;> simp

@[simp] theorem resetAttempts_pending  (s : State) : (resetAttempts s).pending = s.pending := by
  simp [resetAttempts]

@[simp] theorem resetAttempts_ov  (s : State) : (resetAttempts s).ov = s.ov := by
  simp [resetAttempts]

@[simp] theorem resetAttempts_sv  (s : State) : (resetAttempts s).sv = s.sv := by
  simp [resetAttempts]

@[simp] theorem resetAttempts_pa  (s : State) : (resetAttempts s).pa = s.pa := by
  simp [resetAttempts]

@[simp] theorem resetAttempts_ts  (s : State) : (resetAttempts s).ts = s.ts := by
  simp [resetAttempts]

@[simp] theorem resetAttempts_eu  (s : State) : (resetAttempts s).eu = s.eu := by
  simp [resetAttempts]

@[simp] theorem resetAttempts_cr  (s : State) : (resetAttempts s).cr = s.cr := by
  simp [resetAttempts]

@[simp] theorem resetAttempts_ds  (s : State) : (resetAttempts s).ds = s.ds := by
  simp [resetAttempts]

@[simp] theorem resetAttempts_cs  (s : State) : (resetAttempts s).cs = s.cs := by
  simp [resetAttempts]

@[simp] theorem resetAttempts_os  (s : State) : (resetAttempts s).os = s.os := by
  simp [resetAttempts]

@[simp] theorem resetAttempts_pu  (s : State) : (resetAttempts s).pu = s.pu := by
  simp [resetAttempts]

@[simp] theorem resetAttempts_ce_own  (s : State) : (resetAttempts s).ce.own = s.ce.own := by
  simp [resetAttempts]

@[simp] theorem resetAttempts_ce_span  (s : State) : (resetAttempts s).ce.span = s.ce.span := by
  simp [resetAttempts]

@[simp] theorem resetAttempts_tli_addr  (s : State) : (resetAttempts s).tli.addr = s.tli.addr := by
  simp [resetAttempts]

@[simp] theorem resetAttempts_tli_kind  (s : State) : (resetAttempts s).tli.kind = s.tli.kind := by
  simp [resetAttempts]

@[simp] theorem resetAttempts_tli_clash  (s : State) : (resetAttempts s).tli.clash = s.tli.clash := by
  simp [resetAttempts]

/-! ## Entries to a state -/

@[simp] theorem clearConvoy_pending  (s : State) : (clearConvoy s).pending = s.pending := by
  simp [clearConvoy]

@[simp] theorem clearConvoy_ov  (s : State) : (clearConvoy s).ov = s.ov := by
  simp [clearConvoy]

@[simp] theorem clearConvoy_sv  (s : State) : (clearConvoy s).sv = s.sv := by
  simp [clearConvoy]

@[simp] theorem clearConvoy_pa  (s : State) : (clearConvoy s).pa = s.pa := by
  simp [clearConvoy]

@[simp] theorem clearConvoy_ts  (s : State) : (clearConvoy s).ts = s.ts := by
  simp [clearConvoy]

@[simp] theorem clearConvoy_eu  (s : State) : (clearConvoy s).eu = s.eu := by
  simp [clearConvoy]

@[simp] theorem clearConvoy_ds  (s : State) : (clearConvoy s).ds = s.ds := by
  simp [clearConvoy]

@[simp] theorem clearConvoy_cs  (s : State) : (clearConvoy s).cs = s.cs := by
  simp [clearConvoy]

@[simp] theorem clearConvoy_os  (s : State) : (clearConvoy s).os = s.os := by
  simp [clearConvoy]

@[simp] theorem clearConvoy_pu  (s : State) : (clearConvoy s).pu = s.pu := by
  simp [clearConvoy]

@[simp] theorem clearConvoy_ce  (s : State) : (clearConvoy s).ce = s.ce := by
  simp [clearConvoy]

@[simp] theorem clearConvoy_tli  (s : State) : (clearConvoy s).tli = s.tli := by
  simp [clearConvoy]

@[simp] theorem enterState_pending (c : CarState) (s : State) : (enterState c s).pending = s.pending := by
  unfold enterState; split
  · rfl
  · simp only; repeat' split
    all_goals simp

@[simp] theorem enterState_ov (c : CarState) (s : State) : (enterState c s).ov = s.ov := by
  unfold enterState; split
  · rfl
  · simp only; repeat' split
    all_goals simp

@[simp] theorem enterState_sv (c : CarState) (s : State) : (enterState c s).sv = s.sv := by
  unfold enterState; split
  · rfl
  · simp only; repeat' split
    all_goals simp

@[simp] theorem enterState_pa (c : CarState) (s : State) : (enterState c s).pa = s.pa := by
  unfold enterState; split
  · rfl
  · simp only; repeat' split
    all_goals simp

@[simp] theorem enterState_ts (c : CarState) (s : State) : (enterState c s).ts = s.ts := by
  unfold enterState; split
  · rfl
  · simp only; repeat' split
    all_goals simp

@[simp] theorem enterState_ds (c : CarState) (s : State) : (enterState c s).ds = s.ds := by
  unfold enterState; split
  · rfl
  · simp only; repeat' split
    all_goals simp

@[simp] theorem enterState_os (c : CarState) (s : State) : (enterState c s).os = s.os := by
  unfold enterState; split
  · rfl
  · simp only; repeat' split
    all_goals simp

@[simp] theorem enterState_ce_own (c : CarState) (s : State) : (enterState c s).ce.own = s.ce.own := by
  unfold enterState; split
  · rfl
  · simp only; repeat' split
    all_goals simp

@[simp] theorem enterState_ce_span (c : CarState) (s : State) : (enterState c s).ce.span = s.ce.span := by
  unfold enterState; split
  · rfl
  · simp only; repeat' split
    all_goals simp

@[simp] theorem enterState_cs_comm (c : CarState) (s : State) : (enterState c s).cs.comm = s.cs.comm := by
  unfold enterState; split
  · rfl
  · simp only; repeat' split
    all_goals simp

@[simp] theorem enterState_cs_console (c : CarState) (s : State) : (enterState c s).cs.console = s.cs.console := by
  unfold enterState; split
  · rfl
  · simp only; repeat' split
    all_goals simp

@[simp] theorem enterState_cs_latch (c : CarState) (s : State) : (enterState c s).cs.latch = s.cs.latch := by
  unfold enterState; split
  · rfl
  · simp only; repeat' split
    all_goals simp

@[simp] theorem enterState_cs_watcher (c : CarState) (s : State) : (enterState c s).cs.watcher = s.cs.watcher := by
  unfold enterState; split
  · rfl
  · simp only; repeat' split
    all_goals simp

@[simp] theorem enterState_cs_fault (c : CarState) (s : State) : (enterState c s).cs.fault = s.cs.fault := by
  unfold enterState; split
  · rfl
  · simp only; repeat' split
    all_goals simp

@[simp] theorem enterState_cs_eStop (c : CarState) (s : State) : (enterState c s).cs.eStop = s.cs.eStop := by
  unfold enterState; split
  · rfl
  · simp only; repeat' split
    all_goals simp

@[simp] theorem enterState_cs_driveFault (c : CarState) (s : State) : (enterState c s).cs.driveFault = s.cs.driveFault := by
  unfold enterState; split
  · rfl
  · simp only; repeat' split
    all_goals simp

@[simp] theorem enterState_tli_addr (c : CarState) (s : State) : (enterState c s).tli.addr = s.tli.addr := by
  unfold enterState; split
  · rfl
  · simp only; repeat' split
    all_goals simp

@[simp] theorem enterState_tli_kind (c : CarState) (s : State) : (enterState c s).tli.kind = s.tli.kind := by
  unfold enterState; split
  · rfl
  · simp only; repeat' split
    all_goals simp

@[simp] theorem enterState_tli_clash (c : CarState) (s : State) : (enterState c s).tli.clash = s.tli.clash := by
  unfold enterState; split
  · rfl
  · simp only; repeat' split
    all_goals simp

/-- The state entered is the state asked for. -/
@[simp] theorem enterState_cs_state (c : CarState) (s : State) : (enterState c s).cs.state = c := by
  unfold enterState; split
  · exact Eq.symm ‹_›
  · simp only; repeat' split
    all_goals simp

@[simp] theorem toEndForm_pending  (s : State) : (toEndForm s).pending = s.pending := by
  unfold toEndForm; split <;> simp

@[simp] theorem toEndForm_ov  (s : State) : (toEndForm s).ov = s.ov := by
  unfold toEndForm; split <;> simp

@[simp] theorem toEndForm_sv  (s : State) : (toEndForm s).sv = s.sv := by
  unfold toEndForm; split <;> simp

@[simp] theorem toEndForm_pa  (s : State) : (toEndForm s).pa = s.pa := by
  unfold toEndForm; split <;> simp

@[simp] theorem toEndForm_ts  (s : State) : (toEndForm s).ts = s.ts := by
  unfold toEndForm; split <;> simp

@[simp] theorem toEndForm_eu  (s : State) : (toEndForm s).eu = s.eu := by
  unfold toEndForm; split <;> simp

@[simp] theorem toEndForm_cr  (s : State) : (toEndForm s).cr = s.cr := by
  unfold toEndForm; split <;> simp

@[simp] theorem toEndForm_ds  (s : State) : (toEndForm s).ds = s.ds := by
  unfold toEndForm; split <;> simp

@[simp] theorem toEndForm_cs  (s : State) : (toEndForm s).cs = s.cs := by
  unfold toEndForm; split <;> simp

@[simp] theorem toEndForm_os  (s : State) : (toEndForm s).os = s.os := by
  unfold toEndForm; split <;> simp

@[simp] theorem toEndForm_ce  (s : State) : (toEndForm s).ce = s.ce := by
  unfold toEndForm; split <;> simp

@[simp] theorem toEndForm_tli  (s : State) : (toEndForm s).tli = s.tli := by
  unfold toEndForm; split <;> simp

@[simp] theorem orderLeaves_pending  (s : State) : (orderLeaves s).pending = s.pending := by
  unfold orderLeaves; simp only; split <;> simp

@[simp] theorem orderLeaves_ov  (s : State) : (orderLeaves s).ov = s.ov := by
  unfold orderLeaves; simp only; split <;> simp

@[simp] theorem orderLeaves_sv  (s : State) : (orderLeaves s).sv = s.sv := by
  unfold orderLeaves; simp only; split <;> simp

@[simp] theorem orderLeaves_pa  (s : State) : (orderLeaves s).pa = s.pa := by
  unfold orderLeaves; simp only; split <;> simp

@[simp] theorem orderLeaves_ts  (s : State) : (orderLeaves s).ts = s.ts := by
  unfold orderLeaves; simp only; split <;> simp

@[simp] theorem orderLeaves_ds  (s : State) : (orderLeaves s).ds = s.ds := by
  unfold orderLeaves; simp only; split <;> simp

@[simp] theorem orderLeaves_cs  (s : State) : (orderLeaves s).cs = s.cs := by
  unfold orderLeaves; simp only; split <;> simp

@[simp] theorem orderLeaves_tli_addr  (s : State) : (orderLeaves s).tli.addr = s.tli.addr := by
  unfold orderLeaves; simp only; split <;> simp

@[simp] theorem orderLeaves_tli_kind  (s : State) : (orderLeaves s).tli.kind = s.tli.kind := by
  unfold orderLeaves; simp only; split <;> simp

@[simp] theorem orderLeaves_tli_clash  (s : State) : (orderLeaves s).tli.clash = s.tli.clash := by
  unfold orderLeaves; simp only; split <;> simp

@[simp] theorem jacksOff_pending  (s : State) : (jacksOff s).pending = s.pending := by
  simp [jacksOff]

@[simp] theorem jacksOff_ov  (s : State) : (jacksOff s).ov = s.ov := by
  simp [jacksOff]

@[simp] theorem jacksOff_sv  (s : State) : (jacksOff s).sv = s.sv := by
  simp [jacksOff]

@[simp] theorem jacksOff_pa  (s : State) : (jacksOff s).pa = s.pa := by
  simp [jacksOff]

@[simp] theorem jacksOff_ts  (s : State) : (jacksOff s).ts = s.ts := by
  simp [jacksOff]

@[simp] theorem jacksOff_eu  (s : State) : (jacksOff s).eu = s.eu := by
  simp [jacksOff]

@[simp] theorem jacksOff_cr  (s : State) : (jacksOff s).cr = s.cr := by
  simp [jacksOff]

@[simp] theorem jacksOff_cs  (s : State) : (jacksOff s).cs = s.cs := by
  simp [jacksOff]

@[simp] theorem jacksOff_os  (s : State) : (jacksOff s).os = s.os := by
  simp [jacksOff]

@[simp] theorem jacksOff_pu  (s : State) : (jacksOff s).pu = s.pu := by
  simp [jacksOff]

@[simp] theorem jacksOff_ce  (s : State) : (jacksOff s).ce = s.ce := by
  simp [jacksOff]

@[simp] theorem jacksOff_tli  (s : State) : (jacksOff s).tli = s.tli := by
  simp [jacksOff]

@[simp] theorem failOrders_pending  (s : State) : (failOrders s).pending = s.pending := by
  unfold failOrders; split <;> dsimp only <;> split <;> simp

@[simp] theorem failOrders_ov  (s : State) : (failOrders s).ov = s.ov := by
  unfold failOrders; split <;> dsimp only <;> split <;> simp

@[simp] theorem failOrders_sv  (s : State) : (failOrders s).sv = s.sv := by
  unfold failOrders; split <;> dsimp only <;> split <;> simp

@[simp] theorem failOrders_pa  (s : State) : (failOrders s).pa = s.pa := by
  unfold failOrders; split <;> dsimp only <;> split <;> simp

@[simp] theorem failOrders_ts  (s : State) : (failOrders s).ts = s.ts := by
  unfold failOrders; split <;> dsimp only <;> split <;> simp

@[simp] theorem failOrders_eu  (s : State) : (failOrders s).eu = s.eu := by
  unfold failOrders; split <;> dsimp only <;> split <;> simp

@[simp] theorem failOrders_cr  (s : State) : (failOrders s).cr = s.cr := by
  unfold failOrders; split <;> dsimp only <;> split <;> simp

@[simp] theorem failOrders_ds  (s : State) : (failOrders s).ds = s.ds := by
  unfold failOrders; split <;> dsimp only <;> split <;> simp

@[simp] theorem failOrders_cs  (s : State) : (failOrders s).cs = s.cs := by
  unfold failOrders; split <;> dsimp only <;> split <;> simp

@[simp] theorem failOrders_os  (s : State) : (failOrders s).os = s.os := by
  unfold failOrders; split <;> dsimp only <;> split <;> simp

@[simp] theorem failOrders_pu  (s : State) : (failOrders s).pu = s.pu := by
  unfold failOrders; split <;> dsimp only <;> split <;> simp

@[simp] theorem failOrders_ce_own  (s : State) : (failOrders s).ce.own = s.ce.own := by
  unfold failOrders; split <;> dsimp only <;> split <;> simp

@[simp] theorem failOrders_ce_span  (s : State) : (failOrders s).ce.span = s.ce.span := by
  unfold failOrders; split <;> dsimp only <;> split <;> simp

@[simp] theorem failOrders_tli_addr  (s : State) : (failOrders s).tli.addr = s.tli.addr := by
  unfold failOrders; split <;> dsimp only <;> split <;> simp

@[simp] theorem failOrders_tli_kind  (s : State) : (failOrders s).tli.kind = s.tli.kind := by
  unfold failOrders; split <;> dsimp only <;> split <;> simp

@[simp] theorem failOrders_tli_clash  (s : State) : (failOrders s).tli.clash = s.tli.clash := by
  unfold failOrders; split <;> dsimp only <;> split <;> simp

@[simp] theorem faultClaims_pending  (s : State) : (faultClaims s).pending = s.pending := by
  unfold faultClaims; simp only; split <;> simp

@[simp] theorem faultClaims_ov  (s : State) : (faultClaims s).ov = s.ov := by
  unfold faultClaims; simp only; split <;> simp

@[simp] theorem faultClaims_sv  (s : State) : (faultClaims s).sv = s.sv := by
  unfold faultClaims; simp only; split <;> simp

@[simp] theorem faultClaims_pa  (s : State) : (faultClaims s).pa = s.pa := by
  unfold faultClaims; simp only; split <;> simp

@[simp] theorem faultClaims_ts  (s : State) : (faultClaims s).ts = s.ts := by
  unfold faultClaims; simp only; split <;> simp

@[simp] theorem faultClaims_eu  (s : State) : (faultClaims s).eu = s.eu := by
  unfold faultClaims; simp only; split <;> simp

@[simp] theorem faultClaims_cr  (s : State) : (faultClaims s).cr = s.cr := by
  unfold faultClaims; simp only; split <;> simp

@[simp] theorem faultClaims_ds  (s : State) : (faultClaims s).ds = s.ds := by
  unfold faultClaims; simp only; split <;> simp

@[simp] theorem faultClaims_cs  (s : State) : (faultClaims s).cs = s.cs := by
  unfold faultClaims; simp only; split <;> simp

@[simp] theorem faultClaims_tli_addr  (s : State) : (faultClaims s).tli.addr = s.tli.addr := by
  unfold faultClaims; simp only; split <;> simp

@[simp] theorem faultClaims_tli_kind  (s : State) : (faultClaims s).tli.kind = s.tli.kind := by
  unfold faultClaims; simp only; split <;> simp

@[simp] theorem faultClaims_tli_clash  (s : State) : (faultClaims s).tli.clash = s.tli.clash := by
  unfold faultClaims; simp only; split <;> simp

@[simp] theorem firstFault_pending (c : FaultCode) (g : Seg) (m : Mm) (s : State) : (firstFault c g m s).pending = s.pending := by
  unfold firstFault; simp only; repeat' split
  all_goals simp

@[simp] theorem firstFault_ov (c : FaultCode) (g : Seg) (m : Mm) (s : State) : (firstFault c g m s).ov = s.ov := by
  unfold firstFault; simp only; repeat' split
  all_goals simp

@[simp] theorem firstFault_sv (c : FaultCode) (g : Seg) (m : Mm) (s : State) : (firstFault c g m s).sv = s.sv := by
  unfold firstFault; simp only; repeat' split
  all_goals simp

@[simp] theorem firstFault_pa (c : FaultCode) (g : Seg) (m : Mm) (s : State) : (firstFault c g m s).pa = s.pa := by
  unfold firstFault; simp only; repeat' split
  all_goals simp

@[simp] theorem firstFault_ts (c : FaultCode) (g : Seg) (m : Mm) (s : State) : (firstFault c g m s).ts = s.ts := by
  unfold firstFault; simp only; repeat' split
  all_goals simp

@[simp] theorem firstFault_tli_addr (c : FaultCode) (g : Seg) (m : Mm) (s : State) : (firstFault c g m s).tli.addr = s.tli.addr := by
  unfold firstFault; simp only; repeat' split
  all_goals simp

@[simp] theorem firstFault_tli_kind (c : FaultCode) (g : Seg) (m : Mm) (s : State) : (firstFault c g m s).tli.kind = s.tli.kind := by
  unfold firstFault; simp only; repeat' split
  all_goals simp

@[simp] theorem firstFault_tli_clash (c : FaultCode) (g : Seg) (m : Mm) (s : State) : (firstFault c g m s).tli.clash = s.tli.clash := by
  unfold firstFault; simp only; repeat' split
  all_goals simp

@[simp] theorem furtherFault_pending (c : FaultCode) (s : State) : (furtherFault c s).pending = s.pending := by
  unfold furtherFault; simp only; split <;> simp

@[simp] theorem furtherFault_ov (c : FaultCode) (s : State) : (furtherFault c s).ov = s.ov := by
  unfold furtherFault; simp only; split <;> simp

@[simp] theorem furtherFault_sv (c : FaultCode) (s : State) : (furtherFault c s).sv = s.sv := by
  unfold furtherFault; simp only; split <;> simp

@[simp] theorem furtherFault_pa (c : FaultCode) (s : State) : (furtherFault c s).pa = s.pa := by
  unfold furtherFault; simp only; split <;> simp

@[simp] theorem furtherFault_ts (c : FaultCode) (s : State) : (furtherFault c s).ts = s.ts := by
  unfold furtherFault; simp only; split <;> simp

@[simp] theorem furtherFault_eu (c : FaultCode) (s : State) : (furtherFault c s).eu = s.eu := by
  unfold furtherFault; simp only; split <;> simp

@[simp] theorem furtherFault_os (c : FaultCode) (s : State) : (furtherFault c s).os = s.os := by
  unfold furtherFault; simp only; split <;> simp

@[simp] theorem furtherFault_pu (c : FaultCode) (s : State) : (furtherFault c s).pu = s.pu := by
  unfold furtherFault; simp only; split <;> simp

@[simp] theorem furtherFault_ce_own (c : FaultCode) (s : State) : (furtherFault c s).ce.own = s.ce.own := by
  unfold furtherFault; simp only; split <;> simp

@[simp] theorem furtherFault_ce_span (c : FaultCode) (s : State) : (furtherFault c s).ce.span = s.ce.span := by
  unfold furtherFault; simp only; split <;> simp

@[simp] theorem furtherFault_tli_addr (c : FaultCode) (s : State) : (furtherFault c s).tli.addr = s.tli.addr := by
  unfold furtherFault; simp only; split <;> simp

@[simp] theorem furtherFault_tli_kind (c : FaultCode) (s : State) : (furtherFault c s).tli.kind = s.tli.kind := by
  unfold furtherFault; simp only; split <;> simp

@[simp] theorem furtherFault_tli_clash (c : FaultCode) (s : State) : (furtherFault c s).tli.clash = s.tli.clash := by
  unfold furtherFault; simp only; split <;> simp

@[simp] theorem raiseFaultAt_pending (c : FaultCode) (g : Seg) (m : Mm) (s : State) : (raiseFaultAt c g m s).pending = s.pending := by
  unfold raiseFaultAt; split <;> simp

@[simp] theorem raiseFaultAt_ov (c : FaultCode) (g : Seg) (m : Mm) (s : State) : (raiseFaultAt c g m s).ov = s.ov := by
  unfold raiseFaultAt; split <;> simp

@[simp] theorem raiseFaultAt_sv (c : FaultCode) (g : Seg) (m : Mm) (s : State) : (raiseFaultAt c g m s).sv = s.sv := by
  unfold raiseFaultAt; split <;> simp

@[simp] theorem raiseFaultAt_pa (c : FaultCode) (g : Seg) (m : Mm) (s : State) : (raiseFaultAt c g m s).pa = s.pa := by
  unfold raiseFaultAt; split <;> simp

@[simp] theorem raiseFaultAt_ts (c : FaultCode) (g : Seg) (m : Mm) (s : State) : (raiseFaultAt c g m s).ts = s.ts := by
  unfold raiseFaultAt; split <;> simp

@[simp] theorem raiseFaultAt_tli_addr (c : FaultCode) (g : Seg) (m : Mm) (s : State) : (raiseFaultAt c g m s).tli.addr = s.tli.addr := by
  unfold raiseFaultAt; split <;> simp

@[simp] theorem raiseFaultAt_tli_kind (c : FaultCode) (g : Seg) (m : Mm) (s : State) : (raiseFaultAt c g m s).tli.kind = s.tli.kind := by
  unfold raiseFaultAt; split <;> simp

@[simp] theorem raiseFaultAt_tli_clash (c : FaultCode) (g : Seg) (m : Mm) (s : State) : (raiseFaultAt c g m s).tli.clash = s.tli.clash := by
  unfold raiseFaultAt; split <;> simp

@[simp] theorem raiseFault_pending (c : FaultCode) (s : State) : (raiseFault c s).pending = s.pending := by
  simp [raiseFault]

@[simp] theorem raiseFault_ov (c : FaultCode) (s : State) : (raiseFault c s).ov = s.ov := by
  simp [raiseFault]

@[simp] theorem raiseFault_sv (c : FaultCode) (s : State) : (raiseFault c s).sv = s.sv := by
  simp [raiseFault]

@[simp] theorem raiseFault_pa (c : FaultCode) (s : State) : (raiseFault c s).pa = s.pa := by
  simp [raiseFault]

@[simp] theorem raiseFault_ts (c : FaultCode) (s : State) : (raiseFault c s).ts = s.ts := by
  simp [raiseFault]

@[simp] theorem raiseFault_tli_addr (c : FaultCode) (s : State) : (raiseFault c s).tli.addr = s.tli.addr := by
  simp [raiseFault]

@[simp] theorem raiseFault_tli_kind (c : FaultCode) (s : State) : (raiseFault c s).tli.kind = s.tli.kind := by
  simp [raiseFault]

@[simp] theorem raiseFault_tli_clash (c : FaultCode) (s : State) : (raiseFault c s).tli.clash = s.tli.clash := by
  simp [raiseFault]

@[simp] theorem raiseClash_pending (v : Addr) (g : Seg) (s : State) : (raiseClash v g s).pending = s.pending := by
  unfold raiseClash; split <;> simp

@[simp] theorem raiseClash_ov (v : Addr) (g : Seg) (s : State) : (raiseClash v g s).ov = s.ov := by
  unfold raiseClash; split <;> simp

@[simp] theorem raiseClash_sv (v : Addr) (g : Seg) (s : State) : (raiseClash v g s).sv = s.sv := by
  unfold raiseClash; split <;> simp

@[simp] theorem raiseClash_pa (v : Addr) (g : Seg) (s : State) : (raiseClash v g s).pa = s.pa := by
  unfold raiseClash; split <;> simp

@[simp] theorem raiseClash_ts (v : Addr) (g : Seg) (s : State) : (raiseClash v g s).ts = s.ts := by
  unfold raiseClash; split <;> simp

@[simp] theorem raiseClash_tli_addr (v : Addr) (g : Seg) (s : State) : (raiseClash v g s).tli.addr = s.tli.addr := by
  unfold raiseClash; split <;> simp

@[simp] theorem raiseClash_tli_kind (v : Addr) (g : Seg) (s : State) : (raiseClash v g s).tli.kind = s.tli.kind := by
  unfold raiseClash; split <;> simp

@[simp] theorem raiseClash_tli_clash (v : Addr) (g : Seg) (s : State) : (raiseClash v g s).tli.clash = s.tli.clash := by
  unfold raiseClash; split <;> simp

@[simp] theorem forgetFault_pending  (s : State) : (forgetFault s).pending = s.pending := by
  simp [forgetFault]

@[simp] theorem forgetFault_ov  (s : State) : (forgetFault s).ov = s.ov := by
  simp [forgetFault]

@[simp] theorem forgetFault_sv  (s : State) : (forgetFault s).sv = s.sv := by
  simp [forgetFault]

@[simp] theorem forgetFault_pa  (s : State) : (forgetFault s).pa = s.pa := by
  simp [forgetFault]

@[simp] theorem forgetFault_ts  (s : State) : (forgetFault s).ts = s.ts := by
  simp [forgetFault]

@[simp] theorem forgetFault_eu  (s : State) : (forgetFault s).eu = s.eu := by
  simp [forgetFault]

@[simp] theorem forgetFault_cr  (s : State) : (forgetFault s).cr = s.cr := by
  simp [forgetFault]

@[simp] theorem forgetFault_ds  (s : State) : (forgetFault s).ds = s.ds := by
  simp [forgetFault]

@[simp] theorem forgetFault_os  (s : State) : (forgetFault s).os = s.os := by
  simp [forgetFault]

@[simp] theorem forgetFault_pu  (s : State) : (forgetFault s).pu = s.pu := by
  simp [forgetFault]

@[simp] theorem forgetFault_tli  (s : State) : (forgetFault s).tli = s.tli := by
  simp [forgetFault]

@[simp] theorem forgetFault_ce_own  (s : State) : (forgetFault s).ce.own = s.ce.own := by
  simp [forgetFault]

@[simp] theorem makeStanding_pending  (s : State) : (makeStanding s).pending = s.pending := by
  unfold makeStanding; simp only; split <;> simp

@[simp] theorem makeStanding_ov  (s : State) : (makeStanding s).ov = s.ov := by
  unfold makeStanding; simp only; split <;> simp

@[simp] theorem makeStanding_sv  (s : State) : (makeStanding s).sv = s.sv := by
  unfold makeStanding; simp only; split <;> simp

@[simp] theorem makeStanding_pa  (s : State) : (makeStanding s).pa = s.pa := by
  unfold makeStanding; simp only; split <;> simp

@[simp] theorem makeStanding_ts  (s : State) : (makeStanding s).ts = s.ts := by
  unfold makeStanding; simp only; split <;> simp

@[simp] theorem makeStanding_eu  (s : State) : (makeStanding s).eu = s.eu := by
  unfold makeStanding; simp only; split <;> simp

@[simp] theorem makeStanding_cr  (s : State) : (makeStanding s).cr = s.cr := by
  unfold makeStanding; simp only; split <;> simp

@[simp] theorem makeStanding_ds  (s : State) : (makeStanding s).ds = s.ds := by
  unfold makeStanding; simp only; split <;> simp

@[simp] theorem makeStanding_cs  (s : State) : (makeStanding s).cs = s.cs := by
  unfold makeStanding; simp only; split <;> simp

@[simp] theorem makeStanding_os  (s : State) : (makeStanding s).os = s.os := by
  unfold makeStanding; simp only; split <;> simp

@[simp] theorem makeStanding_ce_span  (s : State) : (makeStanding s).ce.span = s.ce.span := by
  unfold makeStanding; simp only; split <;> simp

@[simp] theorem makeStanding_tli_addr  (s : State) : (makeStanding s).tli.addr = s.tli.addr := by
  unfold makeStanding; simp only; split <;> simp

@[simp] theorem makeStanding_tli_kind  (s : State) : (makeStanding s).tli.kind = s.tli.kind := by
  unfold makeStanding; simp only; split <;> simp

@[simp] theorem makeStanding_tli_clash  (s : State) : (makeStanding s).tli.clash = s.tli.clash := by
  unfold makeStanding; simp only; split <;> simp

@[simp] theorem enterParked_pending  (s : State) : (enterParked s).pending = s.pending := by
  simp [enterParked]

@[simp] theorem enterParked_ov  (s : State) : (enterParked s).ov = s.ov := by
  simp [enterParked]

@[simp] theorem enterParked_sv  (s : State) : (enterParked s).sv = s.sv := by
  simp [enterParked]

@[simp] theorem enterParked_pa  (s : State) : (enterParked s).pa = s.pa := by
  simp [enterParked]

@[simp] theorem enterParked_ts  (s : State) : (enterParked s).ts = s.ts := by
  simp [enterParked]

@[simp] theorem enterParked_ds  (s : State) : (enterParked s).ds = s.ds := by
  simp [enterParked]

@[simp] theorem enterParked_os  (s : State) : (enterParked s).os = s.os := by
  simp [enterParked]

@[simp] theorem enterParked_tli_addr  (s : State) : (enterParked s).tli.addr = s.tli.addr := by
  simp [enterParked]

@[simp] theorem enterParked_tli_kind  (s : State) : (enterParked s).tli.kind = s.tli.kind := by
  simp [enterParked]

@[simp] theorem enterParked_tli_clash  (s : State) : (enterParked s).tli.clash = s.tli.clash := by
  simp [enterParked]

@[simp] theorem enterUnlocated_pending  (s : State) : (enterUnlocated s).pending = s.pending := by
  simp [enterUnlocated]

@[simp] theorem enterUnlocated_ov  (s : State) : (enterUnlocated s).ov = s.ov := by
  simp [enterUnlocated]

@[simp] theorem enterUnlocated_sv  (s : State) : (enterUnlocated s).sv = s.sv := by
  simp [enterUnlocated]

@[simp] theorem enterUnlocated_pa  (s : State) : (enterUnlocated s).pa = s.pa := by
  simp [enterUnlocated]

@[simp] theorem enterUnlocated_ts  (s : State) : (enterUnlocated s).ts = s.ts := by
  simp [enterUnlocated]

@[simp] theorem enterUnlocated_ds  (s : State) : (enterUnlocated s).ds = s.ds := by
  simp [enterUnlocated]

@[simp] theorem enterUnlocated_tli_addr  (s : State) : (enterUnlocated s).tli.addr = s.tli.addr := by
  simp [enterUnlocated]

@[simp] theorem enterUnlocated_tli_kind  (s : State) : (enterUnlocated s).tli.kind = s.tli.kind := by
  simp [enterUnlocated]

@[simp] theorem enterUnlocated_tli_clash  (s : State) : (enterUnlocated s).tli.clash = s.tli.clash := by
  simp [enterUnlocated]

@[simp] theorem inputFaults_pending  (s : State) : (inputFaults s).pending = s.pending := by
  unfold inputFaults; simp only; repeat' split
  all_goals simp

@[simp] theorem inputFaults_ov  (s : State) : (inputFaults s).ov = s.ov := by
  unfold inputFaults; simp only; repeat' split
  all_goals simp

@[simp] theorem inputFaults_sv  (s : State) : (inputFaults s).sv = s.sv := by
  unfold inputFaults; simp only; repeat' split
  all_goals simp

@[simp] theorem inputFaults_pa  (s : State) : (inputFaults s).pa = s.pa := by
  unfold inputFaults; simp only; repeat' split
  all_goals simp

@[simp] theorem inputFaults_ts  (s : State) : (inputFaults s).ts = s.ts := by
  unfold inputFaults; simp only; repeat' split
  all_goals simp

@[simp] theorem inputFaults_tli_addr  (s : State) : (inputFaults s).tli.addr = s.tli.addr := by
  unfold inputFaults; simp only; repeat' split
  all_goals simp

@[simp] theorem inputFaults_tli_kind  (s : State) : (inputFaults s).tli.kind = s.tli.kind := by
  unfold inputFaults; simp only; repeat' split
  all_goals simp

@[simp] theorem inputFaults_tli_clash  (s : State) : (inputFaults s).tli.clash = s.tli.clash := by
  unfold inputFaults; simp only; repeat' split
  all_goals simp

@[simp] theorem testTrigger_pending  (s : State) : (testTrigger s).pending = s.pending := by
  unfold testTrigger; split <;> simp

@[simp] theorem testTrigger_ov  (s : State) : (testTrigger s).ov = s.ov := by
  unfold testTrigger; split <;> simp

@[simp] theorem testTrigger_sv  (s : State) : (testTrigger s).sv = s.sv := by
  unfold testTrigger; split <;> simp

@[simp] theorem testTrigger_pa  (s : State) : (testTrigger s).pa = s.pa := by
  unfold testTrigger; split <;> simp

@[simp] theorem testTrigger_ts  (s : State) : (testTrigger s).ts = s.ts := by
  unfold testTrigger; split <;> simp

@[simp] theorem testTrigger_eu  (s : State) : (testTrigger s).eu = s.eu := by
  unfold testTrigger; split <;> simp

@[simp] theorem testTrigger_cr  (s : State) : (testTrigger s).cr = s.cr := by
  unfold testTrigger; split <;> simp

@[simp] theorem testTrigger_ds  (s : State) : (testTrigger s).ds = s.ds := by
  unfold testTrigger; split <;> simp

@[simp] theorem testTrigger_cs  (s : State) : (testTrigger s).cs = s.cs := by
  unfold testTrigger; split <;> simp

@[simp] theorem testTrigger_os  (s : State) : (testTrigger s).os = s.os := by
  unfold testTrigger; split <;> simp

@[simp] theorem testTrigger_pu  (s : State) : (testTrigger s).pu = s.pu := by
  unfold testTrigger; split <;> simp

@[simp] theorem testTrigger_tli  (s : State) : (testTrigger s).tli = s.tli := by
  unfold testTrigger; split <;> simp

@[simp] theorem testTrigger_ce_own  (s : State) : (testTrigger s).ce.own = s.ce.own := by
  unfold testTrigger; split <;> simp

@[simp] theorem testTrigger_ce_span  (s : State) : (testTrigger s).ce.span = s.ce.span := by
  unfold testTrigger; split <;> simp

@[simp] theorem overrunTest_pending  (s : State) : (overrunTest s).pending = s.pending := by
  unfold overrunTest; repeat' split
  all_goals simp

@[simp] theorem overrunTest_ov  (s : State) : (overrunTest s).ov = s.ov := by
  unfold overrunTest; repeat' split
  all_goals simp

@[simp] theorem overrunTest_sv  (s : State) : (overrunTest s).sv = s.sv := by
  unfold overrunTest; repeat' split
  all_goals simp

@[simp] theorem overrunTest_pa  (s : State) : (overrunTest s).pa = s.pa := by
  unfold overrunTest; repeat' split
  all_goals simp

@[simp] theorem overrunTest_ts  (s : State) : (overrunTest s).ts = s.ts := by
  unfold overrunTest; repeat' split
  all_goals simp

@[simp] theorem overrunTest_tli_addr  (s : State) : (overrunTest s).tli.addr = s.tli.addr := by
  unfold overrunTest; repeat' split
  all_goals simp

@[simp] theorem overrunTest_tli_kind  (s : State) : (overrunTest s).tli.kind = s.tli.kind := by
  unfold overrunTest; repeat' split
  all_goals simp

@[simp] theorem overrunTest_tli_clash  (s : State) : (overrunTest s).tli.clash = s.tli.clash := by
  unfold overrunTest; repeat' split
  all_goals simp

/-- Entering FAULT or another fault in it: the state is FAULT (R173, R174). -/
@[simp] theorem raiseFaultAt_cs_state (c : FaultCode) (g : Seg) (m : Mm) (s : State) :
    (raiseFaultAt c g m s).cs.state = .fault := by
  unfold raiseFaultAt; split
  · unfold furtherFault; simp only; split <;> simpa
  · unfold firstFault; simp only; repeat' split
    all_goals simp

/-! ## Movement and the line -/

@[simp] theorem padWatch_pending  (s : State) : (padWatch s).pending = s.pending := by
  unfold padWatch; repeat' split
  all_goals simp

@[simp] theorem padWatch_ov  (s : State) : (padWatch s).ov = s.ov := by
  unfold padWatch; repeat' split
  all_goals simp

@[simp] theorem padWatch_sv  (s : State) : (padWatch s).sv = s.sv := by
  unfold padWatch; repeat' split
  all_goals simp

@[simp] theorem padWatch_pa  (s : State) : (padWatch s).pa = s.pa := by
  unfold padWatch; repeat' split
  all_goals simp

@[simp] theorem padWatch_ts  (s : State) : (padWatch s).ts = s.ts := by
  unfold padWatch; repeat' split
  all_goals simp

@[simp] theorem padWatch_tli_addr  (s : State) : (padWatch s).tli.addr = s.tli.addr := by
  unfold padWatch; repeat' split
  all_goals simp

@[simp] theorem padWatch_tli_kind  (s : State) : (padWatch s).tli.kind = s.tli.kind := by
  unfold padWatch; repeat' split
  all_goals simp

@[simp] theorem padWatch_tli_clash  (s : State) : (padWatch s).tli.clash = s.tli.clash := by
  unfold padWatch; repeat' split
  all_goals simp

@[simp] theorem leaveUndocking_pending  (s : State) : (leaveUndocking s).pending = s.pending := by
  unfold leaveUndocking; simp only; split <;> simp

@[simp] theorem leaveUndocking_ov  (s : State) : (leaveUndocking s).ov = s.ov := by
  unfold leaveUndocking; simp only; split <;> simp

@[simp] theorem leaveUndocking_sv  (s : State) : (leaveUndocking s).sv = s.sv := by
  unfold leaveUndocking; simp only; split <;> simp

@[simp] theorem leaveUndocking_pa  (s : State) : (leaveUndocking s).pa = s.pa := by
  unfold leaveUndocking; simp only; split <;> simp

@[simp] theorem leaveUndocking_ts  (s : State) : (leaveUndocking s).ts = s.ts := by
  unfold leaveUndocking; simp only; split <;> simp

@[simp] theorem leaveUndocking_tli_addr  (s : State) : (leaveUndocking s).tli.addr = s.tli.addr := by
  unfold leaveUndocking; simp only; split <;> simp

@[simp] theorem leaveUndocking_tli_kind  (s : State) : (leaveUndocking s).tli.kind = s.tli.kind := by
  unfold leaveUndocking; simp only; split <;> simp

@[simp] theorem leaveUndocking_tli_clash  (s : State) : (leaveUndocking s).tli.clash = s.tli.clash := by
  unfold leaveUndocking; simp only; split <;> simp

@[simp] theorem startUndocking_pending  (s : State) : (startUndocking s).pending = s.pending := by
  unfold startUndocking; simp only; repeat' split
  all_goals simp

@[simp] theorem startUndocking_ov  (s : State) : (startUndocking s).ov = s.ov := by
  unfold startUndocking; simp only; repeat' split
  all_goals simp

@[simp] theorem startUndocking_sv  (s : State) : (startUndocking s).sv = s.sv := by
  unfold startUndocking; simp only; repeat' split
  all_goals simp

@[simp] theorem startUndocking_pa  (s : State) : (startUndocking s).pa = s.pa := by
  unfold startUndocking; simp only; repeat' split
  all_goals simp

@[simp] theorem startUndocking_ts  (s : State) : (startUndocking s).ts = s.ts := by
  unfold startUndocking; simp only; repeat' split
  all_goals simp

@[simp] theorem startUndocking_tli_addr  (s : State) : (startUndocking s).tli.addr = s.tli.addr := by
  unfold startUndocking; simp only; repeat' split
  all_goals simp

@[simp] theorem startUndocking_tli_kind  (s : State) : (startUndocking s).tli.kind = s.tli.kind := by
  unfold startUndocking; simp only; repeat' split
  all_goals simp

@[simp] theorem startUndocking_tli_clash  (s : State) : (startUndocking s).tli.clash = s.tli.clash := by
  unfold startUndocking; simp only; repeat' split
  all_goals simp

@[simp] theorem beginOrder_pending (o : OrderRec) (s : State) : (beginOrder o s).pending = s.pending := by
  unfold beginOrder; split
  · simp only; repeat' split
    all_goals simp
  · rfl

@[simp] theorem beginOrder_ov (o : OrderRec) (s : State) : (beginOrder o s).ov = s.ov := by
  unfold beginOrder; split
  · simp only; repeat' split
    all_goals simp
  · rfl

@[simp] theorem beginOrder_sv (o : OrderRec) (s : State) : (beginOrder o s).sv = s.sv := by
  unfold beginOrder; split
  · simp only; repeat' split
    all_goals simp
  · rfl

@[simp] theorem beginOrder_pa (o : OrderRec) (s : State) : (beginOrder o s).pa = s.pa := by
  unfold beginOrder; split
  · simp only; repeat' split
    all_goals simp
  · rfl

@[simp] theorem beginOrder_ts (o : OrderRec) (s : State) : (beginOrder o s).ts = s.ts := by
  unfold beginOrder; split
  · simp only; repeat' split
    all_goals simp
  · rfl

@[simp] theorem beginOrder_tli_addr (o : OrderRec) (s : State) : (beginOrder o s).tli.addr = s.tli.addr := by
  unfold beginOrder; split
  · simp only; repeat' split
    all_goals simp
  · rfl

@[simp] theorem beginOrder_tli_kind (o : OrderRec) (s : State) : (beginOrder o s).tli.kind = s.tli.kind := by
  unfold beginOrder; split
  · simp only; repeat' split
    all_goals simp
  · rfl

@[simp] theorem beginOrder_tli_clash (o : OrderRec) (s : State) : (beginOrder o s).tli.clash = s.tli.clash := by
  unfold beginOrder; split
  · simp only; repeat' split
    all_goals simp
  · rfl

@[simp] theorem startActive_pending (n : Nat) (s : State) : (startActive n s).pending = s.pending := by
  induction n generalizing s with
  | zero => rfl
  | succ n ih => unfold startActive; split
                 · rfl
                 · split
                   · simp
                   · dsimp only; split <;> simp [ih]

@[simp] theorem startActive_ov (n : Nat) (s : State) : (startActive n s).ov = s.ov := by
  induction n generalizing s with
  | zero => rfl
  | succ n ih => unfold startActive; split
                 · rfl
                 · split
                   · simp
                   · dsimp only; split <;> simp [ih]

@[simp] theorem startActive_sv (n : Nat) (s : State) : (startActive n s).sv = s.sv := by
  induction n generalizing s with
  | zero => rfl
  | succ n ih => unfold startActive; split
                 · rfl
                 · split
                   · simp
                   · dsimp only; split <;> simp [ih]

@[simp] theorem startActive_pa (n : Nat) (s : State) : (startActive n s).pa = s.pa := by
  induction n generalizing s with
  | zero => rfl
  | succ n ih => unfold startActive; split
                 · rfl
                 · split
                   · simp
                   · dsimp only; split <;> simp [ih]

@[simp] theorem startActive_ts (n : Nat) (s : State) : (startActive n s).ts = s.ts := by
  induction n generalizing s with
  | zero => rfl
  | succ n ih => unfold startActive; split
                 · rfl
                 · split
                   · simp
                   · dsimp only; split <;> simp [ih]

@[simp] theorem startActive_tli_addr (n : Nat) (s : State) : (startActive n s).tli.addr = s.tli.addr := by
  induction n generalizing s with
  | zero => rfl
  | succ n ih => unfold startActive; split
                 · rfl
                 · split
                   · simp
                   · dsimp only; split <;> simp [ih]

@[simp] theorem startActive_tli_kind (n : Nat) (s : State) : (startActive n s).tli.kind = s.tli.kind := by
  induction n generalizing s with
  | zero => rfl
  | succ n ih => unfold startActive; split
                 · rfl
                 · split
                   · simp
                   · dsimp only; split <;> simp [ih]

@[simp] theorem startActive_tli_clash (n : Nat) (s : State) : (startActive n s).tli.clash = s.tli.clash := by
  induction n generalizing s with
  | zero => rfl
  | succ n ih => unfold startActive; split
                 · rfl
                 · split
                   · simp
                   · dsimp only; split <;> simp [ih]

@[simp] theorem promote_pending  (s : State) : (promote s).pending = s.pending := by
  unfold promote; split
  · rfl
  · simp only; split <;> simp

@[simp] theorem promote_ov  (s : State) : (promote s).ov = s.ov := by
  unfold promote; split
  · rfl
  · simp only; split <;> simp

@[simp] theorem promote_sv  (s : State) : (promote s).sv = s.sv := by
  unfold promote; split
  · rfl
  · simp only; split <;> simp

@[simp] theorem promote_pa  (s : State) : (promote s).pa = s.pa := by
  unfold promote; split
  · rfl
  · simp only; split <;> simp

@[simp] theorem promote_ts  (s : State) : (promote s).ts = s.ts := by
  unfold promote; split
  · rfl
  · simp only; split <;> simp

@[simp] theorem promote_tli_addr  (s : State) : (promote s).tli.addr = s.tli.addr := by
  unfold promote; split
  · rfl
  · simp only; split <;> simp

@[simp] theorem promote_tli_kind  (s : State) : (promote s).tli.kind = s.tli.kind := by
  unfold promote; split
  · rfl
  · simp only; split <;> simp

@[simp] theorem promote_tli_clash  (s : State) : (promote s).tli.clash = s.tli.clash := by
  unfold promote; split
  · rfl
  · simp only; split <;> simp

@[simp] theorem endOrder_pending (r : ReportOutcome) (a p : Bool) (s : State) : (endOrder r a p s).pending = s.pending := by
  unfold endOrder; split
  · rfl
  · simp only; repeat' split
    all_goals simp

@[simp] theorem endOrder_ov (r : ReportOutcome) (a p : Bool) (s : State) : (endOrder r a p s).ov = s.ov := by
  unfold endOrder; split
  · rfl
  · simp only; repeat' split
    all_goals simp

@[simp] theorem endOrder_sv (r : ReportOutcome) (a p : Bool) (s : State) : (endOrder r a p s).sv = s.sv := by
  unfold endOrder; split
  · rfl
  · simp only; repeat' split
    all_goals simp

@[simp] theorem endOrder_pa (r : ReportOutcome) (a p : Bool) (s : State) : (endOrder r a p s).pa = s.pa := by
  unfold endOrder; split
  · rfl
  · simp only; repeat' split
    all_goals simp

@[simp] theorem endOrder_ts (r : ReportOutcome) (a p : Bool) (s : State) : (endOrder r a p s).ts = s.ts := by
  unfold endOrder; split
  · rfl
  · simp only; repeat' split
    all_goals simp

@[simp] theorem endOrder_tli_addr (r : ReportOutcome) (a p : Bool) (s : State) : (endOrder r a p s).tli.addr = s.tli.addr := by
  unfold endOrder; split
  · rfl
  · simp only; repeat' split
    all_goals simp

@[simp] theorem endOrder_tli_kind (r : ReportOutcome) (a p : Bool) (s : State) : (endOrder r a p s).tli.kind = s.tli.kind := by
  unfold endOrder; split
  · rfl
  · simp only; repeat' split
    all_goals simp

@[simp] theorem endOrder_tli_clash (r : ReportOutcome) (a p : Bool) (s : State) : (endOrder r a p s).tli.clash = s.tli.clash := by
  unfold endOrder; split
  · rfl
  · simp only; repeat' split
    all_goals simp

@[simp] theorem dockDone_pending  (s : State) : (dockDone s).pending = s.pending := by
  simp [dockDone]

@[simp] theorem dockDone_ov  (s : State) : (dockDone s).ov = s.ov := by
  simp [dockDone]

@[simp] theorem dockDone_sv  (s : State) : (dockDone s).sv = s.sv := by
  simp [dockDone]

@[simp] theorem dockDone_pa  (s : State) : (dockDone s).pa = s.pa := by
  simp [dockDone]

@[simp] theorem dockDone_ts  (s : State) : (dockDone s).ts = s.ts := by
  simp [dockDone]

@[simp] theorem dockDone_tli_addr  (s : State) : (dockDone s).tli.addr = s.tli.addr := by
  simp [dockDone]

@[simp] theorem dockDone_tli_kind  (s : State) : (dockDone s).tli.kind = s.tli.kind := by
  simp [dockDone]

@[simp] theorem dockDone_tli_clash  (s : State) : (dockDone s).tli.clash = s.tli.clash := by
  simp [dockDone]

@[simp] theorem startDocking_pending  (s : State) : (startDocking s).pending = s.pending := by
  unfold startDocking; simp only; split <;> simp

@[simp] theorem startDocking_ov  (s : State) : (startDocking s).ov = s.ov := by
  unfold startDocking; simp only; split <;> simp

@[simp] theorem startDocking_sv  (s : State) : (startDocking s).sv = s.sv := by
  unfold startDocking; simp only; split <;> simp

@[simp] theorem startDocking_pa  (s : State) : (startDocking s).pa = s.pa := by
  unfold startDocking; simp only; split <;> simp

@[simp] theorem startDocking_ts  (s : State) : (startDocking s).ts = s.ts := by
  unfold startDocking; simp only; split <;> simp

@[simp] theorem startDocking_tli_addr  (s : State) : (startDocking s).tli.addr = s.tli.addr := by
  unfold startDocking; simp only; split <;> simp

@[simp] theorem startDocking_tli_kind  (s : State) : (startDocking s).tli.kind = s.tli.kind := by
  unfold startDocking; simp only; split <;> simp

@[simp] theorem startDocking_tli_clash  (s : State) : (startDocking s).tli.clash = s.tli.clash := by
  unfold startDocking; simp only; split <;> simp

@[simp] theorem undockDone_pending  (s : State) : (undockDone s).pending = s.pending := by
  unfold undockDone; split <;> simp

@[simp] theorem undockDone_ov  (s : State) : (undockDone s).ov = s.ov := by
  unfold undockDone; split <;> simp

@[simp] theorem undockDone_sv  (s : State) : (undockDone s).sv = s.sv := by
  unfold undockDone; split <;> simp

@[simp] theorem undockDone_pa  (s : State) : (undockDone s).pa = s.pa := by
  unfold undockDone; split <;> simp

@[simp] theorem undockDone_ts  (s : State) : (undockDone s).ts = s.ts := by
  unfold undockDone; split <;> simp

@[simp] theorem undockDone_tli_addr  (s : State) : (undockDone s).tli.addr = s.tli.addr := by
  unfold undockDone; split <;> simp

@[simp] theorem undockDone_tli_kind  (s : State) : (undockDone s).tli.kind = s.tli.kind := by
  unfold undockDone; split <;> simp

@[simp] theorem undockDone_tli_clash  (s : State) : (undockDone s).tli.clash = s.tli.clash := by
  unfold undockDone; split <;> simp

@[simp] theorem alignmentCheck_pending  (s : State) : (alignmentCheck s).pending = s.pending := by
  unfold alignmentCheck; repeat' split
  all_goals simp

@[simp] theorem alignmentCheck_ov  (s : State) : (alignmentCheck s).ov = s.ov := by
  unfold alignmentCheck; repeat' split
  all_goals simp

@[simp] theorem alignmentCheck_sv  (s : State) : (alignmentCheck s).sv = s.sv := by
  unfold alignmentCheck; repeat' split
  all_goals simp

@[simp] theorem alignmentCheck_pa  (s : State) : (alignmentCheck s).pa = s.pa := by
  unfold alignmentCheck; repeat' split
  all_goals simp

@[simp] theorem alignmentCheck_ts  (s : State) : (alignmentCheck s).ts = s.ts := by
  unfold alignmentCheck; repeat' split
  all_goals simp

@[simp] theorem alignmentCheck_tli_addr  (s : State) : (alignmentCheck s).tli.addr = s.tli.addr := by
  unfold alignmentCheck; repeat' split
  all_goals simp

@[simp] theorem alignmentCheck_tli_kind  (s : State) : (alignmentCheck s).tli.kind = s.tli.kind := by
  unfold alignmentCheck; repeat' split
  all_goals simp

@[simp] theorem alignmentCheck_tli_clash  (s : State) : (alignmentCheck s).tli.clash = s.tli.clash := by
  unfold alignmentCheck; repeat' split
  all_goals simp

@[simp] theorem restEvent_pending  (s : State) : (restEvent s).pending = s.pending := by
  unfold restEvent; simp only; repeat' split
  all_goals simp

@[simp] theorem restEvent_ov  (s : State) : (restEvent s).ov = s.ov := by
  unfold restEvent; simp only; repeat' split
  all_goals simp

@[simp] theorem restEvent_sv  (s : State) : (restEvent s).sv = s.sv := by
  unfold restEvent; simp only; repeat' split
  all_goals simp

@[simp] theorem restEvent_pa  (s : State) : (restEvent s).pa = s.pa := by
  unfold restEvent; simp only; repeat' split
  all_goals simp

@[simp] theorem restEvent_ts  (s : State) : (restEvent s).ts = s.ts := by
  unfold restEvent; simp only; repeat' split
  all_goals simp

@[simp] theorem restEvent_tli_addr  (s : State) : (restEvent s).tli.addr = s.tli.addr := by
  unfold restEvent; simp only; repeat' split
  all_goals simp

@[simp] theorem restEvent_tli_kind  (s : State) : (restEvent s).tli.kind = s.tli.kind := by
  unfold restEvent; simp only; repeat' split
  all_goals simp

@[simp] theorem restEvent_tli_clash  (s : State) : (restEvent s).tli.clash = s.tli.clash := by
  unfold restEvent; simp only; repeat' split
  all_goals simp

@[simp] theorem routeBlocked_pending  (s : State) : (routeBlocked s).pending = s.pending := by
  unfold routeBlocked; split
  · rfl
  · simp only; split <;> simp

@[simp] theorem routeBlocked_ov  (s : State) : (routeBlocked s).ov = s.ov := by
  unfold routeBlocked; split
  · rfl
  · simp only; split <;> simp

@[simp] theorem routeBlocked_sv  (s : State) : (routeBlocked s).sv = s.sv := by
  unfold routeBlocked; split
  · rfl
  · simp only; split <;> simp

@[simp] theorem routeBlocked_pa  (s : State) : (routeBlocked s).pa = s.pa := by
  unfold routeBlocked; split
  · rfl
  · simp only; split <;> simp

@[simp] theorem routeBlocked_ts  (s : State) : (routeBlocked s).ts = s.ts := by
  unfold routeBlocked; split
  · rfl
  · simp only; split <;> simp

@[simp] theorem routeBlocked_tli_addr  (s : State) : (routeBlocked s).tli.addr = s.tli.addr := by
  unfold routeBlocked; split
  · rfl
  · simp only; split <;> simp

@[simp] theorem routeBlocked_tli_kind  (s : State) : (routeBlocked s).tli.kind = s.tli.kind := by
  unfold routeBlocked; split
  · rfl
  · simp only; split <;> simp

@[simp] theorem routeBlocked_tli_clash  (s : State) : (routeBlocked s).tli.clash = s.tli.clash := by
  unfold routeBlocked; split
  · rfl
  · simp only; split <;> simp

@[simp] theorem countAttempt_pending (r : AbortReason) (n : Nat) (s : State) : (countAttempt r n s).pending = s.pending := by
  unfold countAttempt; dsimp only; split <;> split <;> simp

@[simp] theorem countAttempt_ov (r : AbortReason) (n : Nat) (s : State) : (countAttempt r n s).ov = s.ov := by
  unfold countAttempt; dsimp only; split <;> split <;> simp

@[simp] theorem countAttempt_sv (r : AbortReason) (n : Nat) (s : State) : (countAttempt r n s).sv = s.sv := by
  unfold countAttempt; dsimp only; split <;> split <;> simp

@[simp] theorem countAttempt_pa (r : AbortReason) (n : Nat) (s : State) : (countAttempt r n s).pa = s.pa := by
  unfold countAttempt; dsimp only; split <;> split <;> simp

@[simp] theorem countAttempt_ts (r : AbortReason) (n : Nat) (s : State) : (countAttempt r n s).ts = s.ts := by
  unfold countAttempt; dsimp only; split <;> split <;> simp

@[simp] theorem countAttempt_tli_addr (r : AbortReason) (n : Nat) (s : State) : (countAttempt r n s).tli.addr = s.tli.addr := by
  unfold countAttempt; dsimp only; split <;> split <;> simp

@[simp] theorem countAttempt_tli_kind (r : AbortReason) (n : Nat) (s : State) : (countAttempt r n s).tli.kind = s.tli.kind := by
  unfold countAttempt; dsimp only; split <;> split <;> simp

@[simp] theorem countAttempt_tli_clash (r : AbortReason) (n : Nat) (s : State) : (countAttempt r n s).tli.clash = s.tli.clash := by
  unfold countAttempt; dsimp only; split <;> split <;> simp

@[simp] theorem spanAbort_pending (r : AbortReason) (g : Seg) (v : Addr) (s : State) : (spanAbort r g v s).pending = s.pending := by
  unfold spanAbort; split
  · rfl
  · simp only; split <;> simp

@[simp] theorem spanAbort_ov (r : AbortReason) (g : Seg) (v : Addr) (s : State) : (spanAbort r g v s).ov = s.ov := by
  unfold spanAbort; split
  · rfl
  · simp only; split <;> simp

@[simp] theorem spanAbort_sv (r : AbortReason) (g : Seg) (v : Addr) (s : State) : (spanAbort r g v s).sv = s.sv := by
  unfold spanAbort; split
  · rfl
  · simp only; split <;> simp

@[simp] theorem spanAbort_pa (r : AbortReason) (g : Seg) (v : Addr) (s : State) : (spanAbort r g v s).pa = s.pa := by
  unfold spanAbort; split
  · rfl
  · simp only; split <;> simp

@[simp] theorem spanAbort_ts (r : AbortReason) (g : Seg) (v : Addr) (s : State) : (spanAbort r g v s).ts = s.ts := by
  unfold spanAbort; split
  · rfl
  · simp only; split <;> simp

@[simp] theorem spanAbort_tli_addr (r : AbortReason) (g : Seg) (v : Addr) (s : State) : (spanAbort r g v s).tli.addr = s.tli.addr := by
  unfold spanAbort; split
  · rfl
  · simp only; split <;> simp

@[simp] theorem spanAbort_tli_kind (r : AbortReason) (g : Seg) (v : Addr) (s : State) : (spanAbort r g v s).tli.kind = s.tli.kind := by
  unfold spanAbort; split
  · rfl
  · simp only; split <;> simp

@[simp] theorem spanAbort_tli_clash (r : AbortReason) (g : Seg) (v : Addr) (s : State) : (spanAbort r g v s).tli.clash = s.tli.clash := by
  unfold spanAbort; split
  · rfl
  · simp only; split <;> simp

@[simp] theorem takeLocation_pending (h : HeldLoc) (s : State) : (takeLocation h s).pending = s.pending := by
  unfold takeLocation
  simp only [inputFaults_pending]
  have inner (e : OwnClaim) (l : List ClaimEntry) (t : State) (ht : t.pending = s.pending) :
      (l.foldl (fun u c => raiseClash c.holder e.seg u) t).pending = s.pending := by
    induction l generalizing t with
    | nil => exact ht
    | cons a l ih => exact ih _ (by simpa using ht)
  have outer (own : List OwnClaim) (g : OwnClaim → List ClaimEntry) (t : State) (ht : t.pending = s.pending) :
      (own.foldl (fun t e => (g e).foldl (fun u c => raiseClash c.holder e.seg u) t) t).pending = s.pending := by
    induction own generalizing t with
    | nil => exact ht
    | cons a own ih => exact ih _ (inner a _ t ht)
  exact outer _ _ _ (by simp)

@[simp] theorem takeLocation_ov (h : HeldLoc) (s : State) : (takeLocation h s).ov = s.ov := by
  unfold takeLocation
  simp only [inputFaults_ov]
  have inner (e : OwnClaim) (l : List ClaimEntry) (t : State) (ht : t.ov = s.ov) :
      (l.foldl (fun u c => raiseClash c.holder e.seg u) t).ov = s.ov := by
    induction l generalizing t with
    | nil => exact ht
    | cons a l ih => exact ih _ (by simpa using ht)
  have outer (own : List OwnClaim) (g : OwnClaim → List ClaimEntry) (t : State) (ht : t.ov = s.ov) :
      (own.foldl (fun t e => (g e).foldl (fun u c => raiseClash c.holder e.seg u) t) t).ov = s.ov := by
    induction own generalizing t with
    | nil => exact ht
    | cons a own ih => exact ih _ (inner a _ t ht)
  exact outer _ _ _ (by simp)

@[simp] theorem takeLocation_sv (h : HeldLoc) (s : State) : (takeLocation h s).sv = s.sv := by
  unfold takeLocation
  simp only [inputFaults_sv]
  have inner (e : OwnClaim) (l : List ClaimEntry) (t : State) (ht : t.sv = s.sv) :
      (l.foldl (fun u c => raiseClash c.holder e.seg u) t).sv = s.sv := by
    induction l generalizing t with
    | nil => exact ht
    | cons a l ih => exact ih _ (by simpa using ht)
  have outer (own : List OwnClaim) (g : OwnClaim → List ClaimEntry) (t : State) (ht : t.sv = s.sv) :
      (own.foldl (fun t e => (g e).foldl (fun u c => raiseClash c.holder e.seg u) t) t).sv = s.sv := by
    induction own generalizing t with
    | nil => exact ht
    | cons a own ih => exact ih _ (inner a _ t ht)
  exact outer _ _ _ (by simp)

@[simp] theorem takeLocation_pa (h : HeldLoc) (s : State) : (takeLocation h s).pa = s.pa := by
  unfold takeLocation
  simp only [inputFaults_pa]
  have inner (e : OwnClaim) (l : List ClaimEntry) (t : State) (ht : t.pa = s.pa) :
      (l.foldl (fun u c => raiseClash c.holder e.seg u) t).pa = s.pa := by
    induction l generalizing t with
    | nil => exact ht
    | cons a l ih => exact ih _ (by simpa using ht)
  have outer (own : List OwnClaim) (g : OwnClaim → List ClaimEntry) (t : State) (ht : t.pa = s.pa) :
      (own.foldl (fun t e => (g e).foldl (fun u c => raiseClash c.holder e.seg u) t) t).pa = s.pa := by
    induction own generalizing t with
    | nil => exact ht
    | cons a own ih => exact ih _ (inner a _ t ht)
  exact outer _ _ _ (by simp)

@[simp] theorem takeLocation_ts (h : HeldLoc) (s : State) : (takeLocation h s).ts = s.ts := by
  unfold takeLocation
  simp only [inputFaults_ts]
  have inner (e : OwnClaim) (l : List ClaimEntry) (t : State) (ht : t.ts = s.ts) :
      (l.foldl (fun u c => raiseClash c.holder e.seg u) t).ts = s.ts := by
    induction l generalizing t with
    | nil => exact ht
    | cons a l ih => exact ih _ (by simpa using ht)
  have outer (own : List OwnClaim) (g : OwnClaim → List ClaimEntry) (t : State) (ht : t.ts = s.ts) :
      (own.foldl (fun t e => (g e).foldl (fun u c => raiseClash c.holder e.seg u) t) t).ts = s.ts := by
    induction own generalizing t with
    | nil => exact ht
    | cons a own ih => exact ih _ (inner a _ t ht)
  exact outer _ _ _ (by simp)

@[simp] theorem takeLocation_tli_addr (h : HeldLoc) (s : State) : (takeLocation h s).tli.addr = s.tli.addr := by
  unfold takeLocation
  simp only [inputFaults_tli_addr]
  have inner (e : OwnClaim) (l : List ClaimEntry) (t : State) (ht : t.tli.addr = s.tli.addr) :
      (l.foldl (fun u c => raiseClash c.holder e.seg u) t).tli.addr = s.tli.addr := by
    induction l generalizing t with
    | nil => exact ht
    | cons a l ih => exact ih _ (by simpa using ht)
  have outer (own : List OwnClaim) (g : OwnClaim → List ClaimEntry) (t : State) (ht : t.tli.addr = s.tli.addr) :
      (own.foldl (fun t e => (g e).foldl (fun u c => raiseClash c.holder e.seg u) t) t).tli.addr = s.tli.addr := by
    induction own generalizing t with
    | nil => exact ht
    | cons a own ih => exact ih _ (inner a _ t ht)
  exact outer _ _ _ (by simp)

@[simp] theorem takeLocation_tli_kind (h : HeldLoc) (s : State) : (takeLocation h s).tli.kind = s.tli.kind := by
  unfold takeLocation
  simp only [inputFaults_tli_kind]
  have inner (e : OwnClaim) (l : List ClaimEntry) (t : State) (ht : t.tli.kind = s.tli.kind) :
      (l.foldl (fun u c => raiseClash c.holder e.seg u) t).tli.kind = s.tli.kind := by
    induction l generalizing t with
    | nil => exact ht
    | cons a l ih => exact ih _ (by simpa using ht)
  have outer (own : List OwnClaim) (g : OwnClaim → List ClaimEntry) (t : State) (ht : t.tli.kind = s.tli.kind) :
      (own.foldl (fun t e => (g e).foldl (fun u c => raiseClash c.holder e.seg u) t) t).tli.kind = s.tli.kind := by
    induction own generalizing t with
    | nil => exact ht
    | cons a own ih => exact ih _ (inner a _ t ht)
  exact outer _ _ _ (by simp)

@[simp] theorem takeLocation_tli_clash (h : HeldLoc) (s : State) : (takeLocation h s).tli.clash = s.tli.clash := by
  unfold takeLocation
  simp only [inputFaults_tli_clash]
  have inner (e : OwnClaim) (l : List ClaimEntry) (t : State) (ht : t.tli.clash = s.tli.clash) :
      (l.foldl (fun u c => raiseClash c.holder e.seg u) t).tli.clash = s.tli.clash := by
    induction l generalizing t with
    | nil => exact ht
    | cons a l ih => exact ih _ (by simpa using ht)
  have outer (own : List OwnClaim) (g : OwnClaim → List ClaimEntry) (t : State) (ht : t.tli.clash = s.tli.clash) :
      (own.foldl (fun t e => (g e).foldl (fun u c => raiseClash c.holder e.seg u) t) t).tli.clash = s.tli.clash := by
    induction own generalizing t with
    | nil => exact ht
    | cons a own ih => exact ih _ (inner a _ t ht)
  exact outer _ _ _ (by simp)

@[simp] theorem tryLocate_pending  (s : State) : (tryLocate s).pending = s.pending := by
  unfold tryLocate; split
  · rfl
  · split <;> simp

@[simp] theorem tryLocate_ov  (s : State) : (tryLocate s).ov = s.ov := by
  unfold tryLocate; split
  · rfl
  · split <;> simp

@[simp] theorem tryLocate_sv  (s : State) : (tryLocate s).sv = s.sv := by
  unfold tryLocate; split
  · rfl
  · split <;> simp

@[simp] theorem tryLocate_pa  (s : State) : (tryLocate s).pa = s.pa := by
  unfold tryLocate; split
  · rfl
  · split <;> simp

@[simp] theorem tryLocate_ts  (s : State) : (tryLocate s).ts = s.ts := by
  unfold tryLocate; split
  · rfl
  · split <;> simp

@[simp] theorem tryLocate_tli_addr  (s : State) : (tryLocate s).tli.addr = s.tli.addr := by
  unfold tryLocate; split
  · rfl
  · split <;> simp

@[simp] theorem tryLocate_tli_kind  (s : State) : (tryLocate s).tli.kind = s.tli.kind := by
  unfold tryLocate; split
  · rfl
  · split <;> simp

@[simp] theorem tryLocate_tli_clash  (s : State) : (tryLocate s).tli.clash = s.tli.clash := by
  unfold tryLocate; split
  · rfl
  · split <;> simp

@[simp] theorem setLatch_pending (a : Addr) (r : HaltReason) (s : State) : (setLatch a r s).pending = s.pending := by
  unfold setLatch; split
  · rfl
  · simp only; split <;> simp

@[simp] theorem setLatch_ov (a : Addr) (r : HaltReason) (s : State) : (setLatch a r s).ov = s.ov := by
  unfold setLatch; split
  · rfl
  · simp only; split <;> simp

@[simp] theorem setLatch_sv (a : Addr) (r : HaltReason) (s : State) : (setLatch a r s).sv = s.sv := by
  unfold setLatch; split
  · rfl
  · simp only; split <;> simp

@[simp] theorem setLatch_pa (a : Addr) (r : HaltReason) (s : State) : (setLatch a r s).pa = s.pa := by
  unfold setLatch; split
  · rfl
  · simp only; split <;> simp

@[simp] theorem setLatch_ts (a : Addr) (r : HaltReason) (s : State) : (setLatch a r s).ts = s.ts := by
  unfold setLatch; split
  · rfl
  · simp only; split <;> simp

@[simp] theorem setLatch_tli_addr (a : Addr) (r : HaltReason) (s : State) : (setLatch a r s).tli.addr = s.tli.addr := by
  unfold setLatch; split
  · rfl
  · simp only; split <;> simp

@[simp] theorem setLatch_tli_kind (a : Addr) (r : HaltReason) (s : State) : (setLatch a r s).tli.kind = s.tli.kind := by
  unfold setLatch; split
  · rfl
  · simp only; split <;> simp

@[simp] theorem setLatch_tli_clash (a : Addr) (r : HaltReason) (s : State) : (setLatch a r s).tli.clash = s.tli.clash := by
  unfold setLatch; split
  · rfl
  · simp only; split <;> simp

end Sys2Proof.Machine
end

