-- ==== Sys2Proof/Laws/Arrivals.lean ====
section
/-! SUPPORT. What the points node's shared operations leave alone, and what the handling of an arriving frame leaves alone. -/

namespace Sys2Proof.Machine

open Sys2Proof

/-! ## Notices, faults, serving -/

@[simp] theorem queuePoints_pending  (s : State) : (queuePoints s).pending = s.pending := by
  simp [queuePoints]

@[simp] theorem queuePoints_os  (s : State) : (queuePoints s).os = s.os := by
  simp [queuePoints]

@[simp] theorem queuePoints_ov  (s : State) : (queuePoints s).ov = s.ov := by
  simp [queuePoints]

@[simp] theorem queuePoints_pu  (s : State) : (queuePoints s).pu = s.pu := by
  simp [queuePoints]

@[simp] theorem queuePoints_eu  (s : State) : (queuePoints s).eu = s.eu := by
  simp [queuePoints]

@[simp] theorem queuePoints_cr  (s : State) : (queuePoints s).cr = s.cr := by
  simp [queuePoints]

@[simp] theorem queuePoints_ds  (s : State) : (queuePoints s).ds = s.ds := by
  simp [queuePoints]

@[simp] theorem queuePoints_cs  (s : State) : (queuePoints s).cs = s.cs := by
  simp [queuePoints]

@[simp] theorem queuePoints_tli_addr  (s : State) : (queuePoints s).tli.addr = s.tli.addr := by
  simp [queuePoints]

@[simp] theorem queuePoints_tli_kind  (s : State) : (queuePoints s).tli.kind = s.tli.kind := by
  simp [queuePoints]

@[simp] theorem queuePoints_tli_inbound  (s : State) : (queuePoints s).tli.inbound = s.tli.inbound := by
  simp [queuePoints]

@[simp] theorem queuePoints_tli_clash  (s : State) : (queuePoints s).tli.clash = s.tli.clash := by
  simp [queuePoints]

@[simp] theorem queuePoints_sv  (s : State) : (queuePoints s).sv = s.sv := by
  simp [queuePoints]

@[simp] theorem queuePoints_pa  (s : State) : (queuePoints s).pa = s.pa := by
  simp [queuePoints]

@[simp] theorem queuePoints_ts  (s : State) : (queuePoints s).ts = s.ts := by
  simp [queuePoints]

@[simp] theorem queuePoints_ce_own  (s : State) : (queuePoints s).ce.own = s.ce.own := by
  simp [queuePoints]

@[simp] theorem noticeIfChanged_pending (b : State) (s : State) : (noticeIfChanged b s).pending = s.pending := by
  unfold noticeIfChanged; split <;> simp

@[simp] theorem noticeIfChanged_os (b : State) (s : State) : (noticeIfChanged b s).os = s.os := by
  unfold noticeIfChanged; split <;> simp

@[simp] theorem noticeIfChanged_ov (b : State) (s : State) : (noticeIfChanged b s).ov = s.ov := by
  unfold noticeIfChanged; split <;> simp

@[simp] theorem noticeIfChanged_pu (b : State) (s : State) : (noticeIfChanged b s).pu = s.pu := by
  unfold noticeIfChanged; split <;> simp

@[simp] theorem noticeIfChanged_eu (b : State) (s : State) : (noticeIfChanged b s).eu = s.eu := by
  unfold noticeIfChanged; split <;> simp

@[simp] theorem noticeIfChanged_cr (b : State) (s : State) : (noticeIfChanged b s).cr = s.cr := by
  unfold noticeIfChanged; split <;> simp

@[simp] theorem noticeIfChanged_ds (b : State) (s : State) : (noticeIfChanged b s).ds = s.ds := by
  unfold noticeIfChanged; split <;> simp

@[simp] theorem noticeIfChanged_cs (b : State) (s : State) : (noticeIfChanged b s).cs = s.cs := by
  unfold noticeIfChanged; split <;> simp

@[simp] theorem noticeIfChanged_tli_addr (b : State) (s : State) : (noticeIfChanged b s).tli.addr = s.tli.addr := by
  unfold noticeIfChanged; split <;> simp

@[simp] theorem noticeIfChanged_tli_kind (b : State) (s : State) : (noticeIfChanged b s).tli.kind = s.tli.kind := by
  unfold noticeIfChanged; split <;> simp

@[simp] theorem noticeIfChanged_tli_inbound (b : State) (s : State) : (noticeIfChanged b s).tli.inbound = s.tli.inbound := by
  unfold noticeIfChanged; split <;> simp

@[simp] theorem noticeIfChanged_tli_clash (b : State) (s : State) : (noticeIfChanged b s).tli.clash = s.tli.clash := by
  unfold noticeIfChanged; split <;> simp

@[simp] theorem noticeIfChanged_sv (b : State) (s : State) : (noticeIfChanged b s).sv = s.sv := by
  unfold noticeIfChanged; split <;> simp

@[simp] theorem noticeIfChanged_pa (b : State) (s : State) : (noticeIfChanged b s).pa = s.pa := by
  unfold noticeIfChanged; split <;> simp

@[simp] theorem noticeIfChanged_ts (b : State) (s : State) : (noticeIfChanged b s).ts = s.ts := by
  unfold noticeIfChanged; split <;> simp

@[simp] theorem answer_pending (x : Addr) (c : AnswerCode) (s : State) : (answer x c s).pending = s.pending := by
  simp [answer]

@[simp] theorem answer_os (x : Addr) (c : AnswerCode) (s : State) : (answer x c s).os = s.os := by
  simp [answer]

@[simp] theorem answer_ov (x : Addr) (c : AnswerCode) (s : State) : (answer x c s).ov = s.ov := by
  simp [answer]

@[simp] theorem answer_pu (x : Addr) (c : AnswerCode) (s : State) : (answer x c s).pu = s.pu := by
  simp [answer]

@[simp] theorem answer_eu (x : Addr) (c : AnswerCode) (s : State) : (answer x c s).eu = s.eu := by
  simp [answer]

@[simp] theorem answer_cr (x : Addr) (c : AnswerCode) (s : State) : (answer x c s).cr = s.cr := by
  simp [answer]

@[simp] theorem answer_ds (x : Addr) (c : AnswerCode) (s : State) : (answer x c s).ds = s.ds := by
  simp [answer]

@[simp] theorem answer_cs (x : Addr) (c : AnswerCode) (s : State) : (answer x c s).cs = s.cs := by
  simp [answer]

@[simp] theorem answer_tli_addr (x : Addr) (c : AnswerCode) (s : State) : (answer x c s).tli.addr = s.tli.addr := by
  simp [answer]

@[simp] theorem answer_tli_kind (x : Addr) (c : AnswerCode) (s : State) : (answer x c s).tli.kind = s.tli.kind := by
  simp [answer]

@[simp] theorem answer_tli_inbound (x : Addr) (c : AnswerCode) (s : State) : (answer x c s).tli.inbound = s.tli.inbound := by
  simp [answer]

@[simp] theorem answer_tli_clash (x : Addr) (c : AnswerCode) (s : State) : (answer x c s).tli.clash = s.tli.clash := by
  simp [answer]

@[simp] theorem answer_sv (x : Addr) (c : AnswerCode) (s : State) : (answer x c s).sv = s.sv := by
  simp [answer]

@[simp] theorem answer_ts (x : Addr) (c : AnswerCode) (s : State) : (answer x c s).ts = s.ts := by
  simp [answer]

@[simp] theorem answer_pa_queue (x : Addr) (c : AnswerCode) (s : State) : (answer x c s).pa.queue = s.pa.queue := by
  simp [answer]

@[simp] theorem answer_pa_grant (x : Addr) (c : AnswerCode) (s : State) : (answer x c s).pa.grant = s.pa.grant := by
  simp [answer]

@[simp] theorem answer_pa_comm (x : Addr) (c : AnswerCode) (s : State) : (answer x c s).pa.comm = s.pa.comm := by
  simp [answer]

@[simp] theorem answer_pa_latch (x : Addr) (c : AnswerCode) (s : State) : (answer x c s).pa.latch = s.pa.latch := by
  simp [answer]

@[simp] theorem answer_pa_fault (x : Addr) (c : AnswerCode) (s : State) : (answer x c s).pa.fault = s.pa.fault := by
  simp [answer]

@[simp] theorem raisePoints_pending (c : FaultCode) (s : State) : (raisePoints c s).pending = s.pending := by
  simp [raisePoints]

@[simp] theorem raisePoints_os (c : FaultCode) (s : State) : (raisePoints c s).os = s.os := by
  simp [raisePoints]

@[simp] theorem raisePoints_ov (c : FaultCode) (s : State) : (raisePoints c s).ov = s.ov := by
  simp [raisePoints]

@[simp] theorem raisePoints_pu (c : FaultCode) (s : State) : (raisePoints c s).pu = s.pu := by
  simp [raisePoints]

@[simp] theorem raisePoints_eu (c : FaultCode) (s : State) : (raisePoints c s).eu = s.eu := by
  simp [raisePoints]

@[simp] theorem raisePoints_cr (c : FaultCode) (s : State) : (raisePoints c s).cr = s.cr := by
  simp [raisePoints]

@[simp] theorem raisePoints_ds (c : FaultCode) (s : State) : (raisePoints c s).ds = s.ds := by
  simp [raisePoints]

@[simp] theorem raisePoints_cs (c : FaultCode) (s : State) : (raisePoints c s).cs = s.cs := by
  simp [raisePoints]

@[simp] theorem raisePoints_tli_addr (c : FaultCode) (s : State) : (raisePoints c s).tli.addr = s.tli.addr := by
  simp [raisePoints]

@[simp] theorem raisePoints_tli_kind (c : FaultCode) (s : State) : (raisePoints c s).tli.kind = s.tli.kind := by
  simp [raisePoints]

@[simp] theorem raisePoints_tli_inbound (c : FaultCode) (s : State) : (raisePoints c s).tli.inbound = s.tli.inbound := by
  simp [raisePoints]

@[simp] theorem raisePoints_tli_clash (c : FaultCode) (s : State) : (raisePoints c s).tli.clash = s.tli.clash := by
  simp [raisePoints]

@[simp] theorem raisePoints_sv (c : FaultCode) (s : State) : (raisePoints c s).sv = s.sv := by
  simp [raisePoints]

@[simp] theorem raisePoints_ts (c : FaultCode) (s : State) : (raisePoints c s).ts = s.ts := by
  simp [raisePoints]

@[simp] theorem raisePoints_pa_queue (c : FaultCode) (s : State) : (raisePoints c s).pa.queue = s.pa.queue := by
  simp [raisePoints]

@[simp] theorem raisePoints_pa_grant (c : FaultCode) (s : State) : (raisePoints c s).pa.grant = s.pa.grant := by
  simp [raisePoints]

@[simp] theorem raisePoints_pa_comm (c : FaultCode) (s : State) : (raisePoints c s).pa.comm = s.pa.comm := by
  simp [raisePoints]

@[simp] theorem raisePoints_pa_latch (c : FaultCode) (s : State) : (raisePoints c s).pa.latch = s.pa.latch := by
  simp [raisePoints]

@[simp] theorem raisePoints_pa_lastAnswer (c : FaultCode) (s : State) : (raisePoints c s).pa.lastAnswer = s.pa.lastAnswer := by
  simp [raisePoints]

@[simp] theorem pointsFail_pending  (s : State) : (pointsFail s).pending = s.pending := by
  simp [pointsFail]

@[simp] theorem pointsFail_os  (s : State) : (pointsFail s).os = s.os := by
  simp [pointsFail]

@[simp] theorem pointsFail_ov  (s : State) : (pointsFail s).ov = s.ov := by
  simp [pointsFail]

@[simp] theorem pointsFail_pu  (s : State) : (pointsFail s).pu = s.pu := by
  simp [pointsFail]

@[simp] theorem pointsFail_eu  (s : State) : (pointsFail s).eu = s.eu := by
  simp [pointsFail]

@[simp] theorem pointsFail_cr  (s : State) : (pointsFail s).cr = s.cr := by
  simp [pointsFail]

@[simp] theorem pointsFail_ds  (s : State) : (pointsFail s).ds = s.ds := by
  simp [pointsFail]

@[simp] theorem pointsFail_cs  (s : State) : (pointsFail s).cs = s.cs := by
  simp [pointsFail]

@[simp] theorem pointsFail_tli_addr  (s : State) : (pointsFail s).tli.addr = s.tli.addr := by
  simp [pointsFail]

@[simp] theorem pointsFail_tli_kind  (s : State) : (pointsFail s).tli.kind = s.tli.kind := by
  simp [pointsFail]

@[simp] theorem pointsFail_tli_inbound  (s : State) : (pointsFail s).tli.inbound = s.tli.inbound := by
  simp [pointsFail]

@[simp] theorem pointsFail_tli_clash  (s : State) : (pointsFail s).tli.clash = s.tli.clash := by
  simp [pointsFail]

@[simp] theorem pointsFail_tli  (s : State) : (pointsFail s).tli = s.tli := by
  simp [pointsFail]

@[simp] theorem pointsFail_ce  (s : State) : (pointsFail s).ce = s.ce := by
  simp [pointsFail]

@[simp] theorem pointsFail_sv  (s : State) : (pointsFail s).sv = s.sv := by
  simp [pointsFail]

@[simp] theorem pointsFail_pa_comm  (s : State) : (pointsFail s).pa.comm = s.pa.comm := by
  simp [pointsFail]

@[simp] theorem pointsFail_pa_latch  (s : State) : (pointsFail s).pa.latch = s.pa.latch := by
  simp [pointsFail]

@[simp] theorem pointsFail_pa_lastAnswer  (s : State) : (pointsFail s).pa.lastAnswer = s.pa.lastAnswer := by
  simp [pointsFail]

@[simp] theorem pointsFail_pa_fault  (s : State) : (pointsFail s).pa.fault = s.pa.fault := by
  simp [pointsFail]

@[simp] theorem lockAt_pending (p : PointsPos) (s : State) : (lockAt p s).pending = s.pending := by
  simp [lockAt]

@[simp] theorem lockAt_os (p : PointsPos) (s : State) : (lockAt p s).os = s.os := by
  simp [lockAt]

@[simp] theorem lockAt_ov (p : PointsPos) (s : State) : (lockAt p s).ov = s.ov := by
  simp [lockAt]

@[simp] theorem lockAt_pu (p : PointsPos) (s : State) : (lockAt p s).pu = s.pu := by
  simp [lockAt]

@[simp] theorem lockAt_eu (p : PointsPos) (s : State) : (lockAt p s).eu = s.eu := by
  simp [lockAt]

@[simp] theorem lockAt_cr (p : PointsPos) (s : State) : (lockAt p s).cr = s.cr := by
  simp [lockAt]

@[simp] theorem lockAt_ds (p : PointsPos) (s : State) : (lockAt p s).ds = s.ds := by
  simp [lockAt]

@[simp] theorem lockAt_cs (p : PointsPos) (s : State) : (lockAt p s).cs = s.cs := by
  simp [lockAt]

@[simp] theorem lockAt_tli_addr (p : PointsPos) (s : State) : (lockAt p s).tli.addr = s.tli.addr := by
  simp [lockAt]

@[simp] theorem lockAt_tli_kind (p : PointsPos) (s : State) : (lockAt p s).tli.kind = s.tli.kind := by
  simp [lockAt]

@[simp] theorem lockAt_tli_inbound (p : PointsPos) (s : State) : (lockAt p s).tli.inbound = s.tli.inbound := by
  simp [lockAt]

@[simp] theorem lockAt_tli_clash (p : PointsPos) (s : State) : (lockAt p s).tli.clash = s.tli.clash := by
  simp [lockAt]

@[simp] theorem lockAt_tli (p : PointsPos) (s : State) : (lockAt p s).tli = s.tli := by
  simp [lockAt]

@[simp] theorem lockAt_ce (p : PointsPos) (s : State) : (lockAt p s).ce = s.ce := by
  simp [lockAt]

@[simp] theorem lockAt_sv (p : PointsPos) (s : State) : (lockAt p s).sv = s.sv := by
  simp [lockAt]

@[simp] theorem lockAt_pa (p : PointsPos) (s : State) : (lockAt p s).pa = s.pa := by
  simp [lockAt]

@[simp] theorem grantHead_pending (h : AskEntry) (r : List AskEntry) (s : State) : (grantHead h r s).pending = s.pending := by
  simp [grantHead]

@[simp] theorem grantHead_os (h : AskEntry) (r : List AskEntry) (s : State) : (grantHead h r s).os = s.os := by
  simp [grantHead]

@[simp] theorem grantHead_ov (h : AskEntry) (r : List AskEntry) (s : State) : (grantHead h r s).ov = s.ov := by
  simp [grantHead]

@[simp] theorem grantHead_pu (h : AskEntry) (r : List AskEntry) (s : State) : (grantHead h r s).pu = s.pu := by
  simp [grantHead]

@[simp] theorem grantHead_eu (h : AskEntry) (r : List AskEntry) (s : State) : (grantHead h r s).eu = s.eu := by
  simp [grantHead]

@[simp] theorem grantHead_cr (h : AskEntry) (r : List AskEntry) (s : State) : (grantHead h r s).cr = s.cr := by
  simp [grantHead]

@[simp] theorem grantHead_ds (h : AskEntry) (r : List AskEntry) (s : State) : (grantHead h r s).ds = s.ds := by
  simp [grantHead]

@[simp] theorem grantHead_cs (h : AskEntry) (r : List AskEntry) (s : State) : (grantHead h r s).cs = s.cs := by
  simp [grantHead]

@[simp] theorem grantHead_tli_addr (h : AskEntry) (r : List AskEntry) (s : State) : (grantHead h r s).tli.addr = s.tli.addr := by
  simp [grantHead]

@[simp] theorem grantHead_tli_kind (h : AskEntry) (r : List AskEntry) (s : State) : (grantHead h r s).tli.kind = s.tli.kind := by
  simp [grantHead]

@[simp] theorem grantHead_tli_inbound (h : AskEntry) (r : List AskEntry) (s : State) : (grantHead h r s).tli.inbound = s.tli.inbound := by
  simp [grantHead]

@[simp] theorem grantHead_tli_clash (h : AskEntry) (r : List AskEntry) (s : State) : (grantHead h r s).tli.clash = s.tli.clash := by
  simp [grantHead]

@[simp] theorem grantHead_tli (h : AskEntry) (r : List AskEntry) (s : State) : (grantHead h r s).tli = s.tli := by
  simp [grantHead]

@[simp] theorem grantHead_ce (h : AskEntry) (r : List AskEntry) (s : State) : (grantHead h r s).ce = s.ce := by
  simp [grantHead]

@[simp] theorem grantHead_sv (h : AskEntry) (r : List AskEntry) (s : State) : (grantHead h r s).sv = s.sv := by
  simp [grantHead]

@[simp] theorem grantHead_ts (h : AskEntry) (r : List AskEntry) (s : State) : (grantHead h r s).ts = s.ts := by
  simp [grantHead]

@[simp] theorem beginThrow_pending (p q : PointsPos) (s : State) : (beginThrow p q s).pending = s.pending := by
  simp [beginThrow]

@[simp] theorem beginThrow_os (p q : PointsPos) (s : State) : (beginThrow p q s).os = s.os := by
  simp [beginThrow]

@[simp] theorem beginThrow_ov (p q : PointsPos) (s : State) : (beginThrow p q s).ov = s.ov := by
  simp [beginThrow]

@[simp] theorem beginThrow_pu (p q : PointsPos) (s : State) : (beginThrow p q s).pu = s.pu := by
  simp [beginThrow]

@[simp] theorem beginThrow_eu (p q : PointsPos) (s : State) : (beginThrow p q s).eu = s.eu := by
  simp [beginThrow]

@[simp] theorem beginThrow_cr (p q : PointsPos) (s : State) : (beginThrow p q s).cr = s.cr := by
  simp [beginThrow]

@[simp] theorem beginThrow_ds (p q : PointsPos) (s : State) : (beginThrow p q s).ds = s.ds := by
  simp [beginThrow]

@[simp] theorem beginThrow_cs (p q : PointsPos) (s : State) : (beginThrow p q s).cs = s.cs := by
  simp [beginThrow]

@[simp] theorem beginThrow_tli_addr (p q : PointsPos) (s : State) : (beginThrow p q s).tli.addr = s.tli.addr := by
  simp [beginThrow]

@[simp] theorem beginThrow_tli_kind (p q : PointsPos) (s : State) : (beginThrow p q s).tli.kind = s.tli.kind := by
  simp [beginThrow]

@[simp] theorem beginThrow_tli_inbound (p q : PointsPos) (s : State) : (beginThrow p q s).tli.inbound = s.tli.inbound := by
  simp [beginThrow]

@[simp] theorem beginThrow_tli_clash (p q : PointsPos) (s : State) : (beginThrow p q s).tli.clash = s.tli.clash := by
  simp [beginThrow]

@[simp] theorem beginThrow_tli (p q : PointsPos) (s : State) : (beginThrow p q s).tli = s.tli := by
  simp [beginThrow]

@[simp] theorem beginThrow_ce (p q : PointsPos) (s : State) : (beginThrow p q s).ce = s.ce := by
  simp [beginThrow]

@[simp] theorem beginThrow_sv (p q : PointsPos) (s : State) : (beginThrow p q s).sv = s.sv := by
  simp [beginThrow]

@[simp] theorem beginThrow_pa (p q : PointsPos) (s : State) : (beginThrow p q s).pa = s.pa := by
  simp [beginThrow]

@[simp] theorem serve_pending  (s : State) : (serve s).pending = s.pending := by
  unfold serve; repeat' split
  all_goals simp [grantHead]

@[simp] theorem serve_os  (s : State) : (serve s).os = s.os := by
  unfold serve; repeat' split
  all_goals simp [grantHead]

@[simp] theorem serve_ov  (s : State) : (serve s).ov = s.ov := by
  unfold serve; repeat' split
  all_goals simp [grantHead]

@[simp] theorem serve_pu  (s : State) : (serve s).pu = s.pu := by
  unfold serve; repeat' split
  all_goals simp [grantHead]

@[simp] theorem serve_eu  (s : State) : (serve s).eu = s.eu := by
  unfold serve; repeat' split
  all_goals simp [grantHead]

@[simp] theorem serve_cr  (s : State) : (serve s).cr = s.cr := by
  unfold serve; repeat' split
  all_goals simp [grantHead]

@[simp] theorem serve_ds  (s : State) : (serve s).ds = s.ds := by
  unfold serve; repeat' split
  all_goals simp [grantHead]

@[simp] theorem serve_cs  (s : State) : (serve s).cs = s.cs := by
  unfold serve; repeat' split
  all_goals simp [grantHead]

@[simp] theorem serve_tli_addr  (s : State) : (serve s).tli.addr = s.tli.addr := by
  unfold serve; repeat' split
  all_goals simp [grantHead]

@[simp] theorem serve_tli_kind  (s : State) : (serve s).tli.kind = s.tli.kind := by
  unfold serve; repeat' split
  all_goals simp [grantHead]

@[simp] theorem serve_tli_inbound  (s : State) : (serve s).tli.inbound = s.tli.inbound := by
  unfold serve; repeat' split
  all_goals simp [grantHead]

@[simp] theorem serve_tli_clash  (s : State) : (serve s).tli.clash = s.tli.clash := by
  unfold serve; repeat' split
  all_goals simp [grantHead]

@[simp] theorem serve_tli  (s : State) : (serve s).tli = s.tli := by
  unfold serve; repeat' split
  all_goals simp [grantHead]

@[simp] theorem serve_ce  (s : State) : (serve s).ce = s.ce := by
  unfold serve; repeat' split
  all_goals simp [grantHead]

@[simp] theorem serve_sv  (s : State) : (serve s).sv = s.sv := by
  unfold serve; repeat' split
  all_goals simp [grantHead]

@[simp] theorem serve_pa_comm  (s : State) : (serve s).pa.comm = s.pa.comm := by
  unfold serve; repeat' split
  all_goals simp [grantHead]

@[simp] theorem serve_pa_latch  (s : State) : (serve s).pa.latch = s.pa.latch := by
  unfold serve; repeat' split
  all_goals simp [grantHead]

@[simp] theorem serve_pa_fault  (s : State) : (serve s).pa.fault = s.pa.fault := by
  unfold serve; repeat' split
  all_goals simp [grantHead]

@[simp] theorem serveAfter_pending (b : State) (s : State) : (serveAfter b s).pending = s.pending := by
  simp [serveAfter]

@[simp] theorem serveAfter_os (b : State) (s : State) : (serveAfter b s).os = s.os := by
  simp [serveAfter]

@[simp] theorem serveAfter_ov (b : State) (s : State) : (serveAfter b s).ov = s.ov := by
  simp [serveAfter]

@[simp] theorem serveAfter_pu (b : State) (s : State) : (serveAfter b s).pu = s.pu := by
  simp [serveAfter]

@[simp] theorem serveAfter_eu (b : State) (s : State) : (serveAfter b s).eu = s.eu := by
  simp [serveAfter]

@[simp] theorem serveAfter_cr (b : State) (s : State) : (serveAfter b s).cr = s.cr := by
  simp [serveAfter]

@[simp] theorem serveAfter_ds (b : State) (s : State) : (serveAfter b s).ds = s.ds := by
  simp [serveAfter]

@[simp] theorem serveAfter_cs (b : State) (s : State) : (serveAfter b s).cs = s.cs := by
  simp [serveAfter]

@[simp] theorem serveAfter_tli_addr (b : State) (s : State) : (serveAfter b s).tli.addr = s.tli.addr := by
  simp [serveAfter]

@[simp] theorem serveAfter_tli_kind (b : State) (s : State) : (serveAfter b s).tli.kind = s.tli.kind := by
  simp [serveAfter]

@[simp] theorem serveAfter_tli_inbound (b : State) (s : State) : (serveAfter b s).tli.inbound = s.tli.inbound := by
  simp [serveAfter]

@[simp] theorem serveAfter_tli_clash (b : State) (s : State) : (serveAfter b s).tli.clash = s.tli.clash := by
  simp [serveAfter]

@[simp] theorem serveAfter_sv (b : State) (s : State) : (serveAfter b s).sv = s.sv := by
  simp [serveAfter]

@[simp] theorem serveAfter_pa_comm (b : State) (s : State) : (serveAfter b s).pa.comm = s.pa.comm := by
  simp [serveAfter]

@[simp] theorem serveAfter_pa_latch (b : State) (s : State) : (serveAfter b s).pa.latch = s.pa.latch := by
  simp [serveAfter]

@[simp] theorem serveAfter_pa_fault (b : State) (s : State) : (serveAfter b s).pa.fault = s.pa.fault := by
  simp [serveAfter]

@[simp] theorem lockServed_pending (s : State) : (lockServed s).pending = s.pending := by simp [lockServed]

@[simp] theorem lockServed_os (s : State) : (lockServed s).os = s.os := by simp [lockServed]

@[simp] theorem lockServed_ov (s : State) : (lockServed s).ov = s.ov := by simp [lockServed]

@[simp] theorem lockServed_pu (s : State) : (lockServed s).pu = s.pu := by simp [lockServed]

@[simp] theorem lockServed_eu (s : State) : (lockServed s).eu = s.eu := by simp [lockServed]

@[simp] theorem lockServed_cr (s : State) : (lockServed s).cr = s.cr := by simp [lockServed]

@[simp] theorem lockServed_ds (s : State) : (lockServed s).ds = s.ds := by simp [lockServed]

@[simp] theorem lockServed_cs (s : State) : (lockServed s).cs = s.cs := by simp [lockServed]

@[simp] theorem lockServed_tli_addr (s : State) : (lockServed s).tli.addr = s.tli.addr := by simp [lockServed]

@[simp] theorem lockServed_tli_kind (s : State) : (lockServed s).tli.kind = s.tli.kind := by simp [lockServed]

@[simp] theorem lockServed_tli_inbound (s : State) : (lockServed s).tli.inbound = s.tli.inbound := by simp [lockServed]

@[simp] theorem lockServed_tli_clash (s : State) : (lockServed s).tli.clash = s.tli.clash := by simp [lockServed]

@[simp] theorem lockServed_sv (s : State) : (lockServed s).sv = s.sv := by simp [lockServed]

@[simp] theorem lockServed_pa_comm (s : State) : (lockServed s).pa.comm = s.pa.comm := by simp [lockServed]

@[simp] theorem lockServed_pa_latch (s : State) : (lockServed s).pa.latch = s.pa.latch := by simp [lockServed]

@[simp] theorem lockServed_pa_fault (s : State) : (lockServed s).pa.fault = s.pa.fault := by simp [lockServed]

@[simp] theorem storeSegClaim_pending (x : Addr) (p : Ms) (c : ClaimState) (s : State) : (storeSegClaim x p c s).pending = s.pending := by
  unfold storeSegClaim; dsimp only; repeat' split
  all_goals simp

@[simp] theorem storeSegClaim_os (x : Addr) (p : Ms) (c : ClaimState) (s : State) : (storeSegClaim x p c s).os = s.os := by
  unfold storeSegClaim; dsimp only; repeat' split
  all_goals simp

@[simp] theorem storeSegClaim_ov (x : Addr) (p : Ms) (c : ClaimState) (s : State) : (storeSegClaim x p c s).ov = s.ov := by
  unfold storeSegClaim; dsimp only; repeat' split
  all_goals simp

@[simp] theorem storeSegClaim_pu (x : Addr) (p : Ms) (c : ClaimState) (s : State) : (storeSegClaim x p c s).pu = s.pu := by
  unfold storeSegClaim; dsimp only; repeat' split
  all_goals simp

@[simp] theorem storeSegClaim_eu (x : Addr) (p : Ms) (c : ClaimState) (s : State) : (storeSegClaim x p c s).eu = s.eu := by
  unfold storeSegClaim; dsimp only; repeat' split
  all_goals simp

@[simp] theorem storeSegClaim_cr (x : Addr) (p : Ms) (c : ClaimState) (s : State) : (storeSegClaim x p c s).cr = s.cr := by
  unfold storeSegClaim; dsimp only; repeat' split
  all_goals simp

@[simp] theorem storeSegClaim_ds (x : Addr) (p : Ms) (c : ClaimState) (s : State) : (storeSegClaim x p c s).ds = s.ds := by
  unfold storeSegClaim; dsimp only; repeat' split
  all_goals simp

@[simp] theorem storeSegClaim_cs (x : Addr) (p : Ms) (c : ClaimState) (s : State) : (storeSegClaim x p c s).cs = s.cs := by
  unfold storeSegClaim; dsimp only; repeat' split
  all_goals simp

@[simp] theorem storeSegClaim_tli_addr (x : Addr) (p : Ms) (c : ClaimState) (s : State) : (storeSegClaim x p c s).tli.addr = s.tli.addr := by
  unfold storeSegClaim; dsimp only; repeat' split
  all_goals simp

@[simp] theorem storeSegClaim_tli_kind (x : Addr) (p : Ms) (c : ClaimState) (s : State) : (storeSegClaim x p c s).tli.kind = s.tli.kind := by
  unfold storeSegClaim; dsimp only; repeat' split
  all_goals simp

@[simp] theorem storeSegClaim_tli_inbound (x : Addr) (p : Ms) (c : ClaimState) (s : State) : (storeSegClaim x p c s).tli.inbound = s.tli.inbound := by
  unfold storeSegClaim; dsimp only; repeat' split
  all_goals simp

@[simp] theorem storeSegClaim_tli_clash (x : Addr) (p : Ms) (c : ClaimState) (s : State) : (storeSegClaim x p c s).tli.clash = s.tli.clash := by
  unfold storeSegClaim; dsimp only; repeat' split
  all_goals simp

@[simp] theorem storeSegClaim_tli (x : Addr) (p : Ms) (c : ClaimState) (s : State) : (storeSegClaim x p c s).tli = s.tli := by
  unfold storeSegClaim; dsimp only; repeat' split
  all_goals simp

@[simp] theorem storeSegClaim_ce (x : Addr) (p : Ms) (c : ClaimState) (s : State) : (storeSegClaim x p c s).ce = s.ce := by
  unfold storeSegClaim; dsimp only; repeat' split
  all_goals simp

@[simp] theorem storeSegClaim_pa (x : Addr) (p : Ms) (c : ClaimState) (s : State) : (storeSegClaim x p c s).pa = s.pa := by
  unfold storeSegClaim; dsimp only; repeat' split
  all_goals simp

@[simp] theorem storeSegClaim_ts (x : Addr) (p : Ms) (c : ClaimState) (s : State) : (storeSegClaim x p c s).ts = s.ts := by
  unfold storeSegClaim; dsimp only; repeat' split
  all_goals simp

@[simp] theorem dropSegClaim_pending (x : Addr) (s : State) : (dropSegClaim x s).pending = s.pending := by
  simp [dropSegClaim]

@[simp] theorem dropSegClaim_os (x : Addr) (s : State) : (dropSegClaim x s).os = s.os := by
  simp [dropSegClaim]

@[simp] theorem dropSegClaim_ov (x : Addr) (s : State) : (dropSegClaim x s).ov = s.ov := by
  simp [dropSegClaim]

@[simp] theorem dropSegClaim_pu (x : Addr) (s : State) : (dropSegClaim x s).pu = s.pu := by
  simp [dropSegClaim]

@[simp] theorem dropSegClaim_eu (x : Addr) (s : State) : (dropSegClaim x s).eu = s.eu := by
  simp [dropSegClaim]

@[simp] theorem dropSegClaim_cr (x : Addr) (s : State) : (dropSegClaim x s).cr = s.cr := by
  simp [dropSegClaim]

@[simp] theorem dropSegClaim_ds (x : Addr) (s : State) : (dropSegClaim x s).ds = s.ds := by
  simp [dropSegClaim]

@[simp] theorem dropSegClaim_cs (x : Addr) (s : State) : (dropSegClaim x s).cs = s.cs := by
  simp [dropSegClaim]

@[simp] theorem dropSegClaim_tli_addr (x : Addr) (s : State) : (dropSegClaim x s).tli.addr = s.tli.addr := by
  simp [dropSegClaim]

@[simp] theorem dropSegClaim_tli_kind (x : Addr) (s : State) : (dropSegClaim x s).tli.kind = s.tli.kind := by
  simp [dropSegClaim]

@[simp] theorem dropSegClaim_tli_inbound (x : Addr) (s : State) : (dropSegClaim x s).tli.inbound = s.tli.inbound := by
  simp [dropSegClaim]

@[simp] theorem dropSegClaim_tli_clash (x : Addr) (s : State) : (dropSegClaim x s).tli.clash = s.tli.clash := by
  simp [dropSegClaim]

@[simp] theorem dropSegClaim_tli (x : Addr) (s : State) : (dropSegClaim x s).tli = s.tli := by
  simp [dropSegClaim]

@[simp] theorem dropSegClaim_ce (x : Addr) (s : State) : (dropSegClaim x s).ce = s.ce := by
  simp [dropSegClaim]

@[simp] theorem dropSegClaim_pa (x : Addr) (s : State) : (dropSegClaim x s).pa = s.pa := by
  simp [dropSegClaim]

@[simp] theorem dropSegClaim_ts (x : Addr) (s : State) : (dropSegClaim x s).ts = s.ts := by
  simp [dropSegClaim]

@[simp] theorem followView_pending  (s : State) : (followView s).pending = s.pending := by
  simp [followView]

@[simp] theorem followView_os  (s : State) : (followView s).os = s.os := by
  simp [followView]

@[simp] theorem followView_ov  (s : State) : (followView s).ov = s.ov := by
  simp [followView]

@[simp] theorem followView_pu  (s : State) : (followView s).pu = s.pu := by
  simp [followView]

@[simp] theorem followView_eu  (s : State) : (followView s).eu = s.eu := by
  simp [followView]

@[simp] theorem followView_cr  (s : State) : (followView s).cr = s.cr := by
  simp [followView]

@[simp] theorem followView_ds  (s : State) : (followView s).ds = s.ds := by
  simp [followView]

@[simp] theorem followView_cs  (s : State) : (followView s).cs = s.cs := by
  simp [followView]

@[simp] theorem followView_tli_addr  (s : State) : (followView s).tli.addr = s.tli.addr := by
  simp [followView]

@[simp] theorem followView_tli_kind  (s : State) : (followView s).tli.kind = s.tli.kind := by
  simp [followView]

@[simp] theorem followView_tli_inbound  (s : State) : (followView s).tli.inbound = s.tli.inbound := by
  simp [followView]

@[simp] theorem followView_tli_clash  (s : State) : (followView s).tli.clash = s.tli.clash := by
  simp [followView]

@[simp] theorem followView_tli  (s : State) : (followView s).tli = s.tli := by
  simp [followView]

@[simp] theorem followView_ce  (s : State) : (followView s).ce = s.ce := by
  simp [followView]

@[simp] theorem followView_sv  (s : State) : (followView s).sv = s.sv := by
  simp [followView]

@[simp] theorem followView_ts  (s : State) : (followView s).ts = s.ts := by
  simp [followView]

@[simp] theorem followView_pa_comm  (s : State) : (followView s).pa.comm = s.pa.comm := by
  simp [followView]

@[simp] theorem followView_pa_latch  (s : State) : (followView s).pa.latch = s.pa.latch := by
  simp [followView]

@[simp] theorem followView_pa_fault  (s : State) : (followView s).pa.fault = s.pa.fault := by
  simp [followView]

@[simp] theorem afterView_pending (b : State) (s : State) : (afterView b s).pending = s.pending := by
  unfold afterView; split <;> simp

@[simp] theorem afterView_os (b : State) (s : State) : (afterView b s).os = s.os := by
  unfold afterView; split <;> simp

@[simp] theorem afterView_ov (b : State) (s : State) : (afterView b s).ov = s.ov := by
  unfold afterView; split <;> simp

@[simp] theorem afterView_pu (b : State) (s : State) : (afterView b s).pu = s.pu := by
  unfold afterView; split <;> simp

@[simp] theorem afterView_eu (b : State) (s : State) : (afterView b s).eu = s.eu := by
  unfold afterView; split <;> simp

@[simp] theorem afterView_cr (b : State) (s : State) : (afterView b s).cr = s.cr := by
  unfold afterView; split <;> simp

@[simp] theorem afterView_ds (b : State) (s : State) : (afterView b s).ds = s.ds := by
  unfold afterView; split <;> simp

@[simp] theorem afterView_cs (b : State) (s : State) : (afterView b s).cs = s.cs := by
  unfold afterView; split <;> simp

@[simp] theorem afterView_tli_addr (b : State) (s : State) : (afterView b s).tli.addr = s.tli.addr := by
  unfold afterView; split <;> simp

@[simp] theorem afterView_tli_kind (b : State) (s : State) : (afterView b s).tli.kind = s.tli.kind := by
  unfold afterView; split <;> simp

@[simp] theorem afterView_tli_inbound (b : State) (s : State) : (afterView b s).tli.inbound = s.tli.inbound := by
  unfold afterView; split <;> simp

@[simp] theorem afterView_tli_clash (b : State) (s : State) : (afterView b s).tli.clash = s.tli.clash := by
  unfold afterView; split <;> simp

@[simp] theorem afterView_sv (b : State) (s : State) : (afterView b s).sv = s.sv := by
  unfold afterView; split <;> simp

@[simp] theorem afterView_pa_comm (b : State) (s : State) : (afterView b s).pa.comm = s.pa.comm := by
  unfold afterView; split <;> simp

@[simp] theorem afterView_pa_latch (b : State) (s : State) : (afterView b s).pa.latch = s.pa.latch := by
  unfold afterView; split <;> simp

@[simp] theorem afterView_pa_fault (b : State) (s : State) : (afterView b s).pa.fault = s.pa.fault := by
  unfold afterView; split <;> simp

@[simp] theorem freeGrant_pending  (s : State) : (freeGrant s).pending = s.pending := by
  simp [freeGrant]

@[simp] theorem freeGrant_os  (s : State) : (freeGrant s).os = s.os := by
  simp [freeGrant]

@[simp] theorem freeGrant_ov  (s : State) : (freeGrant s).ov = s.ov := by
  simp [freeGrant]

@[simp] theorem freeGrant_pu  (s : State) : (freeGrant s).pu = s.pu := by
  simp [freeGrant]

@[simp] theorem freeGrant_eu  (s : State) : (freeGrant s).eu = s.eu := by
  simp [freeGrant]

@[simp] theorem freeGrant_cr  (s : State) : (freeGrant s).cr = s.cr := by
  simp [freeGrant]

@[simp] theorem freeGrant_ds  (s : State) : (freeGrant s).ds = s.ds := by
  simp [freeGrant]

@[simp] theorem freeGrant_cs  (s : State) : (freeGrant s).cs = s.cs := by
  simp [freeGrant]

@[simp] theorem freeGrant_tli_addr  (s : State) : (freeGrant s).tli.addr = s.tli.addr := by
  simp [freeGrant]

@[simp] theorem freeGrant_tli_kind  (s : State) : (freeGrant s).tli.kind = s.tli.kind := by
  simp [freeGrant]

@[simp] theorem freeGrant_tli_inbound  (s : State) : (freeGrant s).tli.inbound = s.tli.inbound := by
  simp [freeGrant]

@[simp] theorem freeGrant_tli_clash  (s : State) : (freeGrant s).tli.clash = s.tli.clash := by
  simp [freeGrant]

@[simp] theorem freeGrant_sv  (s : State) : (freeGrant s).sv = s.sv := by
  simp [freeGrant]

@[simp] theorem freeGrant_pa_comm  (s : State) : (freeGrant s).pa.comm = s.pa.comm := by
  simp [freeGrant]

@[simp] theorem freeGrant_pa_latch  (s : State) : (freeGrant s).pa.latch = s.pa.latch := by
  simp [freeGrant]

@[simp] theorem freeGrant_pa_fault  (s : State) : (freeGrant s).pa.fault = s.pa.fault := by
  simp [freeGrant]

@[simp] theorem dropAsk_pending (x : Addr) (s : State) : (dropAsk x s).pending = s.pending := by
  simp [dropAsk]

@[simp] theorem dropAsk_os (x : Addr) (s : State) : (dropAsk x s).os = s.os := by
  simp [dropAsk]

@[simp] theorem dropAsk_ov (x : Addr) (s : State) : (dropAsk x s).ov = s.ov := by
  simp [dropAsk]

@[simp] theorem dropAsk_pu (x : Addr) (s : State) : (dropAsk x s).pu = s.pu := by
  simp [dropAsk]

@[simp] theorem dropAsk_eu (x : Addr) (s : State) : (dropAsk x s).eu = s.eu := by
  simp [dropAsk]

@[simp] theorem dropAsk_cr (x : Addr) (s : State) : (dropAsk x s).cr = s.cr := by
  simp [dropAsk]

@[simp] theorem dropAsk_ds (x : Addr) (s : State) : (dropAsk x s).ds = s.ds := by
  simp [dropAsk]

@[simp] theorem dropAsk_cs (x : Addr) (s : State) : (dropAsk x s).cs = s.cs := by
  simp [dropAsk]

@[simp] theorem dropAsk_tli_addr (x : Addr) (s : State) : (dropAsk x s).tli.addr = s.tli.addr := by
  simp [dropAsk]

@[simp] theorem dropAsk_tli_kind (x : Addr) (s : State) : (dropAsk x s).tli.kind = s.tli.kind := by
  simp [dropAsk]

@[simp] theorem dropAsk_tli_inbound (x : Addr) (s : State) : (dropAsk x s).tli.inbound = s.tli.inbound := by
  simp [dropAsk]

@[simp] theorem dropAsk_tli_clash (x : Addr) (s : State) : (dropAsk x s).tli.clash = s.tli.clash := by
  simp [dropAsk]

@[simp] theorem dropAsk_tli (x : Addr) (s : State) : (dropAsk x s).tli = s.tli := by
  simp [dropAsk]

@[simp] theorem dropAsk_ce (x : Addr) (s : State) : (dropAsk x s).ce = s.ce := by
  simp [dropAsk]

@[simp] theorem dropAsk_sv (x : Addr) (s : State) : (dropAsk x s).sv = s.sv := by
  simp [dropAsk]

@[simp] theorem dropAsk_ts (x : Addr) (s : State) : (dropAsk x s).ts = s.ts := by
  simp [dropAsk]

@[simp] theorem dropAsk_pa_comm (x : Addr) (s : State) : (dropAsk x s).pa.comm = s.pa.comm := by
  simp [dropAsk]

@[simp] theorem dropAsk_pa_grant (x : Addr) (s : State) : (dropAsk x s).pa.grant = s.pa.grant := by
  simp [dropAsk]

@[simp] theorem dropAsk_pa_latch (x : Addr) (s : State) : (dropAsk x s).pa.latch = s.pa.latch := by
  simp [dropAsk]

@[simp] theorem dropAsk_pa_fault (x : Addr) (s : State) : (dropAsk x s).pa.fault = s.pa.fault := by
  simp [dropAsk]

@[simp] theorem withdrawClaim_pending (x : Addr) (s : State) : (withdrawClaim x s).pending = s.pending := by
  unfold withdrawClaim; dsimp only; split <;> simp

@[simp] theorem withdrawClaim_os (x : Addr) (s : State) : (withdrawClaim x s).os = s.os := by
  unfold withdrawClaim; dsimp only; split <;> simp

@[simp] theorem withdrawClaim_ov (x : Addr) (s : State) : (withdrawClaim x s).ov = s.ov := by
  unfold withdrawClaim; dsimp only; split <;> simp

@[simp] theorem withdrawClaim_pu (x : Addr) (s : State) : (withdrawClaim x s).pu = s.pu := by
  unfold withdrawClaim; dsimp only; split <;> simp

@[simp] theorem withdrawClaim_eu (x : Addr) (s : State) : (withdrawClaim x s).eu = s.eu := by
  unfold withdrawClaim; dsimp only; split <;> simp

@[simp] theorem withdrawClaim_cr (x : Addr) (s : State) : (withdrawClaim x s).cr = s.cr := by
  unfold withdrawClaim; dsimp only; split <;> simp

@[simp] theorem withdrawClaim_ds (x : Addr) (s : State) : (withdrawClaim x s).ds = s.ds := by
  unfold withdrawClaim; dsimp only; split <;> simp

@[simp] theorem withdrawClaim_cs (x : Addr) (s : State) : (withdrawClaim x s).cs = s.cs := by
  unfold withdrawClaim; dsimp only; split <;> simp

@[simp] theorem withdrawClaim_tli_addr (x : Addr) (s : State) : (withdrawClaim x s).tli.addr = s.tli.addr := by
  unfold withdrawClaim; dsimp only; split <;> simp

@[simp] theorem withdrawClaim_tli_kind (x : Addr) (s : State) : (withdrawClaim x s).tli.kind = s.tli.kind := by
  unfold withdrawClaim; dsimp only; split <;> simp

@[simp] theorem withdrawClaim_tli_inbound (x : Addr) (s : State) : (withdrawClaim x s).tli.inbound = s.tli.inbound := by
  unfold withdrawClaim; dsimp only; split <;> simp

@[simp] theorem withdrawClaim_tli_clash (x : Addr) (s : State) : (withdrawClaim x s).tli.clash = s.tli.clash := by
  unfold withdrawClaim; dsimp only; split <;> simp

@[simp] theorem withdrawClaim_pa_comm (x : Addr) (s : State) : (withdrawClaim x s).pa.comm = s.pa.comm := by
  unfold withdrawClaim; dsimp only; split <;> simp

@[simp] theorem withdrawClaim_pa_latch (x : Addr) (s : State) : (withdrawClaim x s).pa.latch = s.pa.latch := by
  unfold withdrawClaim; dsimp only; split <;> simp

@[simp] theorem withdrawClaim_pa_fault (x : Addr) (s : State) : (withdrawClaim x s).pa.fault = s.pa.fault := by
  unfold withdrawClaim; dsimp only; split <;> simp

@[simp] theorem setUnavail_pending (p : PointsPos) (s : State) : (setUnavail p s).pending = s.pending := by
  unfold setUnavail; split <;> simp

@[simp] theorem setUnavail_os (p : PointsPos) (s : State) : (setUnavail p s).os = s.os := by
  unfold setUnavail; split <;> simp

@[simp] theorem setUnavail_ov (p : PointsPos) (s : State) : (setUnavail p s).ov = s.ov := by
  unfold setUnavail; split <;> simp

@[simp] theorem setUnavail_pu (p : PointsPos) (s : State) : (setUnavail p s).pu = s.pu := by
  unfold setUnavail; split <;> simp

@[simp] theorem setUnavail_eu (p : PointsPos) (s : State) : (setUnavail p s).eu = s.eu := by
  unfold setUnavail; split <;> simp

@[simp] theorem setUnavail_cr (p : PointsPos) (s : State) : (setUnavail p s).cr = s.cr := by
  unfold setUnavail; split <;> simp

@[simp] theorem setUnavail_ds (p : PointsPos) (s : State) : (setUnavail p s).ds = s.ds := by
  unfold setUnavail; split <;> simp

@[simp] theorem setUnavail_cs (p : PointsPos) (s : State) : (setUnavail p s).cs = s.cs := by
  unfold setUnavail; split <;> simp

@[simp] theorem setUnavail_tli_addr (p : PointsPos) (s : State) : (setUnavail p s).tli.addr = s.tli.addr := by
  unfold setUnavail; split <;> simp

@[simp] theorem setUnavail_tli_kind (p : PointsPos) (s : State) : (setUnavail p s).tli.kind = s.tli.kind := by
  unfold setUnavail; split <;> simp

@[simp] theorem setUnavail_tli_inbound (p : PointsPos) (s : State) : (setUnavail p s).tli.inbound = s.tli.inbound := by
  unfold setUnavail; split <;> simp

@[simp] theorem setUnavail_tli_clash (p : PointsPos) (s : State) : (setUnavail p s).tli.clash = s.tli.clash := by
  unfold setUnavail; split <;> simp

@[simp] theorem setUnavail_tli (p : PointsPos) (s : State) : (setUnavail p s).tli = s.tli := by
  unfold setUnavail; split <;> simp

@[simp] theorem setUnavail_ce (p : PointsPos) (s : State) : (setUnavail p s).ce = s.ce := by
  unfold setUnavail; split <;> simp

@[simp] theorem setUnavail_sv (p : PointsPos) (s : State) : (setUnavail p s).sv = s.sv := by
  unfold setUnavail; split <;> simp

@[simp] theorem setUnavail_ts (p : PointsPos) (s : State) : (setUnavail p s).ts = s.ts := by
  unfold setUnavail; split <;> simp

@[simp] theorem setUnavail_pa_queue (p : PointsPos) (s : State) : (setUnavail p s).pa.queue = s.pa.queue := by
  unfold setUnavail; split <;> simp

@[simp] theorem setUnavail_pa_grant (p : PointsPos) (s : State) : (setUnavail p s).pa.grant = s.pa.grant := by
  unfold setUnavail; split <;> simp

@[simp] theorem setUnavail_pa_comm (p : PointsPos) (s : State) : (setUnavail p s).pa.comm = s.pa.comm := by
  unfold setUnavail; split <;> simp

@[simp] theorem setUnavail_pa_latch (p : PointsPos) (s : State) : (setUnavail p s).pa.latch = s.pa.latch := by
  unfold setUnavail; split <;> simp

@[simp] theorem setUnavail_pa_fault (p : PointsPos) (s : State) : (setUnavail p s).pa.fault = s.pa.fault := by
  unfold setUnavail; split <;> simp

@[simp] theorem refuseQueued_pending (p : PointsPos) (x : Addr) (s : State) : (refuseQueued p x s).pending = s.pending := by
  simp [refuseQueued]

@[simp] theorem refuseQueued_os (p : PointsPos) (x : Addr) (s : State) : (refuseQueued p x s).os = s.os := by
  simp [refuseQueued]

@[simp] theorem refuseQueued_ov (p : PointsPos) (x : Addr) (s : State) : (refuseQueued p x s).ov = s.ov := by
  simp [refuseQueued]

@[simp] theorem refuseQueued_pu (p : PointsPos) (x : Addr) (s : State) : (refuseQueued p x s).pu = s.pu := by
  simp [refuseQueued]

@[simp] theorem refuseQueued_eu (p : PointsPos) (x : Addr) (s : State) : (refuseQueued p x s).eu = s.eu := by
  simp [refuseQueued]

@[simp] theorem refuseQueued_cr (p : PointsPos) (x : Addr) (s : State) : (refuseQueued p x s).cr = s.cr := by
  simp [refuseQueued]

@[simp] theorem refuseQueued_ds (p : PointsPos) (x : Addr) (s : State) : (refuseQueued p x s).ds = s.ds := by
  simp [refuseQueued]

@[simp] theorem refuseQueued_cs (p : PointsPos) (x : Addr) (s : State) : (refuseQueued p x s).cs = s.cs := by
  simp [refuseQueued]

@[simp] theorem refuseQueued_tli_addr (p : PointsPos) (x : Addr) (s : State) : (refuseQueued p x s).tli.addr = s.tli.addr := by
  simp [refuseQueued]

@[simp] theorem refuseQueued_tli_kind (p : PointsPos) (x : Addr) (s : State) : (refuseQueued p x s).tli.kind = s.tli.kind := by
  simp [refuseQueued]

@[simp] theorem refuseQueued_tli_inbound (p : PointsPos) (x : Addr) (s : State) : (refuseQueued p x s).tli.inbound = s.tli.inbound := by
  simp [refuseQueued]

@[simp] theorem refuseQueued_tli_clash (p : PointsPos) (x : Addr) (s : State) : (refuseQueued p x s).tli.clash = s.tli.clash := by
  simp [refuseQueued]

@[simp] theorem refuseQueued_sv (p : PointsPos) (x : Addr) (s : State) : (refuseQueued p x s).sv = s.sv := by
  simp [refuseQueued]

@[simp] theorem refuseQueued_ts (p : PointsPos) (x : Addr) (s : State) : (refuseQueued p x s).ts = s.ts := by
  simp [refuseQueued]

@[simp] theorem refuseQueued_pa_comm (p : PointsPos) (x : Addr) (s : State) : (refuseQueued p x s).pa.comm = s.pa.comm := by
  simp [refuseQueued]

@[simp] theorem refuseQueued_pa_grant (p : PointsPos) (x : Addr) (s : State) : (refuseQueued p x s).pa.grant = s.pa.grant := by
  simp [refuseQueued]

@[simp] theorem refuseQueued_pa_latch (p : PointsPos) (x : Addr) (s : State) : (refuseQueued p x s).pa.latch = s.pa.latch := by
  simp [refuseQueued]

@[simp] theorem refuseQueued_pa_fault (p : PointsPos) (x : Addr) (s : State) : (refuseQueued p x s).pa.fault = s.pa.fault := by
  simp [refuseQueued]

@[simp] theorem recoverPrevious_pending (s : State) : (recoverPrevious s).pending = s.pending := by
  have fold (p : PointsPos) (l : List Addr) (t : State) : (l.foldl (fun t x => refuseQueued p x t) t).pending = t.pending := by
    induction l generalizing t with
    | nil => rfl
    | cons a l ih => exact (ih _).trans (by simp)
  unfold recoverPrevious; dsimp only; split <;> simp [fold]

@[simp] theorem recoverPrevious_os (s : State) : (recoverPrevious s).os = s.os := by
  have fold (p : PointsPos) (l : List Addr) (t : State) : (l.foldl (fun t x => refuseQueued p x t) t).os = t.os := by
    induction l generalizing t with
    | nil => rfl
    | cons a l ih => exact (ih _).trans (by simp)
  unfold recoverPrevious; dsimp only; split <;> simp [fold]

@[simp] theorem recoverPrevious_ov (s : State) : (recoverPrevious s).ov = s.ov := by
  have fold (p : PointsPos) (l : List Addr) (t : State) : (l.foldl (fun t x => refuseQueued p x t) t).ov = t.ov := by
    induction l generalizing t with
    | nil => rfl
    | cons a l ih => exact (ih _).trans (by simp)
  unfold recoverPrevious; dsimp only; split <;> simp [fold]

@[simp] theorem recoverPrevious_pu (s : State) : (recoverPrevious s).pu = s.pu := by
  have fold (p : PointsPos) (l : List Addr) (t : State) : (l.foldl (fun t x => refuseQueued p x t) t).pu = t.pu := by
    induction l generalizing t with
    | nil => rfl
    | cons a l ih => exact (ih _).trans (by simp)
  unfold recoverPrevious; dsimp only; split <;> simp [fold]

@[simp] theorem recoverPrevious_eu (s : State) : (recoverPrevious s).eu = s.eu := by
  have fold (p : PointsPos) (l : List Addr) (t : State) : (l.foldl (fun t x => refuseQueued p x t) t).eu = t.eu := by
    induction l generalizing t with
    | nil => rfl
    | cons a l ih => exact (ih _).trans (by simp)
  unfold recoverPrevious; dsimp only; split <;> simp [fold]

@[simp] theorem recoverPrevious_cr (s : State) : (recoverPrevious s).cr = s.cr := by
  have fold (p : PointsPos) (l : List Addr) (t : State) : (l.foldl (fun t x => refuseQueued p x t) t).cr = t.cr := by
    induction l generalizing t with
    | nil => rfl
    | cons a l ih => exact (ih _).trans (by simp)
  unfold recoverPrevious; dsimp only; split <;> simp [fold]

@[simp] theorem recoverPrevious_ds (s : State) : (recoverPrevious s).ds = s.ds := by
  have fold (p : PointsPos) (l : List Addr) (t : State) : (l.foldl (fun t x => refuseQueued p x t) t).ds = t.ds := by
    induction l generalizing t with
    | nil => rfl
    | cons a l ih => exact (ih _).trans (by simp)
  unfold recoverPrevious; dsimp only; split <;> simp [fold]

@[simp] theorem recoverPrevious_cs (s : State) : (recoverPrevious s).cs = s.cs := by
  have fold (p : PointsPos) (l : List Addr) (t : State) : (l.foldl (fun t x => refuseQueued p x t) t).cs = t.cs := by
    induction l generalizing t with
    | nil => rfl
    | cons a l ih => exact (ih _).trans (by simp)
  unfold recoverPrevious; dsimp only; split <;> simp [fold]

@[simp] theorem recoverPrevious_tli_addr (s : State) : (recoverPrevious s).tli.addr = s.tli.addr := by
  have fold (p : PointsPos) (l : List Addr) (t : State) : (l.foldl (fun t x => refuseQueued p x t) t).tli.addr = t.tli.addr := by
    induction l generalizing t with
    | nil => rfl
    | cons a l ih => exact (ih _).trans (by simp)
  unfold recoverPrevious; dsimp only; split <;> simp [fold]

@[simp] theorem recoverPrevious_tli_kind (s : State) : (recoverPrevious s).tli.kind = s.tli.kind := by
  have fold (p : PointsPos) (l : List Addr) (t : State) : (l.foldl (fun t x => refuseQueued p x t) t).tli.kind = t.tli.kind := by
    induction l generalizing t with
    | nil => rfl
    | cons a l ih => exact (ih _).trans (by simp)
  unfold recoverPrevious; dsimp only; split <;> simp [fold]

@[simp] theorem recoverPrevious_tli_inbound (s : State) : (recoverPrevious s).tli.inbound = s.tli.inbound := by
  have fold (p : PointsPos) (l : List Addr) (t : State) : (l.foldl (fun t x => refuseQueued p x t) t).tli.inbound = t.tli.inbound := by
    induction l generalizing t with
    | nil => rfl
    | cons a l ih => exact (ih _).trans (by simp)
  unfold recoverPrevious; dsimp only; split <;> simp [fold]

@[simp] theorem recoverPrevious_tli_clash (s : State) : (recoverPrevious s).tli.clash = s.tli.clash := by
  have fold (p : PointsPos) (l : List Addr) (t : State) : (l.foldl (fun t x => refuseQueued p x t) t).tli.clash = t.tli.clash := by
    induction l generalizing t with
    | nil => rfl
    | cons a l ih => exact (ih _).trans (by simp)
  unfold recoverPrevious; dsimp only; split <;> simp [fold]

@[simp] theorem recoverPrevious_sv (s : State) : (recoverPrevious s).sv = s.sv := by
  have fold (p : PointsPos) (l : List Addr) (t : State) : (l.foldl (fun t x => refuseQueued p x t) t).sv = t.sv := by
    induction l generalizing t with
    | nil => rfl
    | cons a l ih => exact (ih _).trans (by simp)
  unfold recoverPrevious; dsimp only; split <;> simp [fold]

@[simp] theorem recoverPrevious_pa_comm (s : State) : (recoverPrevious s).pa.comm = s.pa.comm := by
  have fold (p : PointsPos) (l : List Addr) (t : State) : (l.foldl (fun t x => refuseQueued p x t) t).pa.comm = t.pa.comm := by
    induction l generalizing t with
    | nil => rfl
    | cons a l ih => exact (ih _).trans (by simp)
  unfold recoverPrevious; dsimp only; split <;> simp [fold]

@[simp] theorem recoverPrevious_pa_latch (s : State) : (recoverPrevious s).pa.latch = s.pa.latch := by
  have fold (p : PointsPos) (l : List Addr) (t : State) : (l.foldl (fun t x => refuseQueued p x t) t).pa.latch = t.pa.latch := by
    induction l generalizing t with
    | nil => rfl
    | cons a l ih => exact (ih _).trans (by simp)
  unfold recoverPrevious; dsimp only; split <;> simp [fold]

@[simp] theorem recoverPrevious_pa_fault (s : State) : (recoverPrevious s).pa.fault = s.pa.fault := by
  have fold (p : PointsPos) (l : List Addr) (t : State) : (l.foldl (fun t x => refuseQueued p x t) t).pa.fault = t.pa.fault := by
    induction l generalizing t with
    | nil => rfl
    | cons a l ih => exact (ih _).trans (by simp)
  unfold recoverPrevious; dsimp only; split <;> simp [fold]

@[simp] theorem lockArrives_pending (b : State) (s : State) : (lockArrives b s).pending = s.pending := by
  unfold lockArrives; repeat' split
  all_goals simp

@[simp] theorem lockArrives_os (b : State) (s : State) : (lockArrives b s).os = s.os := by
  unfold lockArrives; repeat' split
  all_goals simp

@[simp] theorem lockArrives_ov (b : State) (s : State) : (lockArrives b s).ov = s.ov := by
  unfold lockArrives; repeat' split
  all_goals simp

@[simp] theorem lockArrives_pu (b : State) (s : State) : (lockArrives b s).pu = s.pu := by
  unfold lockArrives; repeat' split
  all_goals simp

@[simp] theorem lockArrives_eu (b : State) (s : State) : (lockArrives b s).eu = s.eu := by
  unfold lockArrives; repeat' split
  all_goals simp

@[simp] theorem lockArrives_cr (b : State) (s : State) : (lockArrives b s).cr = s.cr := by
  unfold lockArrives; repeat' split
  all_goals simp

@[simp] theorem lockArrives_ds (b : State) (s : State) : (lockArrives b s).ds = s.ds := by
  unfold lockArrives; repeat' split
  all_goals simp

@[simp] theorem lockArrives_cs (b : State) (s : State) : (lockArrives b s).cs = s.cs := by
  unfold lockArrives; repeat' split
  all_goals simp

@[simp] theorem lockArrives_tli_addr (b : State) (s : State) : (lockArrives b s).tli.addr = s.tli.addr := by
  unfold lockArrives; repeat' split
  all_goals simp

@[simp] theorem lockArrives_tli_kind (b : State) (s : State) : (lockArrives b s).tli.kind = s.tli.kind := by
  unfold lockArrives; repeat' split
  all_goals simp

@[simp] theorem lockArrives_tli_inbound (b : State) (s : State) : (lockArrives b s).tli.inbound = s.tli.inbound := by
  unfold lockArrives; repeat' split
  all_goals simp

@[simp] theorem lockArrives_tli_clash (b : State) (s : State) : (lockArrives b s).tli.clash = s.tli.clash := by
  unfold lockArrives; repeat' split
  all_goals simp

@[simp] theorem lockArrives_sv (b : State) (s : State) : (lockArrives b s).sv = s.sv := by
  unfold lockArrives; repeat' split
  all_goals simp

@[simp] theorem lockArrives_pa_comm (b : State) (s : State) : (lockArrives b s).pa.comm = s.pa.comm := by
  unfold lockArrives; repeat' split
  all_goals simp

@[simp] theorem lockArrives_pa_latch (b : State) (s : State) : (lockArrives b s).pa.latch = s.pa.latch := by
  unfold lockArrives; repeat' split
  all_goals simp

@[simp] theorem lockArrives_pa_fault (b : State) (s : State) : (lockArrives b s).pa.fault = s.pa.fault := by
  unfold lockArrives; repeat' split
  all_goals simp

/-! ## Arrivals -/

@[simp] theorem setWatcher_pending (w : Option Watcher) (s : State) : (setWatcher w s).pending = s.pending := by
  unfold setWatcher; split <;> simp

@[simp] theorem setWatcher_os (w : Option Watcher) (s : State) : (setWatcher w s).os = s.os := by
  unfold setWatcher; split <;> simp

@[simp] theorem setWatcher_ov (w : Option Watcher) (s : State) : (setWatcher w s).ov = s.ov := by
  unfold setWatcher; split <;> simp

@[simp] theorem setWatcher_ce (w : Option Watcher) (s : State) : (setWatcher w s).ce = s.ce := by
  unfold setWatcher; split <;> simp

@[simp] theorem setWatcher_pu (w : Option Watcher) (s : State) : (setWatcher w s).pu = s.pu := by
  unfold setWatcher; split <;> simp

@[simp] theorem setWatcher_eu (w : Option Watcher) (s : State) : (setWatcher w s).eu = s.eu := by
  unfold setWatcher; split <;> simp

@[simp] theorem setWatcher_cr (w : Option Watcher) (s : State) : (setWatcher w s).cr = s.cr := by
  unfold setWatcher; split <;> simp

@[simp] theorem setWatcher_ds (w : Option Watcher) (s : State) : (setWatcher w s).ds = s.ds := by
  unfold setWatcher; split <;> simp

@[simp] theorem setWatcher_sv (w : Option Watcher) (s : State) : (setWatcher w s).sv = s.sv := by
  unfold setWatcher; split <;> simp

@[simp] theorem setWatcher_ts (w : Option Watcher) (s : State) : (setWatcher w s).ts = s.ts := by
  unfold setWatcher; split <;> simp

@[simp] theorem setWatcher_tli (w : Option Watcher) (s : State) : (setWatcher w s).tli = s.tli := by
  unfold setWatcher; split <;> simp

@[simp] theorem setWatcher_cs_state (w : Option Watcher) (s : State) : (setWatcher w s).cs.state = s.cs.state := by
  unfold setWatcher; split <;> simp

@[simp] theorem setWatcher_cs_comm (w : Option Watcher) (s : State) : (setWatcher w s).cs.comm = s.cs.comm := by
  unfold setWatcher; split <;> simp

@[simp] theorem setWatcher_cs_console (w : Option Watcher) (s : State) : (setWatcher w s).cs.console = s.cs.console := by
  unfold setWatcher; split <;> simp

@[simp] theorem setWatcher_cs_latch (w : Option Watcher) (s : State) : (setWatcher w s).cs.latch = s.cs.latch := by
  unfold setWatcher; split <;> simp

@[simp] theorem setWatcher_cs_fault (w : Option Watcher) (s : State) : (setWatcher w s).cs.fault = s.cs.fault := by
  unfold setWatcher; split <;> simp

@[simp] theorem setWatcher_pa_queue (w : Option Watcher) (s : State) : (setWatcher w s).pa.queue = s.pa.queue := by
  unfold setWatcher; split <;> simp

@[simp] theorem setWatcher_pa_grant (w : Option Watcher) (s : State) : (setWatcher w s).pa.grant = s.pa.grant := by
  unfold setWatcher; split <;> simp

@[simp] theorem setWatcher_pa_comm (w : Option Watcher) (s : State) : (setWatcher w s).pa.comm = s.pa.comm := by
  unfold setWatcher; split <;> simp

@[simp] theorem setWatcher_pa_console (w : Option Watcher) (s : State) : (setWatcher w s).pa.console = s.pa.console := by
  unfold setWatcher; split <;> simp

@[simp] theorem setWatcher_pa_latch (w : Option Watcher) (s : State) : (setWatcher w s).pa.latch = s.pa.latch := by
  unfold setWatcher; split <;> simp

@[simp] theorem setWatcher_pa_fault (w : Option Watcher) (s : State) : (setWatcher w s).pa.fault = s.pa.fault := by
  unfold setWatcher; split <;> simp

@[simp] theorem watch_pending (a : Addr) (f : Seen) (s : State) : (watch a f s).pending = s.pending := by
  simp [watch]

@[simp] theorem watch_os (a : Addr) (f : Seen) (s : State) : (watch a f s).os = s.os := by
  simp [watch]

@[simp] theorem watch_ov (a : Addr) (f : Seen) (s : State) : (watch a f s).ov = s.ov := by
  simp [watch]

@[simp] theorem watch_ce (a : Addr) (f : Seen) (s : State) : (watch a f s).ce = s.ce := by
  simp [watch]

@[simp] theorem watch_pu (a : Addr) (f : Seen) (s : State) : (watch a f s).pu = s.pu := by
  simp [watch]

@[simp] theorem watch_eu (a : Addr) (f : Seen) (s : State) : (watch a f s).eu = s.eu := by
  simp [watch]

@[simp] theorem watch_cr (a : Addr) (f : Seen) (s : State) : (watch a f s).cr = s.cr := by
  simp [watch]

@[simp] theorem watch_ds (a : Addr) (f : Seen) (s : State) : (watch a f s).ds = s.ds := by
  simp [watch]

@[simp] theorem watch_sv (a : Addr) (f : Seen) (s : State) : (watch a f s).sv = s.sv := by
  simp [watch]

@[simp] theorem watch_ts (a : Addr) (f : Seen) (s : State) : (watch a f s).ts = s.ts := by
  simp [watch]

@[simp] theorem watch_tli (a : Addr) (f : Seen) (s : State) : (watch a f s).tli = s.tli := by
  simp [watch]

@[simp] theorem watch_cs_state (a : Addr) (f : Seen) (s : State) : (watch a f s).cs.state = s.cs.state := by
  simp [watch]

@[simp] theorem watch_cs_comm (a : Addr) (f : Seen) (s : State) : (watch a f s).cs.comm = s.cs.comm := by
  simp [watch]

@[simp] theorem watch_cs_console (a : Addr) (f : Seen) (s : State) : (watch a f s).cs.console = s.cs.console := by
  simp [watch]

@[simp] theorem watch_cs_latch (a : Addr) (f : Seen) (s : State) : (watch a f s).cs.latch = s.cs.latch := by
  simp [watch]

@[simp] theorem watch_cs_fault (a : Addr) (f : Seen) (s : State) : (watch a f s).cs.fault = s.cs.fault := by
  simp [watch]

@[simp] theorem watch_pa_queue (a : Addr) (f : Seen) (s : State) : (watch a f s).pa.queue = s.pa.queue := by
  simp [watch]

@[simp] theorem watch_pa_grant (a : Addr) (f : Seen) (s : State) : (watch a f s).pa.grant = s.pa.grant := by
  simp [watch]

@[simp] theorem watch_pa_comm (a : Addr) (f : Seen) (s : State) : (watch a f s).pa.comm = s.pa.comm := by
  simp [watch]

@[simp] theorem watch_pa_console (a : Addr) (f : Seen) (s : State) : (watch a f s).pa.console = s.pa.console := by
  simp [watch]

@[simp] theorem watch_pa_latch (a : Addr) (f : Seen) (s : State) : (watch a f s).pa.latch = s.pa.latch := by
  simp [watch]

@[simp] theorem watch_pa_fault (a : Addr) (f : Seen) (s : State) : (watch a f s).pa.fault = s.pa.fault := by
  simp [watch]

@[simp] theorem startListen_pending  (s : State) : (startListen s).pending = s.pending := by
  unfold startListen; split <;> simp

@[simp] theorem startListen_os  (s : State) : (startListen s).os = s.os := by
  unfold startListen; split <;> simp

@[simp] theorem startListen_ce  (s : State) : (startListen s).ce = s.ce := by
  unfold startListen; split <;> simp

@[simp] theorem startListen_pu  (s : State) : (startListen s).pu = s.pu := by
  unfold startListen; split <;> simp

@[simp] theorem startListen_eu  (s : State) : (startListen s).eu = s.eu := by
  unfold startListen; split <;> simp

@[simp] theorem startListen_cr  (s : State) : (startListen s).cr = s.cr := by
  unfold startListen; split <;> simp

@[simp] theorem startListen_ds  (s : State) : (startListen s).ds = s.ds := by
  unfold startListen; split <;> simp

@[simp] theorem startListen_cs  (s : State) : (startListen s).cs = s.cs := by
  unfold startListen; split <;> simp

@[simp] theorem startListen_pa  (s : State) : (startListen s).pa = s.pa := by
  unfold startListen; split <;> simp

@[simp] theorem startListen_ts  (s : State) : (startListen s).ts = s.ts := by
  unfold startListen; split <;> simp

@[simp] theorem startListen_tli  (s : State) : (startListen s).tli = s.tli := by
  unfold startListen; split <;> simp

@[simp] theorem heard_pending  (s : State) : (heard s).pending = s.pending := by
  unfold heard; dsimp only; split <;> simp

@[simp] theorem heard_os  (s : State) : (heard s).os = s.os := by
  unfold heard; dsimp only; split <;> simp

@[simp] theorem heard_ce  (s : State) : (heard s).ce = s.ce := by
  unfold heard; dsimp only; split <;> simp

@[simp] theorem heard_pu  (s : State) : (heard s).pu = s.pu := by
  unfold heard; dsimp only; split <;> simp

@[simp] theorem heard_eu  (s : State) : (heard s).eu = s.eu := by
  unfold heard; dsimp only; split <;> simp

@[simp] theorem heard_cr  (s : State) : (heard s).cr = s.cr := by
  unfold heard; dsimp only; split <;> simp

@[simp] theorem heard_ds  (s : State) : (heard s).ds = s.ds := by
  unfold heard; dsimp only; split <;> simp

@[simp] theorem heard_cs  (s : State) : (heard s).cs = s.cs := by
  unfold heard; dsimp only; split <;> simp

@[simp] theorem heard_pa  (s : State) : (heard s).pa = s.pa := by
  unfold heard; dsimp only; split <;> simp

@[simp] theorem heard_ts  (s : State) : (heard s).ts = s.ts := by
  unfold heard; dsimp only; split <;> simp

@[simp] theorem heard_tli_addr  (s : State) : (heard s).tli.addr = s.tli.addr := by
  unfold heard; dsimp only; split <;> simp

@[simp] theorem heard_tli_kind  (s : State) : (heard s).tli.kind = s.tli.kind := by
  unfold heard; dsimp only; split <;> simp

@[simp] theorem heard_tli_inbound  (s : State) : (heard s).tli.inbound = s.tli.inbound := by
  unfold heard; dsimp only; split <;> simp

@[simp] theorem heard_tli_txq  (s : State) : (heard s).tli.txq = s.tli.txq := by
  unfold heard; dsimp only; split <;> simp

@[simp] theorem heard_tli_kept  (s : State) : (heard s).tli.kept = s.tli.kept := by
  unfold heard; dsimp only; split <;> simp

@[simp] theorem heard_tli_offerLine  (s : State) : (heard s).tli.offerLine = s.tli.offerLine := by
  unfold heard; dsimp only; split <;> simp

@[simp] theorem heard_tli_clash  (s : State) : (heard s).tli.clash = s.tli.clash := by
  unfold heard; dsimp only; split <;> simp

@[simp] theorem heard_tli_counters  (s : State) : (heard s).tli.counters = s.tli.counters := by
  unfold heard; dsimp only; split <;> simp

@[simp] theorem addressClash_pending  (s : State) : (addressClash s).pending = s.pending := by
  unfold addressClash; dsimp only; split <;> simp

@[simp] theorem addressClash_ov  (s : State) : (addressClash s).ov = s.ov := by
  unfold addressClash; dsimp only; split <;> simp

@[simp] theorem addressClash_sv  (s : State) : (addressClash s).sv = s.sv := by
  unfold addressClash; dsimp only; split <;> simp

@[simp] theorem addressClash_tli_addr  (s : State) : (addressClash s).tli.addr = s.tli.addr := by
  unfold addressClash; dsimp only; split <;> simp

@[simp] theorem addressClash_tli_kind  (s : State) : (addressClash s).tli.kind = s.tli.kind := by
  unfold addressClash; dsimp only; split <;> simp

@[simp] theorem countMalformed_pending  (s : State) : (countMalformed s).pending = s.pending := by
  simp [countMalformed]

@[simp] theorem countMalformed_os  (s : State) : (countMalformed s).os = s.os := by
  simp [countMalformed]

@[simp] theorem countMalformed_ov  (s : State) : (countMalformed s).ov = s.ov := by
  simp [countMalformed]

@[simp] theorem countMalformed_ce  (s : State) : (countMalformed s).ce = s.ce := by
  simp [countMalformed]

@[simp] theorem countMalformed_pu  (s : State) : (countMalformed s).pu = s.pu := by
  simp [countMalformed]

@[simp] theorem countMalformed_eu  (s : State) : (countMalformed s).eu = s.eu := by
  simp [countMalformed]

@[simp] theorem countMalformed_cr  (s : State) : (countMalformed s).cr = s.cr := by
  simp [countMalformed]

@[simp] theorem countMalformed_ds  (s : State) : (countMalformed s).ds = s.ds := by
  simp [countMalformed]

@[simp] theorem countMalformed_cs  (s : State) : (countMalformed s).cs = s.cs := by
  simp [countMalformed]

@[simp] theorem countMalformed_sv  (s : State) : (countMalformed s).sv = s.sv := by
  simp [countMalformed]

@[simp] theorem countMalformed_pa  (s : State) : (countMalformed s).pa = s.pa := by
  simp [countMalformed]

@[simp] theorem countMalformed_ts  (s : State) : (countMalformed s).ts = s.ts := by
  simp [countMalformed]

@[simp] theorem countMalformed_tli_addr  (s : State) : (countMalformed s).tli.addr = s.tli.addr := by
  simp [countMalformed]

@[simp] theorem countMalformed_tli_kind  (s : State) : (countMalformed s).tli.kind = s.tli.kind := by
  simp [countMalformed]

@[simp] theorem countMalformed_tli_inbound  (s : State) : (countMalformed s).tli.inbound = s.tli.inbound := by
  simp [countMalformed]

@[simp] theorem countMalformed_tli_txq  (s : State) : (countMalformed s).tli.txq = s.tli.txq := by
  simp [countMalformed]

@[simp] theorem countMalformed_tli_clash  (s : State) : (countMalformed s).tli.clash = s.tli.clash := by
  simp [countMalformed]

@[simp] theorem countOverflow_pending  (s : State) : (countOverflow s).pending = s.pending := by
  simp [countOverflow]

@[simp] theorem countOverflow_os  (s : State) : (countOverflow s).os = s.os := by
  simp [countOverflow]

@[simp] theorem countOverflow_ov  (s : State) : (countOverflow s).ov = s.ov := by
  simp [countOverflow]

@[simp] theorem countOverflow_ce  (s : State) : (countOverflow s).ce = s.ce := by
  simp [countOverflow]

@[simp] theorem countOverflow_pu  (s : State) : (countOverflow s).pu = s.pu := by
  simp [countOverflow]

@[simp] theorem countOverflow_eu  (s : State) : (countOverflow s).eu = s.eu := by
  simp [countOverflow]

@[simp] theorem countOverflow_cr  (s : State) : (countOverflow s).cr = s.cr := by
  simp [countOverflow]

@[simp] theorem countOverflow_ds  (s : State) : (countOverflow s).ds = s.ds := by
  simp [countOverflow]

@[simp] theorem countOverflow_cs  (s : State) : (countOverflow s).cs = s.cs := by
  simp [countOverflow]

@[simp] theorem countOverflow_sv  (s : State) : (countOverflow s).sv = s.sv := by
  simp [countOverflow]

@[simp] theorem countOverflow_pa  (s : State) : (countOverflow s).pa = s.pa := by
  simp [countOverflow]

@[simp] theorem countOverflow_ts  (s : State) : (countOverflow s).ts = s.ts := by
  simp [countOverflow]

@[simp] theorem countOverflow_tli_addr  (s : State) : (countOverflow s).tli.addr = s.tli.addr := by
  simp [countOverflow]

@[simp] theorem countOverflow_tli_kind  (s : State) : (countOverflow s).tli.kind = s.tli.kind := by
  simp [countOverflow]

@[simp] theorem countOverflow_tli_inbound  (s : State) : (countOverflow s).tli.inbound = s.tli.inbound := by
  simp [countOverflow]

@[simp] theorem countOverflow_tli_txq  (s : State) : (countOverflow s).tli.txq = s.tli.txq := by
  simp [countOverflow]

@[simp] theorem countOverflow_tli_clash  (s : State) : (countOverflow s).tli.clash = s.tli.clash := by
  simp [countOverflow]

/-- What the handling of a frame keeps, if counting keeps it, and the frame's own effect, after an address clash too. -/
theorem hear_keeps (P : State → Prop) (valid : Bool) (src : Addr) (f : Seen) (act : State → State) (s : State)
    (hm : P (countMalformed s)) (hc : src = s.tli.addr → P (act (addressClash (watch src f (heard s)))))
    (ha : P (act (watch src f (heard s)))) : P (hear valid src f act s) := by
  unfold hear; dsimp only; repeat' split
  · exact hm
  · exact hc ‹_›
  · exact ha

/-- A valid frame from another station does what hearing it and its own effect do. -/
theorem hear_of_ne {src : Addr} {s : State} (f : Seen) (act : State → State) (h : src ≠ s.tli.addr) :
    hear true src f act s = act (watch src f (heard s)) := by
  simp [hear, h]

/-- A valid frame with the own address as sender has its own effect after the address clash (R183). -/
theorem hear_own (f : Seen) (act : State → State) (s : State) :
    hear true s.tli.addr f act s = act (addressClash (watch s.tli.addr f (heard s))) := by
  simp [hear]

/-- A frame that the Occupancy View is to see has its effect, or none (R21). -/
theorem toView_keeps (P : State → Prop) (src : Addr) (act : State → State) (s : State) (h : P s) (ha : P (act s)) :
    P (toView src act s) := by
  unfold toView; split <;> assumption

/-- A step of one personality keeps what its effect keeps and what standing still keeps. -/
theorem onKind_keeps (P : State → Prop) (k : Kind) (act : State → State) (s : State) (h : P s) (ha : P (act s)) :
    P (onKind k act s) := by
  unfold onKind; split <;> assumption

/-- What the judging of a request keeps, if counting, an address clash and the queueing keep it. -/
theorem arrive_keeps (P : State → Prop) (src : Addr) (req : Request) (s : State) (hm : ∀ t, P t → P (countMalformed t))
    (hc : P (addressClash (watch src .other (heard s)))) (ho : ∀ t, P t → P (countOverflow t))
    (hq : ∀ t, P t → P (t.setTli { t.tli with inbound := t.tli.inbound ++ [{ src := src, req := req }] }))
    (hw : P (watch src .other (heard s))) (h : P s) : P (arrive src req s) := by
  unfold arrive
  have judged (t : State) (ht : P t) : P (if !senderOk src req t then countMalformed t
      else if t.tli.inbound.length < Config.inboundCap then
        t.setTli { t.tli with inbound := t.tli.inbound ++ [{ src := src, req := req }] }
      else countOverflow t) := by
    repeat' split
    · exact hm _ ht
    · exact hq _ ht
    · exact ho _ ht
  exact hear_keeps P _ _ _ _ _ (hm _ h) (fun _ => judged _ hc) (judged _ hw)

@[simp] theorem arrive_pending (a : Addr) (r : Request) (s : State) : (arrive a r s).pending = s.pending :=
  arrive_keeps (fun t => t.pending = s.pending) a r s (by simp) (by simp) (by simp) (by simp) (by simp) rfl

@[simp] theorem arrive_tli_addr (a : Addr) (r : Request) (s : State) : (arrive a r s).tli.addr = s.tli.addr :=
  arrive_keeps (fun t => t.tli.addr = s.tli.addr) a r s (by simp) (by simp) (by simp) (by simp) (by simp) rfl

@[simp] theorem arrive_tli_kind (a : Addr) (r : Request) (s : State) : (arrive a r s).tli.kind = s.tli.kind :=
  arrive_keeps (fun t => t.tli.kind = s.tli.kind) a r s (by simp) (by simp) (by simp) (by simp) (by simp) rfl

/-- What a delivery keeps, if the arrival and the request's own effect keep it. -/
theorem deliver_keeps (P : State → Prop) (src : Addr) (req : Request) (act : State → State) (s : State) (h : P s)
    (harr : P (arrive src req s))
    (ha : ∀ t, P t → P (act (t.setTli { t.tli with inbound := t.tli.inbound.tail }))) :
    P (deliver src req act s) := by
  unfold deliver; dsimp only
  repeat' split
  all_goals first | exact ha _ ‹_› | assumption

/-! ## The REPORT of a STATION-RESET (R198) -/

@[simp] theorem resetReport_pending (b : Block) (s : State) : (resetReport b s).pending = s.pending := by
  unfold resetReport; dsimp only; split <;> simp

@[simp] theorem resetReport_os (b : Block) (s : State) : (resetReport b s).os = s.os := by
  unfold resetReport; dsimp only; split <;> simp

@[simp] theorem resetReport_ov (b : Block) (s : State) : (resetReport b s).ov = s.ov := by
  unfold resetReport; dsimp only; split <;> simp

@[simp] theorem resetReport_pu (b : Block) (s : State) : (resetReport b s).pu = s.pu := by
  unfold resetReport; dsimp only; split <;> simp

@[simp] theorem resetReport_eu (b : Block) (s : State) : (resetReport b s).eu = s.eu := by
  unfold resetReport; dsimp only; split <;> simp

@[simp] theorem resetReport_cr (b : Block) (s : State) : (resetReport b s).cr = s.cr := by
  unfold resetReport; dsimp only; split <;> simp

@[simp] theorem resetReport_ds (b : Block) (s : State) : (resetReport b s).ds = s.ds := by
  unfold resetReport; dsimp only; split <;> simp

@[simp] theorem resetReport_cs (b : Block) (s : State) : (resetReport b s).cs = s.cs := by
  unfold resetReport; dsimp only; split <;> simp

@[simp] theorem resetReport_sv (b : Block) (s : State) : (resetReport b s).sv = s.sv := by
  unfold resetReport; dsimp only; split <;> simp

@[simp] theorem resetReport_pa (b : Block) (s : State) : (resetReport b s).pa = s.pa := by
  unfold resetReport; dsimp only; split <;> simp

@[simp] theorem resetReport_ts (b : Block) (s : State) : (resetReport b s).ts = s.ts := by
  unfold resetReport; dsimp only; split <;> simp

@[simp] theorem resetReport_tli_clash (b : Block) (s : State) : (resetReport b s).tli.clash = false := by
  unfold resetReport; dsimp only; split <;> simp [resetTli]

@[simp] theorem resetReport_tli_inbound (b : Block) (s : State) : (resetReport b s).tli.inbound = [] := by
  unfold resetReport; dsimp only; split <;> simp [resetTli]

/-- Where no frame waits that must go first, the station sends the first in queue order (R189). -/
theorem nextIdx_of_plain {q : List TxEntry} (h : ∀ e ∈ q, e.tag ≠ .first) : nextIdx q = classIdx q := by
  have : q.findIdx? (fun e => decide (e.tag = .first)) = none := by simpa using h
  simp [nextIdx, this]

/-- While a frame waits that must go first, the station sends such a frame next, whatever its class (R198). -/
theorem nextIdx_of_first {q : List TxEntry} (h : ∃ e ∈ q, e.tag = .first) :
    ∃ i e, nextIdx q = some i ∧ q[i]? = some e ∧ e.tag = .first := by
  cases hf : q.findIdx? (fun e => decide (e.tag = .first)) with
  | none => simp only [List.findIdx?_eq_none_iff, decide_eq_false_iff_not] at hf; exact absurd h (by simpa using hf)
  | some i =>
    obtain ⟨hl, hp, -⟩ := List.findIdx?_eq_some_iff_getElem.mp hf
    exact ⟨i, q[i], by simp [nextIdx, hf], by simp [hl], by simpa using hp⟩

/-! ## A frame being sent at STATION-RESET (R180, R189) -/

@[simp] theorem finishing_frame (e : TxEntry) : (finishing e).frame = e.frame := rfl
@[simp] theorem finishing_sending (e : TxEntry) : (finishing e).sending = e.sending := rfl
@[simp] theorem finishing_withdrawn (e : TxEntry) : (finishing e).withdrawn = true := rfl

/-- Of the transmit queue a STATION-RESET leaves just the frames being sent, each marked as withdrawn. -/
theorem mem_resetTli_txq (t : Tli) (k : TxEntry) :
    k ∈ (resetTli t).txq ↔ ∃ e ∈ t.txq, e.sending = true ∧ finishing e = k := by
  simp [resetTli, and_assoc]

/-- A frame being sent stays in the queue as it is, whatever else is offered (R189, R190). -/
theorem offerPlain_keeps_sending {t : Tli} {k : TxEntry} (h : k ∈ t.txq) (hs : k.sending = true) (e : TxEntry) :
    k ∈ (offerPlain e t).txq := by
  unfold offerPlain
  repeat' split
  all_goals first | exact h | exact List.mem_append_left _ h | skip
  next i hi =>
    refine List.mem_append_left _ ?_
    obtain ⟨j, hj, rfl⟩ := List.getElem_of_mem h
    obtain ⟨hl, hp, -⟩ := List.findIdx?_eq_some_iff_getElem.mp hi
    refine List.mem_eraseIdx_iff_getElem.mpr ⟨j, hj, ?_, rfl⟩
    rintro rfl
    simp [hs] at hp

/-- The same for every frame offered, one that replaces its like too. -/
theorem offerTli_keeps_sending {t : Tli} {k : TxEntry} (h : k ∈ t.txq) (hs : k.sending = true) (e : TxEntry) :
    k ∈ (offerTli e t).txq := by
  unfold offerTli
  repeat' split
  all_goals first
    | exact h
    | exact offerPlain_keeps_sending h hs e
    | exact List.mem_map.mpr ⟨k, h, by simp [hs]⟩

end Sys2Proof.Machine
end

