-- ==== Sys2Proof/Laws/Queue.lean ====
section
/-! SUPPORT. How the places of the transmit queue that open are filled: the two helpers of `fill` and the relation of
Safety.lean it meets; the offer line that every operation leaves; the queue after the sending has stopped, and the refresh
that ends with its last frame. -/

namespace Sys2Proof.Machine

open Sys2Proof

/-- `oldestKept` finds the oldest frame a block keeps. -/
theorem oldestKept_eq_some (kept : List TxEntry) (b : Block) (i : Nat) :
    oldestKept kept b = some i ↔ ∃ k, isOldestKept kept b i k := by
  simp only [oldestKept, isOldestKept, List.findIdx?_eq_some_iff_getElem, List.mem_take_iff_getElem]
  constructor
  · rintro ⟨h, hb, hl⟩
    refine ⟨kept[i], by simp [h], by simpa using hb, ?_⟩
    rintro l ⟨m, hm, rfl⟩
    simpa using hl m (by omega)
  · rintro ⟨k, hk, hb, hl⟩
    obtain ⟨hi, rfl⟩ := List.getElem?_eq_some_iff.mp hk
    exact ⟨hi, by simpa using hb, fun m hm => by simpa using hl _ ⟨m, by omega, rfl⟩⟩

/-- `oldestKept` finds none just where the block keeps no frame. -/
theorem oldestKept_eq_none (kept : List TxEntry) (b : Block) :
    oldestKept kept b = none ↔ ∀ k ∈ kept, k.block ≠ b := by
  simp [oldestKept]

/-- The next place goes to no block just where no block of the line keeps a frame. -/
theorem nextPlace_eq_none (t : Tli) :
    nextPlace t = none ↔ ∀ b ∈ t.offerLine, ∀ k ∈ t.kept, k.block ≠ b := by
  simp only [nextPlace, List.findSome?_eq_none_iff, Option.map_eq_none_iff, oldestKept_eq_none]

/-- The next place goes to the first block of the line that keeps a frame, for its oldest. -/
theorem nextPlace_eq_some (t : Tli) (b : Block) (i : Nat) :
    nextPlace t = some (b, i) ↔ ∃ pre post k, t.offerLine = pre ++ b :: post ∧
      (∀ c ∈ pre, ∀ l ∈ t.kept, l.block ≠ c) ∧ isOldestKept t.kept b i k := by
  simp only [nextPlace, List.findSome?_eq_some_iff, Option.map_eq_some_iff, Option.map_eq_none_iff, Prod.mk.injEq,
    oldestKept_eq_none, oldestKept_eq_some]
  constructor
  · rintro ⟨pre, a, post, h, ⟨_, ⟨k, hk⟩, rfl, rfl⟩, h2⟩
    exact ⟨pre, post, k, h, h2, hk⟩
  · rintro ⟨pre, post, k, h, h2, hk⟩
    exact ⟨pre, b, post, h, ⟨i, ⟨k, hk⟩, rfl, rfl⟩, h2⟩

/-- Placing a block's oldest kept frame, by the line before and behind the block. -/
theorem placeKept_eq (t : Tli) (pre post : List Block) (b : Block) (i : Nat) (k : TxEntry)
    (h : t.offerLine = pre ++ b :: post) (hp : ∀ c ∈ pre, ∀ l ∈ t.kept, l.block ≠ c) (hk : isOldestKept t.kept b i k) :
    placeKept b i t = { t with txq := t.txq ++ [k], kept := t.kept.eraseIdx i, offerLine := pre ++ post } := by
  have hb : b ∉ pre := fun hm => hp b hm k (List.mem_of_getElem? hk.1) hk.2.1
  simp only [placeKept, hk.1, Option.toList_some, h, List.erase_append_right _ hb, List.erase_cons_head]

/-- `fill` fills the places as R190 says, whatever the queue holds. -/
theorem refilled_iff (t u : Tli) : Refilled t u ↔ u = fill t := by
  have key (n : Nat) (t : Tli) : 10 ≤ n + t.txq.length → Refilled t (fillLoop n t) := by
    induction n generalizing t with
    | zero => intro h; exact .done t (.inl (by omega))
    | succ n ih =>
      intro h
      unfold fillLoop
      split
      · rename_i hl
        split
        · rename_i hn
          exact .done t (.inr ((nextPlace_eq_none t).mp hn))
        · rename_i b i hn
          obtain ⟨pre, post, k, ho, hp, hk⟩ := (nextPlace_eq_some t b i).mp hn
          have hq := placeKept_eq t pre post b i k ho hp hk
          refine .place t _ pre post b i k hl ho hp hk ?_
          rw [← hq]
          refine ih _ ?_
          rw [hq]; simp; omega
      · rename_i hl
        exact .done t (.inl (by simpa [Config.txCap] using hl))
  have uniq (n : Nat) (t u : Tli) (h : Refilled t u) : 10 ≤ n + t.txq.length → u = fillLoop n t := by
    induction h generalizing n with
    | done t hd =>
      intro hn
      cases n with
      | zero => rfl
      | succ n =>
        unfold fillLoop
        split
        · rename_i hl
          rw [(nextPlace_eq_none t).mpr (hd.resolve_left (by simp [Config.txCap] at hl; omega))]
        · rfl
    | place t u pre post b i k hl ho hp hk _ ih =>
      intro hn
      cases n with
      | zero => omega
      | succ n =>
        have hq := placeKept_eq t pre post b i k ho hp hk
        unfold fillLoop
        rw [if_pos (by simpa [Config.txCap] using hl), (nextPlace_eq_some t b i).mpr ⟨pre, post, k, ho, hp, hk⟩]
        simp only [hq]
        exact ih n (by simp; omega)
  constructor
  · exact fun h => uniq _ t u h (by simp [Config.txCap])
  · rintro rfl
    exact key _ t (by simp [Config.txCap])

/-! ## The offer line -/

/-- From a line with one place for each frame kept, the places that open are filled in the order in which the frames were
kept, and the line is left so (R190; assumption 16). -/
theorem fill_line (t : Tli) (h : t.offerLine = t.kept.map TxEntry.block) :
    OfferLineInv (fill t) ∧ (fill t).txq ++ (fill t).kept = t.txq ++ t.kept := by
  have key (n : Nat) (t : Tli) (hn : 10 ≤ n + t.txq.length) (h : t.offerLine = t.kept.map TxEntry.block) :
      OfferLineInv (fillLoop n t) ∧ (fillLoop n t).txq ++ (fillLoop n t).kept = t.txq ++ t.kept := by
    induction n generalizing t with
    | zero => exact ⟨⟨h, fun _ => by simpa [fillLoop] using hn⟩, rfl⟩
    | succ n ih =>
      unfold fillLoop
      split
      · cases hk : t.kept with
        | nil =>
          have hp : nextPlace t = none := (nextPlace_eq_none t).mpr (by simp [hk])
          simp only [hp]
          exact ⟨⟨h, fun hne => absurd hk hne⟩, by rw [hk]⟩
        | cons k ks =>
          have hp : nextPlace t = some (k.block, 0) := (nextPlace_eq_some t _ _).mpr
            ⟨[], ks.map TxEntry.block, k, by simp [h, hk], by simp, by simp [isOldestKept, hk]⟩
          simp only [hp]
          obtain ⟨h1, h2⟩ := ih (placeKept k.block 0 t) (by simp [placeKept, hk]; omega) (by simp [placeKept, h, hk])
          exact ⟨h1, by rw [h2]; simp [placeKept, hk]⟩
      · rename_i hl
        exact ⟨⟨h, fun _ => by simpa [Config.txCap] using hl⟩, rfl⟩
  exact key _ t (by simp [Config.txCap]) h

/-- An edit of the CLAIMs, or a withdrawal, leaves the line with one place for each frame still kept. -/
theorem editClaims_line (segs : List Seg) (t : Tli) : OfferLineInv (editClaims segs t) := (fill_line _ rfl).1

theorem withdrawSpanFrames_line (segs : List Seg) (t : Tli) : OfferLineInv (withdrawSpanFrames segs t) := (fill_line _ rfl).1

/-- So does the end of a sending. -/
theorem waitAgain_line (t : Tli) (h : OfferLineInv t) : OfferLineInv (waitAgain t) := by
  unfold waitAgain; apply And.left; exact fill_line _ (by exact h.1)

/-- An offer keeps the line: a frame is kept only while the queue holds 10, and its block joins with it. -/
theorem offerTli_line (e : TxEntry) (t : Tli) (h : OfferLineInv t) : OfferLineInv (offerTli e t) := by
  have plain : OfferLineInv (offerPlain e t) := by
    have full : t.txq.length < 10 → t.kept = [] := fun hl => by
      by_contra hk; exact absurd (h.2 hk) (by omega)
    unfold offerPlain
    split
    · split
      · rename_i hl
        exact ⟨h.1, fun hk => absurd (full hl) hk⟩
      · exact h
    · split
      · rename_i hw
        have hk : t.kept ≠ [] := by rintro hk; simp [waitsBehind, hk] at hw
        exact ⟨by simp [keepFrame, h.1], fun _ => h.2 hk⟩
      · split
        · rename_i hl
          exact ⟨h.1, fun hk => absurd (full hl) hk⟩
        · rename_i hl
          have hl : 10 ≤ t.txq.length := by simpa [Config.txCap] using hl
          split
          · rename_i i hi
            have hi := (List.findIdx?_eq_some_iff_getElem.mp hi).1
            exact ⟨h.1, fun _ => by simp [List.length_eraseIdx, hi]; omega⟩
          · exact ⟨by simp [keepFrame, h.1], fun _ => hl⟩
  unfold offerTli
  split
  · exact h
  · split
    · split
      · exact ⟨h.1, fun hk => by simpa using h.2 hk⟩
      · split
        · exact h
        · exact plain
    · split
      · exact ⟨h.1, fun hk => by simpa using h.2 hk⟩
      · split
        · exact h
        · exact plain
    · exact plain

/-! ## The end of a sending -/

/-- The whole queue as the sending stops is, entry by entry, what stands in each one's place. -/
theorem waitAgain_eq (t : Tli) (ls : List (List TxEntry)) (h : List.Forall₂ (waitsAs t) t.txq ls) :
    waitAgain t = fill { t with
      txq := ls.flatten,
      keptPosition := if ∃ k ∈ t.txq, k.sending = true ∧ isPosition k = true then none else t.keptPosition,
      keptPoints := if ∃ k ∈ t.txq, k.sending = true ∧ isPeriodicPoints k = true then none else t.keptPoints } := by
  have key : ∀ (q : List TxEntry) (ls : List (List TxEntry)), List.Forall₂ (waitsAs t) q ls →
      ls.flatten = q.filterMap (fun e => if !e.sending then some e
        else match keptLike t e with
          | some f => some { e with sending := false, cut := [], withdrawn := false, frame := f }
          | none => if e.withdrawn then none else cutClaim e.cut { e with sending := false, cut := [] }) := by
    intro q ls h
    induction h with
    | nil => rfl
    | @cons k l q ls hk _ ih =>
      rw [List.flatten_cons, ih, List.filterMap_cons]
      rcases hk with ⟨h1, rfl⟩ | ⟨h1, ⟨m, n, h2, h3, rfl⟩ | ⟨m, n, h2, h4, h3, rfl⟩ | ⟨h2, h3, h4⟩⟩
      · simp [h1]
      · simp [h1, keptLike, h2, h3]
      · simp [h1, keptLike, h2, h3, h4]
      · have hn : keptLike t k = none := by
          unfold keptLike
          cases hf : k.frame <;> simp [isPosition, isPeriodicPoints, hf] at *
          · exact h3
          · exact h2
        rcases h4 with ⟨h5, rfl⟩ | ⟨h5, h6, rfl⟩ | ⟨c, p, is, h5, h6, rfl⟩
        · simp [h1, hn, h5]
        · have hc : cutClaim k.cut { k with sending := false, cut := [], withdrawn := false } =
              some { k with sending := false, cut := [], withdrawn := false } := by
            unfold cutClaim; cases hf : k.frame <;> simp [hf] at *
          simp [h1, hn, h5, hc]
        · have hc : cutClaim k.cut { k with sending := false, cut := [], withdrawn := false } =
              if ∀ i ∈ is, i.seg ∈ k.cut then none
              else some { k with sending := false, cut := [], withdrawn := false,
                                 frame := .claim c p (is.filter (fun i => decide (i.seg ∉ k.cut))) } := by
            simp [cutClaim, h6]
          by_cases h7 : ∀ i ∈ is, i.seg ∈ k.cut
          · rw [if_pos h7] at hc ⊢
            simp [h1, hn, h5, hc]
          · rw [if_neg h7] at hc ⊢
            simp [h1, hn, h5, hc]
  rw [key _ _ h]
  unfold waitAgain
  simp only [List.any_eq_true, Bool.and_eq_true] <;> rfl

/-- The refresh is settled from the queue as it stands. -/
theorem settleRefresh_eq (s : State) : settleRefresh s = s.setCe (refreshSettled s.tli.txq s.ce) := by
  unfold settleRefresh refreshSettled
  by_cases h : s.ce.refreshOut = true ∧ ∀ k ∈ s.tli.txq, k.tag ≠ .refresh
  · rw [if_pos h, if_pos (by simpa [List.any_eq_false] using h)]
  · rw [if_neg h, if_neg (by simpa [List.any_eq_false] using h)]
    rfl

end Sys2Proof.Machine
end

