-- ==== Sys2Proof/Laws/Frames.lean ====
section
/-! SUPPORT. The frames that wait, of Safety.lean: what an offer adds to those of a block, that the filling of places and the
edits of CLAIMs leave them alone, and the frames of a release step. -/

namespace Sys2Proof.Machine

open Sys2Proof

/-! ## Lists -/

theorem filter_eraseIdx {α : Type} (p : α → Bool) (l : List α) (i : Nat) (h : ∀ x, l[i]? = some x → p x = false) :
    (l.eraseIdx i).filter p = l.filter p := by
  induction l generalizing i with
  | nil => rfl
  | cons a l ih =>
    cases i with
    | zero => simp [h a (by simp)]
    | succ i => simp [List.filter_cons, ih i (by simpa using h)]

/-- An edit that changes no element of a kind, and makes none of it, leaves those of the kind. -/
theorem filter_filterMap_of_fixed {α : Type} (p : α → Bool) (f : α → Option α) (l : List α)
    (h : ∀ x ∈ l, (f x).filter p = (some x).filter p) : (l.filterMap f).filter p = l.filter p := by
  induction l with
  | nil => rfl
  | cons a l ih =>
    have ha := h a (by simp)
    have ih := ih (fun x hx => h x (by simp [hx]))
    cases hf : f a <;> cases hp : p a <;> simp [hf, hp, Option.filter, List.filter_cons] at ha ⊢ <;>
      try split at ha
    all_goals simp_all

theorem filter_map_of_fixed {α : Type} (p : α → Bool) (f : α → α) (l : List α)
    (h : ∀ x ∈ l, (some (f x)).filter p = (some x).filter p) : (l.map f).filter p = l.filter p := by
  rw [← List.filterMap_eq_map]
  exact filter_filterMap_of_fixed p _ l h

/-- The first element of a kind goes from one list to the end of the list before it. -/
theorem filter_move {α : Type} (p : α → Bool) (q l : List α) (i : Nat) (k : α) (hk : l[i]? = some k)
    (h : ∀ x ∈ l.take i, p k = true → p x = false) : (q ++ ([k] ++ l.eraseIdx i)).filter p = (q ++ l).filter p := by
  induction l generalizing i with
  | nil => simp at hk
  | cons a l ih =>
    cases i with
    | zero => simp at hk; simp [hk]
    | succ i =>
      have ih := ih i (by simpa using hk) (fun x hx => h x (by simp [hx]))
      have ha := h a (by simp)
      cases hp : p k <;> simp_all [List.filter_cons]

/-- The pieces of a list cut by 4. -/
theorem chunk4_eq {α : Type} (l : List α) :
    chunk4 l = (List.range ((l.length + 3) / 4)).map (fun j => (l.drop (4 * j)).take 4) := by
  induction l using chunk4.induct with
  | case1 a b c d rest ih =>
    have h : ((a :: b :: c :: d :: rest).length + 3) / 4 = (rest.length + 3) / 4 + 1 := by simp; omega
    rw [h, List.range_succ_eq_map, List.map_cons, List.map_map, chunk4, ih]
    simp [Nat.mul_add, Function.comp_def]
  | case2 => simp [chunk4]
  | case3 l h1 h2 =>
    have h3 : l ≠ [] := by simpa using h2
    match l, h1, h3 with
    | [a], _, _ => simp [chunk4]
    | [a, b], _, _ => simp [chunk4]
    | [a, b, c], _, _ => simp [chunk4]
    | a :: b :: c :: d :: rest, h1, _ => exact absurd rfl (h1 a b c d rest)

/-- `nub` lists what the list holds, each once. -/
theorem nub_spec (l : List Nat) : (nub l).Nodup ∧ ∀ n, n ∈ nub l ↔ n ∈ l := by
  have key (l acc : List Nat) (h : acc.Nodup) :
      (l.foldl (fun acc a => if a ∈ acc then acc else acc ++ [a]) acc).Nodup ∧
        ∀ n, n ∈ l.foldl (fun acc a => if a ∈ acc then acc else acc ++ [a]) acc ↔ n ∈ acc ∨ n ∈ l := by
    induction l generalizing acc with
    | nil => simpa using h
    | cons a l ih =>
      rw [List.foldl_cons]
      split
      · rename_i ha
        obtain ⟨h1, h2⟩ := ih acc h
        refine ⟨h1, fun n => ?_⟩
        rw [h2, List.mem_cons]
        constructor
        · tauto
        · rintro (hn | rfl | hn) <;> tauto
      · rename_i ha
        obtain ⟨h1, h2⟩ := ih (acc ++ [a]) (by simp [List.nodup_append, h]; rintro b hb rfl; exact ha hb)
        exact ⟨h1, fun n => by rw [h2]; simp [or_assoc]⟩
  obtain ⟨h1, h2⟩ := key l [] (by simp)
  exact ⟨h1, fun n => by simpa [nub] using h2 n⟩

/-! ## The transmit queue -/

/-- The filling of places leaves the frames of each block in their order. -/
theorem lastingOf_fill (b : Block) (t : Tli) : lastingOf b (fill t) = lastingOf b t := by
  have key (n : Nat) (t : Tli) : lastingOf b (fillLoop n t) = lastingOf b t := by
    induction n generalizing t with
    | zero => rfl
    | succ n ih =>
      unfold fillLoop
      split
      · split
        · rfl
        · rename_i c i hn
          rw [ih]
          obtain ⟨-, -, k, -, -, hk, hb, hl⟩ := (nextPlace_eq_some t c i).mp hn
          unfold lastingOf placeKept
          simp only [hk, Option.toList_some, List.append_assoc]
          exact filter_move _ _ _ _ _ hk (fun l h1 h2 => by
            simp only [Bool.and_eq_true, decide_eq_true_eq] at h2
            simp only [Bool.and_eq_false_iff, decide_eq_false_iff_not]
            exact .inr (fun e => hl l h1 (by rw [e, ← h2.2, hb])))
      · rfl
  exact key _ t

/-- A CLAIM edited is a CLAIM still, or gone; any other frame stays as it is. -/
theorem lastingOf_editClaims (b : Block) (segs : List Seg) (t : Tli) : lastingOf b (editClaims segs t) = lastingOf b t := by
  have h (l : List TxEntry) : (l.filterMap (cutClaim segs)).filter (fun e => lasting e && decide (e.block = b)) =
      l.filter (fun e => lasting e && decide (e.block = b)) := by
    refine filter_filterMap_of_fixed _ _ _ (fun x _ => ?_)
    unfold cutClaim
    split
    · rename_i h
      split
      · simp [lasting, h, Option.filter]
      · simp only; split <;> simp [lasting, h, Option.filter]
    · rfl
  unfold editClaims
  rw [lastingOf_fill]
  simp [lastingOf, pruneLine, List.filter_append, h]

theorem lastingOf_withdrawSpanFrames (b : Block) (segs : List Seg) (t : Tli) :
    lastingOf b (withdrawSpanFrames segs t) = lastingOf b t := by
  have hs (e : TxEntry) (h : isSpanFrame segs e = true) : lasting e = false := by
    unfold isSpanFrame at h; unfold lasting
    cases hg : e.tag <;> simp [hg] at h ⊢
  have hf (p : TxEntry → Bool) (l : List TxEntry) (hp : ∀ e, p e = false → isSpanFrame segs e = true) :
      (l.filter p).filter (fun e => lasting e && decide (e.block = b)) =
        l.filter (fun e => lasting e && decide (e.block = b)) := by
    rw [List.filter_filter]
    refine List.filter_congr (fun e _ => ?_)
    cases hpe : p e
    · simp [hs e (hp e hpe)]
    · simp
  unfold withdrawSpanFrames
  rw [lastingOf_fill]
  simp only [lastingOf, pruneLine, List.filter_append]
  rw [filter_map_of_fixed, hf, hf]
  · simp
  · intro e; cases isSpanFrame segs e <;> simp
  · intro e _
    split
    · rename_i h
      have h' := hs e h
      simp only [Option.filter]
      simp [h', show lasting { e with withdrawn := true } = false from h']
    · rfl

/-- An offer adds a lasting frame to those of its block, at their end, and leaves those of every other block (R190). -/
theorem lastingOf_offerTli (b : Block) (e : TxEntry) (t : Tli) (h : t.clash = false) :
    lastingOf b (offerTli e t) = lastingOf b t ++ (if lasting e ∧ e.block = b then [e] else []) := by
  have plain : lastingOf b (offerPlain e t) = lastingOf b t ++ (if lasting e ∧ e.block = b then [e] else []) := by
    unfold offerPlain
    split
    · rename_i hp
      have hl : lasting e = false := by simp [lasting, hp]
      split <;> simp [lastingOf, hl]
    · split
      · simp [keepFrame, lastingOf, List.filter_cons]
      · rename_i hw
        have hk : e.block = b → t.kept.filter (fun e => lasting e && decide (e.block = b)) = [] := by
          rintro rfl
          simp only [List.filter_eq_nil_iff]; intro k hm
          simp only [waitsBehind, Bool.not_eq_true, List.any_eq_false, decide_eq_true_eq] at hw
          simp [hw k hm]
        split
        · by_cases hb : e.block = b
          · simp [lastingOf, List.filter_cons, hb, hk hb]
          · simp [lastingOf, hb]
        · split
          · rename_i i hi
            obtain ⟨hi1, hi2, -⟩ := List.findIdx?_eq_some_iff_getElem.mp hi
            have he := filter_eraseIdx (fun e => lasting e && decide (e.block = b)) t.txq i (by
              intro x hx
              obtain ⟨_, rfl⟩ := List.getElem?_eq_some_iff.mp hx
              simp only [Bool.and_eq_true] at hi2
              simp [lasting, hi2.1])
            by_cases hb : e.block = b
            · simp [lastingOf, List.filter_cons, hb, hk hb, he]
            · simp [lastingOf, hb, he]
          · simp [keepFrame, lastingOf, List.filter_cons]
  unfold offerTli
  rw [if_neg (by simp [h])]
  split
  · rename_i n hn
    have hl : lasting e = false := by simp [lasting, hn]
    split
    · simp only [lastingOf, List.filter_append]
      rw [filter_map_of_fixed]
      · simp [hl]
      · intro x _
        split
        · rename_i hx
          have : lasting x = false := by
            simp only [isPosition, Bool.and_eq_true] at hx
            unfold lasting; split at hx <;> simp_all
          have hx2 : lasting { x with frame := .position n } = false := by simp [lasting]
          simp [Option.filter, this, hx2]
        · rfl
    · split
      · simp [lastingOf, hl]
      · exact plain
  · rename_i n hn
    split
    · rename_i hp
      have hl : lasting e = false := by simp only [Bool.and_eq_true] at hp; simp [lasting, hp.1]
      simp only [lastingOf, List.filter_append]
      rw [filter_map_of_fixed]
      · simp [hl]
      · intro x _
        split
        · rename_i hx
          have hx1 : x.periodic = true := by
            simp only [isPeriodicPoints, Bool.and_eq_true] at hx
            split at hx <;> simp_all
          simp [Option.filter, lasting, hx1]
        · rfl
    · split
      · rename_i hp
        have hl : lasting e = false := by simp only [Bool.and_eq_true] at hp; simp [lasting, hp.1]
        simp [lastingOf, hl]
      · exact plain
  · exact plain

/-! ## The operations -/

/-- What an offer adds to the frames of a block that wait; while the clash flag is set it adds nothing (R183, R190). -/
theorem waiting_offer (b c : Block) (p : Bool) (g : TxTag) (f : Frame) (s : State) :
    waiting b (offer c p g f s).tli = waiting b s.tli ++
      if s.tli.clash = false ∧ c = b ∧
        lasting { frame := f, block := c, periodic := p, tag := g, sending := false, cut := [], withdrawn := false } = true
      then [f] else [] := by
  unfold waiting offer
  rw [settleRefresh_tli]
  cases h : s.tli.clash
  · simp only [State.setTli_tli]
    rw [lastingOf_offerTli _ _ _ h]
    by_cases hb : c = b
    · subst hb; split <;> simp_all
    · simp [hb]
  · simp [offerTli, h]

@[simp] theorem waiting_queuePosition (b : Block) (s : State) : waiting b (queuePosition s).tli = waiting b s.tli := by
  unfold queuePosition
  split
  · rfl
  · simp [waiting_offer, lasting]

@[simp] theorem waiting_queueClaim (b : Block) (g : TxTag) (c : Nat) (l : List OwnClaim) (s : State) :
    waiting b (queueClaim g c l s).tli = waiting b s.tli := by
  unfold queueClaim
  split
  · rfl
  · simp [waiting_offer, lasting]

@[simp] theorem waiting_setOwn (b : Block) (l : List OwnClaim) (s : State) :
    waiting b (setOwn l s).tli = waiting b s.tli := by
  unfold setOwn
  dsimp only
  split
  · simp [refirm]
  · simp [refirm]

/-- A REPORT waits behind the frames its block has queued before (R190, R193). -/
theorem waiting_report (b c : Block) (u : Subject) (o : ReportOutcome) (n : Nat) (d : Addr) (s : State)
    (hc : s.tli.clash = false) (hd : console s = some d) :
    waiting b (report c u o n s).tli =
      waiting b s.tli ++ if c = b then [.report d { subject := u, outcome := o, oid := n }] else [] := by
  simp [report, hd, waiting_offer, hc, lasting]

theorem waiting_report_of_ne (b c : Block) (u : Subject) (o : ReportOutcome) (n : Nat) (s : State) (h : c ≠ b) :
    waiting b (report c u o n s).tli = waiting b s.tli := by
  unfold report
  split
  · rfl
  · simp [waiting_offer, h]

/-- What a run of frames of the Claim Engine adds (R67). -/
theorem waiting_foldl_offer {α : Type} (f : α → Frame) (l : List α) (s : State) (hc : s.tli.clash = false)
    (hf : ∀ a, lasting { frame := f a, block := .ce, periodic := false, tag := .plain, sending := false, cut := [],
                         withdrawn := false } = true) :
    waiting .ce (l.foldl (fun t a => offer .ce false .plain (f a) t) s).tli = waiting .ce s.tli ++ l.map f := by
  induction l generalizing s with
  | nil => simp
  | cons a l ih =>
    rw [List.foldl_cons, ih _ (by simp [hc]), waiting_offer, if_pos ⟨hc, rfl, hf a⟩]
    simp

theorem waiting_foldl_offer_of_ne {α : Type} (b : Block) (hb : b ≠ .ce) (f : α → Frame) (l : List α) (s : State) :
    waiting b (l.foldl (fun t a => offer .ce false .plain (f a) t) s).tli = waiting b s.tli := by
  induction l generalizing s with
  | nil => rfl
  | cons a l ih => rw [List.foldl_cons, ih, waiting_offer]; simp [hb.symm]

/-- One step of R67 queues the RELEASEs, and after them the POINTS-FREEs. -/
theorem waiting_releaseStep (gone named : List Seg) (frees : List Addr) (s : State) (hc : s.tli.clash = false) :
    waiting .ce (releaseStep gone named frees s).tli =
      waiting .ce s.tli ++ (chunk4 named).map Frame.release ++ (nub frees).map Frame.pointsFree := by
  have h0 : waiting .ce (editClaims gone (setOwn (s.ce.own.filter (fun e => decide (e.seg ∉ gone))) s).tli) =
      waiting .ce s.tli := by
    rw [waiting, lastingOf_editClaims, ← waiting, waiting_setOwn]
  unfold releaseStep queueFrees queueReleases
  dsimp only
  rw [waiting_foldl_offer _ _ _ _ (fun _ => rfl), waiting_foldl_offer _ _ _ _ (fun _ => rfl), settleRefresh_tli,
    State.setTli_tli, h0]
  · simp [hc]
  · simp [← queueReleases.eq_1, hc]

theorem waiting_releaseStep_of_ne (b : Block) (hb : b ≠ .ce) (gone named : List Seg) (frees : List Addr) (s : State) :
    waiting b (releaseStep gone named frees s).tli = waiting b s.tli := by
  unfold releaseStep queueFrees queueReleases
  dsimp only
  rw [waiting_foldl_offer_of_ne b hb, waiting_foldl_offer_of_ne b hb, settleRefresh_tli, State.setTli_tli, waiting,
    lastingOf_editClaims, ← waiting, waiting_setOwn]

/-- Own entries released leave with the frames of one release step (R67). -/
theorem releaseOwn_releasedWith (gone : List Seg) (s : State) (hc : s.tli.clash = false) :
    releasedWith (ownOf gone s) [] s (releaseOwn gone s) := by
  refine ⟨nub ((ownOf gone s).filterMap freeNode), (nub_spec _).1, fun n => ?_, ?_⟩
  · rw [(nub_spec _).2, List.mem_filterMap]
    refine exists_congr (fun e => and_congr_right (fun _ => ?_))
    unfold freeNode
    cases hp : e.points with
    | none => simp
    | some p => cases hs : p.status <;> simp [hs]
  · unfold releaseOwn
    dsimp only
    split
    · rename_i h
      simp only [List.isEmpty_iff] at h
      simp [h, nub]
    · rw [waiting_releaseStep _ _ _ _ hc, chunk4_eq]
      simp [Function.comp_def]

theorem waiting_releaseOwn_of_ne (b : Block) (hb : b ≠ .ce) (gone : List Seg) (s : State) :
    waiting b (releaseOwn gone s).tli = waiting b s.tli := by
  unfold releaseOwn
  dsimp only
  split
  · rfl
  · exact waiting_releaseStep_of_ne b hb _ _ _ s

/-- Of a list that names no segment twice, the entries on the segments of a part are that part. -/
theorem ownOf_part (l m n : List OwnClaim) (s : State) (h : s.ce.own = l ++ m ++ n) (hd : (s.ce.own.map OwnClaim.seg).Nodup) :
    ownOf (m.map OwnClaim.seg) s = m := by
  rw [h] at hd
  simp only [List.map_append, List.nodup_append, List.mem_append, List.mem_map, ne_eq, forall_exists_index, and_imp] at hd
  have hl : l.filter (fun e => decide (e.seg ∈ m.map OwnClaim.seg)) = [] := by
    simp only [List.filter_eq_nil_iff, decide_eq_true_eq, List.mem_map]
    rintro e he ⟨f, hf, hs⟩
    exact hd.1.2.2 _ e he rfl _ f hf hs rfl
  have hn : n.filter (fun e => decide (e.seg ∈ m.map OwnClaim.seg)) = [] := by
    simp only [List.filter_eq_nil_iff, decide_eq_true_eq, List.mem_map]
    rintro e he ⟨f, hf, hs⟩
    exact hd.2.2 _ (.inr ⟨f, hf, rfl⟩) _ e he rfl hs
  have hm : m.filter (fun e => decide (e.seg ∈ m.map OwnClaim.seg)) = m := by
    rw [List.filter_eq_self]
    intro e he
    simpa using ⟨e, he, rfl⟩
  simp only [ownOf, h, List.filter_append, hl, hm, hn, List.nil_append, List.append_nil]

/-- The claims ahead of the head, where the list names no segment twice (R65). -/
theorem aheadSegs_eq (before after : List OwnClaim) (o : OwnClaim) (s : State) (h : s.ce.own = before ++ o :: after)
    (hd : (s.ce.own.map OwnClaim.seg).Nodup) (ho : o.seg = (headPos s).1) : aheadSegs s = after.map OwnClaim.seg := by
  have hi : s.ce.own.findIdx? (fun e => decide (e.seg = (headPos s).1)) = some before.length := by
    rw [List.findIdx?_eq_some_iff_getElem]
    refine ⟨by simp [h], by simp [h, ho], fun j hj => ?_⟩
    rw [h] at hd
    simp only [List.map_append, List.nodup_append] at hd
    have := hd.2.2 (before[j].seg) (by simp; exact ⟨_, List.getElem_mem hj, rfl⟩) o.seg (by simp)
    simp [h, List.getElem_append_left hj]
    rw [← ho]; exact this
  unfold aheadSegs
  simp only [hi]
  simp [h]

@[simp] theorem waiting_enterState (b : Block) (st : CarState) (s : State) :
    waiting b (enterState st s).tli = waiting b s.tli := by
  unfold enterState
  split
  · rfl
  · simp only [waiting_queuePosition]
    split <;> split <;> rfl

@[simp] theorem waiting_makeStanding (b : Block) (s : State) : waiting b (makeStanding s).tli = waiting b s.tli := by
  unfold makeStanding
  dsimp only
  split <;> simp

/-- The end of the span in flight concerns the frames of the Claim Engine alone. -/
theorem waiting_endSpan_of_ne (b : Block) (hb : b ≠ .ce) (more : List Seg) (s : State) :
    waiting b (endSpan more s).tli = waiting b s.tli := by
  unfold endSpan
  split
  · exact waiting_releaseOwn_of_ne b hb more s
  · simp only [State.setCe_tli]
    rw [show ∀ k t, (setNextClaim k t).tli = t.tli from fun k t => by unfold setNextClaim; split <;> rfl,
      waiting_releaseStep_of_ne b hb, State.setTli_tli, waiting, lastingOf_withdrawSpanFrames, ← waiting]

/-- With no span in flight an order leaves the slot and no frame is queued. -/
theorem waiting_orderLeaves (b : Block) (s : State) (h : s.ce.span = none) :
    waiting b (orderLeaves s).tli = waiting b s.tli := by
  have h1 : endSpan [] s = s := by simp [endSpan, h, releaseOwn, ownOf]
  unfold orderLeaves
  simp only [h1]
  have h2 : ∀ t, (toEndForm t).tli = t.tli := fun t => by unfold toEndForm; split <;> rfl
  show waiting b (toEndForm _).tli = _
  rw [h2]
  split <;> rfl

theorem waiting_orderLeaves_of_ne (b : Block) (hb : b ≠ .ce) (s : State) :
    waiting b (orderLeaves s).tli = waiting b s.tli := by
  unfold orderLeaves
  have h2 : ∀ t, (toEndForm t).tli = t.tli := fun t => by unfold toEndForm; split <;> rfl
  show waiting b (toEndForm _).tli = _
  rw [h2]
  split <;> exact waiting_endSpan_of_ne b hb [] s

end Sys2Proof.Machine
end

