-- ==== Sys2Proof/Laws/Kept.lean ====
section
/-! SUPPORT. What no movement, ending or fault changes: the target, the permit and the gust input of the Envelope Unit, and the
commissioning, the console and the set halt latch of the Carriage Supervisor. -/

namespace Sys2Proof.Machine

open Sys2Proof

@[simp] theorem enterState_eu_target (c : CarState) (s : State) : (enterState c s).eu.target = s.eu.target := by
  unfold enterState; split
  · rfl
  · simp only; repeat' split
    all_goals simp

@[simp] theorem enterState_eu_permit (c : CarState) (s : State) : (enterState c s).eu.permit = s.eu.permit := by
  unfold enterState; split
  · rfl
  · simp only; repeat' split
    all_goals simp

@[simp] theorem enterState_eu_gust (c : CarState) (s : State) : (enterState c s).eu.gust = s.eu.gust := by
  unfold enterState; split
  · rfl
  · simp only; repeat' split
    all_goals simp

@[simp] theorem orderLeaves_eu_target  (s : State) : (orderLeaves s).eu.target = s.eu.target := by
  unfold orderLeaves; simp only; split <;> simp

@[simp] theorem orderLeaves_eu_permit  (s : State) : (orderLeaves s).eu.permit = s.eu.permit := by
  unfold orderLeaves; simp only; split <;> simp

@[simp] theorem orderLeaves_eu_gust  (s : State) : (orderLeaves s).eu.gust = s.eu.gust := by
  unfold orderLeaves; simp only; split <;> simp

@[simp] theorem firstFault_eu_target (c : FaultCode) (g : Seg) (m : Mm) (s : State) : (firstFault c g m s).eu.target = s.eu.target := by
  unfold firstFault; simp only; repeat' split
  all_goals simp

@[simp] theorem firstFault_eu_permit (c : FaultCode) (g : Seg) (m : Mm) (s : State) : (firstFault c g m s).eu.permit = s.eu.permit := by
  unfold firstFault; simp only; repeat' split
  all_goals simp

@[simp] theorem firstFault_eu_gust (c : FaultCode) (g : Seg) (m : Mm) (s : State) : (firstFault c g m s).eu.gust = s.eu.gust := by
  unfold firstFault; simp only; repeat' split
  all_goals simp

@[simp] theorem firstFault_cs_comm (c : FaultCode) (g : Seg) (m : Mm) (s : State) : (firstFault c g m s).cs.comm = s.cs.comm := by
  unfold firstFault; simp only; repeat' split
  all_goals simp

@[simp] theorem firstFault_cs_console (c : FaultCode) (g : Seg) (m : Mm) (s : State) : (firstFault c g m s).cs.console = s.cs.console := by
  unfold firstFault; simp only; repeat' split
  all_goals simp

@[simp] theorem firstFault_cs_latch (c : FaultCode) (g : Seg) (m : Mm) (s : State) : (firstFault c g m s).cs.latch = s.cs.latch := by
  unfold firstFault; simp only; repeat' split
  all_goals simp

@[simp] theorem furtherFault_cs_comm (c : FaultCode) (s : State) : (furtherFault c s).cs.comm = s.cs.comm := by
  unfold furtherFault; simp only; split <;> simp

@[simp] theorem furtherFault_cs_console (c : FaultCode) (s : State) : (furtherFault c s).cs.console = s.cs.console := by
  unfold furtherFault; simp only; split <;> simp

@[simp] theorem furtherFault_cs_latch (c : FaultCode) (s : State) : (furtherFault c s).cs.latch = s.cs.latch := by
  unfold furtherFault; simp only; split <;> simp

@[simp] theorem raiseFaultAt_eu_target (c : FaultCode) (g : Seg) (m : Mm) (s : State) : (raiseFaultAt c g m s).eu.target = s.eu.target := by
  unfold raiseFaultAt; split <;> simp

@[simp] theorem raiseFaultAt_eu_permit (c : FaultCode) (g : Seg) (m : Mm) (s : State) : (raiseFaultAt c g m s).eu.permit = s.eu.permit := by
  unfold raiseFaultAt; split <;> simp

@[simp] theorem raiseFaultAt_eu_gust (c : FaultCode) (g : Seg) (m : Mm) (s : State) : (raiseFaultAt c g m s).eu.gust = s.eu.gust := by
  unfold raiseFaultAt; split <;> simp

@[simp] theorem raiseFaultAt_cs_comm (c : FaultCode) (g : Seg) (m : Mm) (s : State) : (raiseFaultAt c g m s).cs.comm = s.cs.comm := by
  unfold raiseFaultAt; split <;> simp

@[simp] theorem raiseFaultAt_cs_console (c : FaultCode) (g : Seg) (m : Mm) (s : State) : (raiseFaultAt c g m s).cs.console = s.cs.console := by
  unfold raiseFaultAt; split <;> simp

@[simp] theorem raiseFaultAt_cs_latch (c : FaultCode) (g : Seg) (m : Mm) (s : State) : (raiseFaultAt c g m s).cs.latch = s.cs.latch := by
  unfold raiseFaultAt; split <;> simp

@[simp] theorem raiseFault_eu_target (c : FaultCode) (s : State) : (raiseFault c s).eu.target = s.eu.target := by
  simp [raiseFault]

@[simp] theorem raiseFault_eu_permit (c : FaultCode) (s : State) : (raiseFault c s).eu.permit = s.eu.permit := by
  simp [raiseFault]

@[simp] theorem raiseFault_eu_gust (c : FaultCode) (s : State) : (raiseFault c s).eu.gust = s.eu.gust := by
  simp [raiseFault]

@[simp] theorem raiseFault_cs_comm (c : FaultCode) (s : State) : (raiseFault c s).cs.comm = s.cs.comm := by
  simp [raiseFault]

@[simp] theorem raiseFault_cs_console (c : FaultCode) (s : State) : (raiseFault c s).cs.console = s.cs.console := by
  simp [raiseFault]

@[simp] theorem raiseFault_cs_latch (c : FaultCode) (s : State) : (raiseFault c s).cs.latch = s.cs.latch := by
  simp [raiseFault]

@[simp] theorem raiseClash_eu_target (v : Addr) (g : Seg) (s : State) : (raiseClash v g s).eu.target = s.eu.target := by
  unfold raiseClash; split <;> simp

@[simp] theorem raiseClash_eu_permit (v : Addr) (g : Seg) (s : State) : (raiseClash v g s).eu.permit = s.eu.permit := by
  unfold raiseClash; split <;> simp

@[simp] theorem raiseClash_eu_gust (v : Addr) (g : Seg) (s : State) : (raiseClash v g s).eu.gust = s.eu.gust := by
  unfold raiseClash; split <;> simp

@[simp] theorem raiseClash_cs_comm (v : Addr) (g : Seg) (s : State) : (raiseClash v g s).cs.comm = s.cs.comm := by
  unfold raiseClash; split <;> simp

@[simp] theorem raiseClash_cs_console (v : Addr) (g : Seg) (s : State) : (raiseClash v g s).cs.console = s.cs.console := by
  unfold raiseClash; split <;> simp

@[simp] theorem raiseClash_cs_latch (v : Addr) (g : Seg) (s : State) : (raiseClash v g s).cs.latch = s.cs.latch := by
  unfold raiseClash; split <;> simp

@[simp] theorem forgetFault_cs_comm  (s : State) : (forgetFault s).cs.comm = s.cs.comm := by
  simp [forgetFault]

@[simp] theorem forgetFault_cs_console  (s : State) : (forgetFault s).cs.console = s.cs.console := by
  simp [forgetFault]

@[simp] theorem forgetFault_cs_latch  (s : State) : (forgetFault s).cs.latch = s.cs.latch := by
  simp [forgetFault]

@[simp] theorem enterParked_eu_target  (s : State) : (enterParked s).eu.target = s.eu.target := by
  simp [enterParked]

@[simp] theorem enterParked_eu_permit  (s : State) : (enterParked s).eu.permit = s.eu.permit := by
  simp [enterParked]

@[simp] theorem enterParked_eu_gust  (s : State) : (enterParked s).eu.gust = s.eu.gust := by
  simp [enterParked]

@[simp] theorem enterParked_cs_comm  (s : State) : (enterParked s).cs.comm = s.cs.comm := by
  simp [enterParked]

@[simp] theorem enterParked_cs_console  (s : State) : (enterParked s).cs.console = s.cs.console := by
  simp [enterParked]

@[simp] theorem enterParked_cs_latch  (s : State) : (enterParked s).cs.latch = s.cs.latch := by
  simp [enterParked]

@[simp] theorem enterUnlocated_eu_target  (s : State) : (enterUnlocated s).eu.target = s.eu.target := by
  simp [enterUnlocated]

@[simp] theorem enterUnlocated_eu_permit  (s : State) : (enterUnlocated s).eu.permit = s.eu.permit := by
  simp [enterUnlocated]

@[simp] theorem enterUnlocated_eu_gust  (s : State) : (enterUnlocated s).eu.gust = s.eu.gust := by
  simp [enterUnlocated]

@[simp] theorem enterUnlocated_cs_comm  (s : State) : (enterUnlocated s).cs.comm = s.cs.comm := by
  simp [enterUnlocated]

@[simp] theorem enterUnlocated_cs_console  (s : State) : (enterUnlocated s).cs.console = s.cs.console := by
  simp [enterUnlocated]

@[simp] theorem enterUnlocated_cs_latch  (s : State) : (enterUnlocated s).cs.latch = s.cs.latch := by
  simp [enterUnlocated]

@[simp] theorem inputFaults_eu_target  (s : State) : (inputFaults s).eu.target = s.eu.target := by
  unfold inputFaults; simp only; repeat' split
  all_goals simp

@[simp] theorem inputFaults_eu_permit  (s : State) : (inputFaults s).eu.permit = s.eu.permit := by
  unfold inputFaults; simp only; repeat' split
  all_goals simp

@[simp] theorem inputFaults_eu_gust  (s : State) : (inputFaults s).eu.gust = s.eu.gust := by
  unfold inputFaults; simp only; repeat' split
  all_goals simp

@[simp] theorem inputFaults_cs_comm  (s : State) : (inputFaults s).cs.comm = s.cs.comm := by
  unfold inputFaults; simp only; repeat' split
  all_goals simp

@[simp] theorem inputFaults_cs_console  (s : State) : (inputFaults s).cs.console = s.cs.console := by
  unfold inputFaults; simp only; repeat' split
  all_goals simp

@[simp] theorem inputFaults_cs_latch  (s : State) : (inputFaults s).cs.latch = s.cs.latch := by
  unfold inputFaults; simp only; repeat' split
  all_goals simp

@[simp] theorem overrunTest_eu_target  (s : State) : (overrunTest s).eu.target = s.eu.target := by
  unfold overrunTest; repeat' split
  all_goals simp

@[simp] theorem overrunTest_eu_permit  (s : State) : (overrunTest s).eu.permit = s.eu.permit := by
  unfold overrunTest; repeat' split
  all_goals simp

@[simp] theorem overrunTest_eu_gust  (s : State) : (overrunTest s).eu.gust = s.eu.gust := by
  unfold overrunTest; repeat' split
  all_goals simp

@[simp] theorem overrunTest_cs_comm  (s : State) : (overrunTest s).cs.comm = s.cs.comm := by
  unfold overrunTest; repeat' split
  all_goals simp

@[simp] theorem overrunTest_cs_console  (s : State) : (overrunTest s).cs.console = s.cs.console := by
  unfold overrunTest; repeat' split
  all_goals simp

@[simp] theorem overrunTest_cs_latch  (s : State) : (overrunTest s).cs.latch = s.cs.latch := by
  unfold overrunTest; repeat' split
  all_goals simp

@[simp] theorem padWatch_eu_target  (s : State) : (padWatch s).eu.target = s.eu.target := by
  unfold padWatch; repeat' split
  all_goals simp

@[simp] theorem padWatch_eu_permit  (s : State) : (padWatch s).eu.permit = s.eu.permit := by
  unfold padWatch; repeat' split
  all_goals simp

@[simp] theorem padWatch_eu_gust  (s : State) : (padWatch s).eu.gust = s.eu.gust := by
  unfold padWatch; repeat' split
  all_goals simp

@[simp] theorem padWatch_cs_comm  (s : State) : (padWatch s).cs.comm = s.cs.comm := by
  unfold padWatch; repeat' split
  all_goals simp

@[simp] theorem padWatch_cs_console  (s : State) : (padWatch s).cs.console = s.cs.console := by
  unfold padWatch; repeat' split
  all_goals simp

@[simp] theorem padWatch_cs_latch  (s : State) : (padWatch s).cs.latch = s.cs.latch := by
  unfold padWatch; repeat' split
  all_goals simp

@[simp] theorem leaveUndocking_eu_target  (s : State) : (leaveUndocking s).eu.target = s.eu.target := by
  unfold leaveUndocking; simp only; split <;> simp

@[simp] theorem leaveUndocking_eu_permit  (s : State) : (leaveUndocking s).eu.permit = s.eu.permit := by
  unfold leaveUndocking; simp only; split <;> simp

@[simp] theorem leaveUndocking_eu_gust  (s : State) : (leaveUndocking s).eu.gust = s.eu.gust := by
  unfold leaveUndocking; simp only; split <;> simp

@[simp] theorem leaveUndocking_cs_comm  (s : State) : (leaveUndocking s).cs.comm = s.cs.comm := by
  unfold leaveUndocking; simp only; split <;> simp

@[simp] theorem leaveUndocking_cs_console  (s : State) : (leaveUndocking s).cs.console = s.cs.console := by
  unfold leaveUndocking; simp only; split <;> simp

@[simp] theorem leaveUndocking_cs_latch  (s : State) : (leaveUndocking s).cs.latch = s.cs.latch := by
  unfold leaveUndocking; simp only; split <;> simp

@[simp] theorem startUndocking_eu_target  (s : State) : (startUndocking s).eu.target = s.eu.target := by
  unfold startUndocking; simp only; repeat' split
  all_goals simp

@[simp] theorem startUndocking_eu_permit  (s : State) : (startUndocking s).eu.permit = s.eu.permit := by
  unfold startUndocking; simp only; repeat' split
  all_goals simp

@[simp] theorem startUndocking_eu_gust  (s : State) : (startUndocking s).eu.gust = s.eu.gust := by
  unfold startUndocking; simp only; repeat' split
  all_goals simp

@[simp] theorem startUndocking_cs_comm  (s : State) : (startUndocking s).cs.comm = s.cs.comm := by
  unfold startUndocking; simp only; repeat' split
  all_goals simp

@[simp] theorem startUndocking_cs_console  (s : State) : (startUndocking s).cs.console = s.cs.console := by
  unfold startUndocking; simp only; repeat' split
  all_goals simp

@[simp] theorem startUndocking_cs_latch  (s : State) : (startUndocking s).cs.latch = s.cs.latch := by
  unfold startUndocking; simp only; repeat' split
  all_goals simp

@[simp] theorem beginOrder_eu_target (o : OrderRec) (s : State) : (beginOrder o s).eu.target = s.eu.target := by
  unfold beginOrder; split
  · simp only; repeat' split
    all_goals simp
  · rfl

@[simp] theorem beginOrder_eu_permit (o : OrderRec) (s : State) : (beginOrder o s).eu.permit = s.eu.permit := by
  unfold beginOrder; split
  · simp only; repeat' split
    all_goals simp
  · rfl

@[simp] theorem beginOrder_eu_gust (o : OrderRec) (s : State) : (beginOrder o s).eu.gust = s.eu.gust := by
  unfold beginOrder; split
  · simp only; repeat' split
    all_goals simp
  · rfl

@[simp] theorem beginOrder_cs_comm (o : OrderRec) (s : State) : (beginOrder o s).cs.comm = s.cs.comm := by
  unfold beginOrder; split
  · simp only; repeat' split
    all_goals simp
  · rfl

@[simp] theorem beginOrder_cs_console (o : OrderRec) (s : State) : (beginOrder o s).cs.console = s.cs.console := by
  unfold beginOrder; split
  · simp only; repeat' split
    all_goals simp
  · rfl

@[simp] theorem beginOrder_cs_latch (o : OrderRec) (s : State) : (beginOrder o s).cs.latch = s.cs.latch := by
  unfold beginOrder; split
  · simp only; repeat' split
    all_goals simp
  · rfl

@[simp] theorem startActive_eu_target (n : Nat) (s : State) : (startActive n s).eu.target = s.eu.target := by
  induction n generalizing s with
  | zero => rfl
  | succ n ih => unfold startActive; split
                 · rfl
                 · split
                   · simp
                   · dsimp only; split <;> simp [ih]

@[simp] theorem startActive_eu_permit (n : Nat) (s : State) : (startActive n s).eu.permit = s.eu.permit := by
  induction n generalizing s with
  | zero => rfl
  | succ n ih => unfold startActive; split
                 · rfl
                 · split
                   · simp
                   · dsimp only; split <;> simp [ih]

@[simp] theorem startActive_eu_gust (n : Nat) (s : State) : (startActive n s).eu.gust = s.eu.gust := by
  induction n generalizing s with
  | zero => rfl
  | succ n ih => unfold startActive; split
                 · rfl
                 · split
                   · simp
                   · dsimp only; split <;> simp [ih]

@[simp] theorem startActive_cs_comm (n : Nat) (s : State) : (startActive n s).cs.comm = s.cs.comm := by
  induction n generalizing s with
  | zero => rfl
  | succ n ih => unfold startActive; split
                 · rfl
                 · split
                   · simp
                   · dsimp only; split <;> simp [ih]

@[simp] theorem startActive_cs_console (n : Nat) (s : State) : (startActive n s).cs.console = s.cs.console := by
  induction n generalizing s with
  | zero => rfl
  | succ n ih => unfold startActive; split
                 · rfl
                 · split
                   · simp
                   · dsimp only; split <;> simp [ih]

@[simp] theorem startActive_cs_latch (n : Nat) (s : State) : (startActive n s).cs.latch = s.cs.latch := by
  induction n generalizing s with
  | zero => rfl
  | succ n ih => unfold startActive; split
                 · rfl
                 · split
                   · simp
                   · dsimp only; split <;> simp [ih]

@[simp] theorem promote_eu_target  (s : State) : (promote s).eu.target = s.eu.target := by
  unfold promote; split
  · rfl
  · simp only; split <;> simp

@[simp] theorem promote_eu_permit  (s : State) : (promote s).eu.permit = s.eu.permit := by
  unfold promote; split
  · rfl
  · simp only; split <;> simp

@[simp] theorem promote_eu_gust  (s : State) : (promote s).eu.gust = s.eu.gust := by
  unfold promote; split
  · rfl
  · simp only; split <;> simp

@[simp] theorem promote_cs_comm  (s : State) : (promote s).cs.comm = s.cs.comm := by
  unfold promote; split
  · rfl
  · simp only; split <;> simp

@[simp] theorem promote_cs_console  (s : State) : (promote s).cs.console = s.cs.console := by
  unfold promote; split
  · rfl
  · simp only; split <;> simp

@[simp] theorem promote_cs_latch  (s : State) : (promote s).cs.latch = s.cs.latch := by
  unfold promote; split
  · rfl
  · simp only; split <;> simp

@[simp] theorem endOrder_eu_target (r : ReportOutcome) (a p : Bool) (s : State) : (endOrder r a p s).eu.target = s.eu.target := by
  unfold endOrder; split
  · rfl
  · simp only; repeat' split
    all_goals simp

@[simp] theorem endOrder_eu_permit (r : ReportOutcome) (a p : Bool) (s : State) : (endOrder r a p s).eu.permit = s.eu.permit := by
  unfold endOrder; split
  · rfl
  · simp only; repeat' split
    all_goals simp

@[simp] theorem endOrder_eu_gust (r : ReportOutcome) (a p : Bool) (s : State) : (endOrder r a p s).eu.gust = s.eu.gust := by
  unfold endOrder; split
  · rfl
  · simp only; repeat' split
    all_goals simp

@[simp] theorem endOrder_cs_comm (r : ReportOutcome) (a p : Bool) (s : State) : (endOrder r a p s).cs.comm = s.cs.comm := by
  unfold endOrder; split
  · rfl
  · simp only; repeat' split
    all_goals simp

@[simp] theorem endOrder_cs_console (r : ReportOutcome) (a p : Bool) (s : State) : (endOrder r a p s).cs.console = s.cs.console := by
  unfold endOrder; split
  · rfl
  · simp only; repeat' split
    all_goals simp

@[simp] theorem endOrder_cs_latch (r : ReportOutcome) (a p : Bool) (s : State) : (endOrder r a p s).cs.latch = s.cs.latch := by
  unfold endOrder; split
  · rfl
  · simp only; repeat' split
    all_goals simp

@[simp] theorem dockDone_eu_target  (s : State) : (dockDone s).eu.target = s.eu.target := by
  simp [dockDone]

@[simp] theorem dockDone_eu_permit  (s : State) : (dockDone s).eu.permit = s.eu.permit := by
  simp [dockDone]

@[simp] theorem dockDone_eu_gust  (s : State) : (dockDone s).eu.gust = s.eu.gust := by
  simp [dockDone]

@[simp] theorem dockDone_cs_comm  (s : State) : (dockDone s).cs.comm = s.cs.comm := by
  simp [dockDone]

@[simp] theorem dockDone_cs_console  (s : State) : (dockDone s).cs.console = s.cs.console := by
  simp [dockDone]

@[simp] theorem dockDone_cs_latch  (s : State) : (dockDone s).cs.latch = s.cs.latch := by
  simp [dockDone]

@[simp] theorem startDocking_eu_target  (s : State) : (startDocking s).eu.target = s.eu.target := by
  unfold startDocking; simp only; split <;> simp

@[simp] theorem startDocking_eu_permit  (s : State) : (startDocking s).eu.permit = s.eu.permit := by
  unfold startDocking; simp only; split <;> simp

@[simp] theorem startDocking_eu_gust  (s : State) : (startDocking s).eu.gust = s.eu.gust := by
  unfold startDocking; simp only; split <;> simp

@[simp] theorem startDocking_cs_comm  (s : State) : (startDocking s).cs.comm = s.cs.comm := by
  unfold startDocking; simp only; split <;> simp

@[simp] theorem startDocking_cs_console  (s : State) : (startDocking s).cs.console = s.cs.console := by
  unfold startDocking; simp only; split <;> simp

@[simp] theorem startDocking_cs_latch  (s : State) : (startDocking s).cs.latch = s.cs.latch := by
  unfold startDocking; simp only; split <;> simp

@[simp] theorem undockDone_eu_target  (s : State) : (undockDone s).eu.target = s.eu.target := by
  unfold undockDone; split <;> simp

@[simp] theorem undockDone_eu_permit  (s : State) : (undockDone s).eu.permit = s.eu.permit := by
  unfold undockDone; split <;> simp

@[simp] theorem undockDone_eu_gust  (s : State) : (undockDone s).eu.gust = s.eu.gust := by
  unfold undockDone; split <;> simp

@[simp] theorem undockDone_cs_comm  (s : State) : (undockDone s).cs.comm = s.cs.comm := by
  unfold undockDone; split <;> simp

@[simp] theorem undockDone_cs_console  (s : State) : (undockDone s).cs.console = s.cs.console := by
  unfold undockDone; split <;> simp

@[simp] theorem undockDone_cs_latch  (s : State) : (undockDone s).cs.latch = s.cs.latch := by
  unfold undockDone; split <;> simp

@[simp] theorem alignmentCheck_eu_target  (s : State) : (alignmentCheck s).eu.target = s.eu.target := by
  unfold alignmentCheck; repeat' split
  all_goals simp

@[simp] theorem alignmentCheck_eu_permit  (s : State) : (alignmentCheck s).eu.permit = s.eu.permit := by
  unfold alignmentCheck; repeat' split
  all_goals simp

@[simp] theorem alignmentCheck_eu_gust  (s : State) : (alignmentCheck s).eu.gust = s.eu.gust := by
  unfold alignmentCheck; repeat' split
  all_goals simp

@[simp] theorem alignmentCheck_cs_comm  (s : State) : (alignmentCheck s).cs.comm = s.cs.comm := by
  unfold alignmentCheck; repeat' split
  all_goals simp

@[simp] theorem alignmentCheck_cs_console  (s : State) : (alignmentCheck s).cs.console = s.cs.console := by
  unfold alignmentCheck; repeat' split
  all_goals simp

@[simp] theorem alignmentCheck_cs_latch  (s : State) : (alignmentCheck s).cs.latch = s.cs.latch := by
  unfold alignmentCheck; repeat' split
  all_goals simp

@[simp] theorem restEvent_eu_target  (s : State) : (restEvent s).eu.target = s.eu.target := by
  unfold restEvent; simp only; repeat' split
  all_goals simp

@[simp] theorem restEvent_eu_permit  (s : State) : (restEvent s).eu.permit = s.eu.permit := by
  unfold restEvent; simp only; repeat' split
  all_goals simp

@[simp] theorem restEvent_eu_gust  (s : State) : (restEvent s).eu.gust = s.eu.gust := by
  unfold restEvent; simp only; repeat' split
  all_goals simp

@[simp] theorem restEvent_cs_comm  (s : State) : (restEvent s).cs.comm = s.cs.comm := by
  unfold restEvent; simp only; repeat' split
  all_goals simp

@[simp] theorem restEvent_cs_console  (s : State) : (restEvent s).cs.console = s.cs.console := by
  unfold restEvent; simp only; repeat' split
  all_goals simp

@[simp] theorem restEvent_cs_latch  (s : State) : (restEvent s).cs.latch = s.cs.latch := by
  unfold restEvent; simp only; repeat' split
  all_goals simp

@[simp] theorem routeBlocked_eu_target  (s : State) : (routeBlocked s).eu.target = s.eu.target := by
  unfold routeBlocked; split
  · rfl
  · simp only; split <;> simp

@[simp] theorem routeBlocked_eu_permit  (s : State) : (routeBlocked s).eu.permit = s.eu.permit := by
  unfold routeBlocked; split
  · rfl
  · simp only; split <;> simp

@[simp] theorem routeBlocked_eu_gust  (s : State) : (routeBlocked s).eu.gust = s.eu.gust := by
  unfold routeBlocked; split
  · rfl
  · simp only; split <;> simp

@[simp] theorem routeBlocked_cs_comm  (s : State) : (routeBlocked s).cs.comm = s.cs.comm := by
  unfold routeBlocked; split
  · rfl
  · simp only; split <;> simp

@[simp] theorem routeBlocked_cs_console  (s : State) : (routeBlocked s).cs.console = s.cs.console := by
  unfold routeBlocked; split
  · rfl
  · simp only; split <;> simp

@[simp] theorem routeBlocked_cs_latch  (s : State) : (routeBlocked s).cs.latch = s.cs.latch := by
  unfold routeBlocked; split
  · rfl
  · simp only; split <;> simp

@[simp] theorem countAttempt_eu_target (r : AbortReason) (n : Nat) (s : State) : (countAttempt r n s).eu.target = s.eu.target := by
  unfold countAttempt; dsimp only; split <;> split <;> simp

@[simp] theorem countAttempt_eu_permit (r : AbortReason) (n : Nat) (s : State) : (countAttempt r n s).eu.permit = s.eu.permit := by
  unfold countAttempt; dsimp only; split <;> split <;> simp

@[simp] theorem countAttempt_eu_gust (r : AbortReason) (n : Nat) (s : State) : (countAttempt r n s).eu.gust = s.eu.gust := by
  unfold countAttempt; dsimp only; split <;> split <;> simp

@[simp] theorem countAttempt_cs_comm (r : AbortReason) (n : Nat) (s : State) : (countAttempt r n s).cs.comm = s.cs.comm := by
  unfold countAttempt; dsimp only; split <;> split <;> simp

@[simp] theorem countAttempt_cs_console (r : AbortReason) (n : Nat) (s : State) : (countAttempt r n s).cs.console = s.cs.console := by
  unfold countAttempt; dsimp only; split <;> split <;> simp

@[simp] theorem countAttempt_cs_latch (r : AbortReason) (n : Nat) (s : State) : (countAttempt r n s).cs.latch = s.cs.latch := by
  unfold countAttempt; dsimp only; split <;> split <;> simp

@[simp] theorem spanAbort_eu_target (r : AbortReason) (g : Seg) (v : Addr) (s : State) : (spanAbort r g v s).eu.target = s.eu.target := by
  unfold spanAbort; split
  · rfl
  · simp only; split <;> simp

@[simp] theorem spanAbort_eu_permit (r : AbortReason) (g : Seg) (v : Addr) (s : State) : (spanAbort r g v s).eu.permit = s.eu.permit := by
  unfold spanAbort; split
  · rfl
  · simp only; split <;> simp

@[simp] theorem spanAbort_eu_gust (r : AbortReason) (g : Seg) (v : Addr) (s : State) : (spanAbort r g v s).eu.gust = s.eu.gust := by
  unfold spanAbort; split
  · rfl
  · simp only; split <;> simp

@[simp] theorem spanAbort_cs_comm (r : AbortReason) (g : Seg) (v : Addr) (s : State) : (spanAbort r g v s).cs.comm = s.cs.comm := by
  unfold spanAbort; split
  · rfl
  · simp only; split <;> simp

@[simp] theorem spanAbort_cs_console (r : AbortReason) (g : Seg) (v : Addr) (s : State) : (spanAbort r g v s).cs.console = s.cs.console := by
  unfold spanAbort; split
  · rfl
  · simp only; split <;> simp

@[simp] theorem spanAbort_cs_latch (r : AbortReason) (g : Seg) (v : Addr) (s : State) : (spanAbort r g v s).cs.latch = s.cs.latch := by
  unfold spanAbort; split
  · rfl
  · simp only; split <;> simp

@[simp] theorem takeLocation_eu_target (h : HeldLoc) (s : State) : (takeLocation h s).eu.target = s.eu.target := by
  unfold takeLocation
  simp only [inputFaults_eu_target]
  have inner (e : OwnClaim) (l : List ClaimEntry) (t : State) (ht : t.eu.target = s.eu.target) :
      (l.foldl (fun u c => raiseClash c.holder e.seg u) t).eu.target = s.eu.target := by
    induction l generalizing t with
    | nil => exact ht
    | cons a l ih => exact ih _ (by simpa using ht)
  have outer (own : List OwnClaim) (g : OwnClaim → List ClaimEntry) (t : State) (ht : t.eu.target = s.eu.target) :
      (own.foldl (fun t e => (g e).foldl (fun u c => raiseClash c.holder e.seg u) t) t).eu.target = s.eu.target := by
    induction own generalizing t with
    | nil => exact ht
    | cons a own ih => exact ih _ (inner a _ t ht)
  exact outer _ _ _ (by simp)

@[simp] theorem takeLocation_eu_permit (h : HeldLoc) (s : State) : (takeLocation h s).eu.permit = s.eu.permit := by
  unfold takeLocation
  simp only [inputFaults_eu_permit]
  have inner (e : OwnClaim) (l : List ClaimEntry) (t : State) (ht : t.eu.permit = s.eu.permit) :
      (l.foldl (fun u c => raiseClash c.holder e.seg u) t).eu.permit = s.eu.permit := by
    induction l generalizing t with
    | nil => exact ht
    | cons a l ih => exact ih _ (by simpa using ht)
  have outer (own : List OwnClaim) (g : OwnClaim → List ClaimEntry) (t : State) (ht : t.eu.permit = s.eu.permit) :
      (own.foldl (fun t e => (g e).foldl (fun u c => raiseClash c.holder e.seg u) t) t).eu.permit = s.eu.permit := by
    induction own generalizing t with
    | nil => exact ht
    | cons a own ih => exact ih _ (inner a _ t ht)
  exact outer _ _ _ (by simp)

@[simp] theorem takeLocation_eu_gust (h : HeldLoc) (s : State) : (takeLocation h s).eu.gust = s.eu.gust := by
  unfold takeLocation
  simp only [inputFaults_eu_gust]
  have inner (e : OwnClaim) (l : List ClaimEntry) (t : State) (ht : t.eu.gust = s.eu.gust) :
      (l.foldl (fun u c => raiseClash c.holder e.seg u) t).eu.gust = s.eu.gust := by
    induction l generalizing t with
    | nil => exact ht
    | cons a l ih => exact ih _ (by simpa using ht)
  have outer (own : List OwnClaim) (g : OwnClaim → List ClaimEntry) (t : State) (ht : t.eu.gust = s.eu.gust) :
      (own.foldl (fun t e => (g e).foldl (fun u c => raiseClash c.holder e.seg u) t) t).eu.gust = s.eu.gust := by
    induction own generalizing t with
    | nil => exact ht
    | cons a own ih => exact ih _ (inner a _ t ht)
  exact outer _ _ _ (by simp)

@[simp] theorem takeLocation_cs_comm (h : HeldLoc) (s : State) : (takeLocation h s).cs.comm = s.cs.comm := by
  unfold takeLocation
  simp only [inputFaults_cs_comm]
  have inner (e : OwnClaim) (l : List ClaimEntry) (t : State) (ht : t.cs.comm = s.cs.comm) :
      (l.foldl (fun u c => raiseClash c.holder e.seg u) t).cs.comm = s.cs.comm := by
    induction l generalizing t with
    | nil => exact ht
    | cons a l ih => exact ih _ (by simpa using ht)
  have outer (own : List OwnClaim) (g : OwnClaim → List ClaimEntry) (t : State) (ht : t.cs.comm = s.cs.comm) :
      (own.foldl (fun t e => (g e).foldl (fun u c => raiseClash c.holder e.seg u) t) t).cs.comm = s.cs.comm := by
    induction own generalizing t with
    | nil => exact ht
    | cons a own ih => exact ih _ (inner a _ t ht)
  exact outer _ _ _ (by simp)

@[simp] theorem takeLocation_cs_console (h : HeldLoc) (s : State) : (takeLocation h s).cs.console = s.cs.console := by
  unfold takeLocation
  simp only [inputFaults_cs_console]
  have inner (e : OwnClaim) (l : List ClaimEntry) (t : State) (ht : t.cs.console = s.cs.console) :
      (l.foldl (fun u c => raiseClash c.holder e.seg u) t).cs.console = s.cs.console := by
    induction l generalizing t with
    | nil => exact ht
    | cons a l ih => exact ih _ (by simpa using ht)
  have outer (own : List OwnClaim) (g : OwnClaim → List ClaimEntry) (t : State) (ht : t.cs.console = s.cs.console) :
      (own.foldl (fun t e => (g e).foldl (fun u c => raiseClash c.holder e.seg u) t) t).cs.console = s.cs.console := by
    induction own generalizing t with
    | nil => exact ht
    | cons a own ih => exact ih _ (inner a _ t ht)
  exact outer _ _ _ (by simp)

@[simp] theorem takeLocation_cs_latch (h : HeldLoc) (s : State) : (takeLocation h s).cs.latch = s.cs.latch := by
  unfold takeLocation
  simp only [inputFaults_cs_latch]
  have inner (e : OwnClaim) (l : List ClaimEntry) (t : State) (ht : t.cs.latch = s.cs.latch) :
      (l.foldl (fun u c => raiseClash c.holder e.seg u) t).cs.latch = s.cs.latch := by
    induction l generalizing t with
    | nil => exact ht
    | cons a l ih => exact ih _ (by simpa using ht)
  have outer (own : List OwnClaim) (g : OwnClaim → List ClaimEntry) (t : State) (ht : t.cs.latch = s.cs.latch) :
      (own.foldl (fun t e => (g e).foldl (fun u c => raiseClash c.holder e.seg u) t) t).cs.latch = s.cs.latch := by
    induction own generalizing t with
    | nil => exact ht
    | cons a own ih => exact ih _ (inner a _ t ht)
  exact outer _ _ _ (by simp)

@[simp] theorem tryLocate_eu_target  (s : State) : (tryLocate s).eu.target = s.eu.target := by
  unfold tryLocate; split
  · rfl
  · split <;> simp

@[simp] theorem tryLocate_eu_permit  (s : State) : (tryLocate s).eu.permit = s.eu.permit := by
  unfold tryLocate; split
  · rfl
  · split <;> simp

@[simp] theorem tryLocate_eu_gust  (s : State) : (tryLocate s).eu.gust = s.eu.gust := by
  unfold tryLocate; split
  · rfl
  · split <;> simp

@[simp] theorem tryLocate_cs_comm  (s : State) : (tryLocate s).cs.comm = s.cs.comm := by
  unfold tryLocate; split
  · rfl
  · split <;> simp

@[simp] theorem tryLocate_cs_console  (s : State) : (tryLocate s).cs.console = s.cs.console := by
  unfold tryLocate; split
  · rfl
  · split <;> simp

@[simp] theorem tryLocate_cs_latch  (s : State) : (tryLocate s).cs.latch = s.cs.latch := by
  unfold tryLocate; split
  · rfl
  · split <;> simp

end Sys2Proof.Machine
end

