-- ==== Sys2Proof/Laws/Safety.lean ====
section
/-! SUPPORT. The conditions of Safety.lean in a form that is decided on a concrete state, and the shared operations that the
view of a CLAIM and the stop target of Safety.lean describe. -/

namespace Sys2Proof.Machine

open Sys2Proof

theorem headWithin_iff (own : List OwnClaim) (s : State) :
    headWithin own s ↔ ∀ r ∈ s.pu.route, ∀ f ∈ firmEndOf (s.setCe { s.ce with own := own }), r.x ≤ (f : Int) :=
  ⟨fun h r hr f hf => h r f hr hf, fun h r f hr hf => h r hr f hf⟩

/-- With no order under way there is no firm end, so no head lies beyond one. -/
theorem headWithin_of_none (own : List OwnClaim) (s : State) (h : s.pu.route = none) : headWithin own s :=
  fun r _ hr => by simp [h] at hr

/-- One entry of a CLAIM, applied. -/
theorem applyClaimItem_eq (src : Addr) (cls : Nat) (period : Ms) (i : ClaimItem) (s : State) :
    applyClaimItem src cls period i s = s.setOv (viewWith src cls period s.ov i) := by
  unfold applyClaimItem viewWith
  by_cases h : ∃ k ∈ s.ov.claims, k.holder = src ∧ k.seg = i.seg
  · simp only [if_pos h]
    rw [if_pos (by simpa using h)]
    simp [clampTo]
  · simp only [if_neg h]
    rw [if_neg (by simpa using h)]
    by_cases hl : s.ov.claims.length < 96 <;> simp [clampTo, Config.claimCap, hl]

/-- A CLAIM, applied entry by entry. -/
theorem applyClaim_eq (src : Addr) (cls : Nat) (period : Ms) (items : List ClaimItem) (s : State) :
    applyClaim src cls period items s = s.setOv (items.foldl (viewWith src cls period) s.ov) := by
  unfold applyClaim
  induction items generalizing s with
  | nil => rfl
  | cons i rest ih => rw [List.foldl_cons, ih, applyClaimItem_eq]; rfl

/-- The leg ends do not fall along the route. -/
theorem legEnd_mono (legs : List Leg) {i j : Nat} (h : i ≤ j) : legEnd legs i ≤ legEnd legs j := by
  obtain ⟨d, rfl⟩ := Nat.exists_eq_add_of_le h
  simp [legEnd, List.take_add]

/-- The stop target a NEXT_BOUNDARY sets, with an order under way. -/
theorem stopTargetNow_spec (s : State) (a : ActiveOrder) (r : Route) (f : Mm) (ha : s.os.active = some a)
    (hr : s.pu.route = some r) (hf : s.ce.firmEnd = some f) :
    ∃ target, stopTargetNow s = some target ∧
      isStopTarget a.ord.legs a.headLeg (cfg s).margin (cfg s).decel s.eu.demand r.x f target := by
  have key : ∀ n k : Nat, k = a.ord.legs.length + 1 - n → n ≤ a.ord.legs.length + 1 →
      isStopTarget a.ord.legs k (cfg s).margin (cfg s).decel s.eu.demand r.x f
        (firstReachable s r.x (f - (cfg s).margin)
          ((List.range n).map (fun i => legEnd a.ord.legs (k + i) - (cfg s).margin))) := by
    have hc : ∀ c : Mm, reachable s r.x c = true ↔ r.x ≤ (c : Int) ∧
        s.eu.demand ^ 2 ≤ 2 * (cfg s).decel * min ((c : Int) - r.x).toNat 2000000 := by
      intro c
      rw [pow_two]
      exact Bool.and_eq_true_iff.trans (and_congr decide_eq_true_iff decide_eq_true_iff)
    intro n
    induction n with
    | zero => intro k hk _; exact .inr ⟨fun j h1 h2 => by omega, rfl⟩
    | succ n ih =>
      intro k hk hle
      have ih := ih (k + 1) (by omega) (by omega)
      have hs : (fun i => legEnd a.ord.legs (k + i) - (cfg s).margin) ∘ Nat.succ =
          fun i => legEnd a.ord.legs (k + 1 + i) - (cfg s).margin := by
        funext i; simp only [Function.comp]; congr 2; omega
      rw [List.range_succ_eq_map]
      simp only [List.map_cons, List.map_map, firstReachable, Nat.add_zero, hs]
      split
      · rename_i h
        refine .inr ⟨fun j h1 _ h3 => ?_, rfl⟩
        have hm := legEnd_mono a.ord.legs h1
        exact absurd h3 (not_lt.mpr (le_trans h (Nat.sub_le_sub_right hm _)))
      · rename_i h
        split
        · rename_i h2
          refine .inl ⟨k, le_refl _, by omega, not_le.mp h, (hc _).mp h2, fun i h1 h3 => by omega, rfl⟩
        · rename_i h2
          rw [hc] at h2
          rcases ih with ⟨j, h3, h4, h5, h6, h7, h8⟩ | ⟨h3, h4⟩
          · refine .inl ⟨j, by omega, h4, h5, h6, fun i h9 h10 => ?_, h8⟩
            rcases Nat.eq_or_lt_of_le h9 with rfl | h
            · exact h2
            · exact h7 i h h10
          · refine .inr ⟨fun j h5 h6 h7 => ?_, h4⟩
            rcases Nat.eq_or_lt_of_le h5 with rfl | h
            · exact h2
            · exact h3 j h h6 h7
  refine ⟨firstReachable s r.x (f - (cfg s).margin) (stopCandidates s a),
    by simp only [stopTargetNow, ha, hr, authorityEnd, hf, Option.map_some], ?_⟩
  by_cases h : a.headLeg ≤ a.ord.legs.length + 1
  · have := key (a.ord.legs.length + 1 - a.headLeg) a.headLeg (by omega) (by omega)
    exact this
  · have hn : a.ord.legs.length + 1 - a.headLeg = 0 := by omega
    simp only [stopCandidates, hn, List.range_zero, List.map_nil, firstReachable]
    exact .inr ⟨fun j h1 h2 => by omega, rfl⟩

end Sys2Proof.Machine
end

