-- ==== Sys2Proof/Tests/Slice0.lean ====
section
/-! SUPPORT. The model's own tests: the checks of WellFormed on ill-formed terms, the manual's worked examples, and for each
statement with hypotheses a state and operands that meet them. -/

namespace Sys2Proof.Tests

open Sys2Proof Sys2Proof.Machine

/-! ## Small states -/

/-- The commissioning of the manual's worked sequences: length 12,000, braking 300, M 2,000, T 250. -/
def comm0 : CommRec :=
  { length := 12000, decel := 300, accel := 2, ceiling := 2000, gust := 800, margin := 2000, tol := 250, dockTol := 20,
    scale := 19661, refresh := 500, posPeriod := 1000, standoff := 20000, hold := 25000, resume := 40000, dockSec := 20,
    undockSec := 15 }

def leg (g : Seg) (len : Mm) (p : Option PointsRef) : Leg :=
  { seg := g, dir := .up, len := len, limit := 1500, convoy := false, points := p }

/-- The route 41, 42, 57, 58 of the manual's worked sequences, with points at 42. -/
def order0 : OrderRec :=
  { id := 31, cls := 1, lead := .a,
    legs := [leg 41 60000 none, leg 42 35000 (some ⟨50, .reverse⟩), leg 57 120000 none, leg 58 40000 none], pad := none }

/-- A one-leg order to pad 7. -/
def padOrder : OrderRec := { order0 with id := 32, legs := [leg 41 60000 none], pad := some ⟨1, 7, 50000, true⟩ }

def own (k : OwnLeg) (g : Seg) (st : ClaimState) (p : Option OwnPoints) : OwnClaim := ⟨k, g, .up, st, false, p⟩

/-- Carriage node 14, located on 40 and 41 and READY, its console 63. -/
def ready0 : State :=
  { State.reset with
    tli := { State.reset.tli with addr := 14, txq := [] }
    ov := { State.reset.ov with listen := none }
    ce := { State.reset.ce with own := [own .none 40 .firm none, own .none 41 .firm none], refresh := some 0 }
    pu := { State.reset.pu with known := true, endA := some ⟨41, 5000, .up⟩, endB := some ⟨40, 3000, .up⟩,
                                standstill := true, noticeHead := some .a, timer := some 0 }
    eu := { State.reset.eu with brake := .service }
    ds := { State.reset.ds with pos := .up, upInput := true }
    cs := { State.reset.cs with state := .ready, comm := some comm0, console := some 63 } }

def active0 : ActiveOrder :=
  { ord := order0, phase := .underway, headLeg := 1, tailLeg := .rear, nextClaim := 2, rear := some ⟨40, .up, 2000⟩ }

def route0 : Route := { x := 5000, trim := 0, rearOff := 3000, tail0 := -7000, lastLead := none, lastTrail := none }

/-- The same carriage RUNNING on the order, its head at 5,000 on leg 1. -/
def run0 : State :=
  { ready0 with
    os := { ready0.os with active := some active0 }
    ce := { ready0.ce with own := [own .rear 40 .firm none, own (.leg 1) 41 .firm none], firmEnd := some 60000 }
    pu := { ready0.pu with route := some route0, standstill := false, window := [15, 15, 15, 15, 15, 15, 15, 15, 15, 15] }
    eu := { ready0.eu with brake := .released, demand := 1500 }
    cs := { ready0.cs with state := .running } }

def span0 : Span :=
  { first := 2, count := 1, phase := .contest, announced := true, window := some 400, pointsWait := some 400, attempt := 1,
    acked := [50] }

/-- The same carriage with a span over leg 2 in flight, in CONTEST. -/
def span1 : State :=
  { run0 with
    os := { run0.os with active := some { active0 with nextClaim := 3 } }
    ce := { run0.ce with
      own := run0.ce.own ++ [own (.leg 2) 42 .tentative (some ⟨50, .reverse, .asked⟩)], span := some span0, attemptLeg := some 2 } }

/-- A carriage in a state, with no order. -/
def inState (st : CarState) : State := { ready0 with cs := { ready0.cs with state := st } }

/-- Points node 50 on segment 42, locked NORMAL, with one live claimant, 14. -/
def points0 : State :=
  { State.reset with
    tli := { State.reset.tli with addr := 50, kind := .points, txq := [] }
    ov := { State.reset.ov with listen := none }
    sv := { entries := [⟨14, .tentative, 500, 0, false⟩], listen := none, overflow := none }
    pa := { State.reset.pa with comm := some ⟨42, 8, 500⟩, console := some 63, countdown := some 0 }
    ts := { State.reset.ts with state := .lockedNormal, normalLock := true } }

/-- A request waits for delivery. -/
def inb (src : Addr) (r : Request) (s : State) : State := s.setTli { s.tli with inbound := [⟨src, r⟩] }

/-- A frame of the transmit queue. -/
def tx (f : Frame) (periodic sending : Bool) (tag : TxTag) : TxEntry := ⟨f, .ce, periodic, tag, sending, [], false⟩

def withTx (q : List TxEntry) (s : State) : State := s.setTli { s.tli with txq := q }

def withCs (f : Supervisor → Supervisor) (s : State) : State := s.setCs (f s.cs)
def withPa (f : Arbiter → Arbiter) (s : State) : State := s.setPa (f s.pa)
def withCe (f : ClaimEngine → ClaimEngine) (s : State) : State := s.setCe (f s.ce)
def withPu (f : PosUnit → PosUnit) (s : State) : State := s.setPu (f s.pu)
def withOv (f : OccView → OccView) (s : State) : State := s.setOv (f s.ov)
def withOs (f : OrderStore → OrderStore) (s : State) : State := s.setOs (f s.os)
def withEu (f : Envelope → Envelope) (s : State) : State := s.setEu (f s.eu)
def withTs (f : Throw → Throw) (s : State) : State := s.setTs (f s.ts)
def withTli (f : Tli → Tli) (s : State) : State := s.setTli (f s.tli)
def withDs (f : Dock → Dock) (s : State) : State := s.setDs (f s.ds)
def withSv (f : SegView → SegView) (s : State) : State := s.setSv (f s.sv)
def withCr (f : Convoy → Convoy) (s : State) : State := s.setCr (f s.cr)

/-- The next state a command gives. -/
def after (c : Instr) (s : State) : State :=
  match exec c s with
  | .next t => t
  | _ => s

/-! ## More small states -/

def pq (q : List AskEntry) (s : State) : State := withPa (fun p => { p with queue := q }) s
def ask1 : AskEntry := ⟨14, .normal, 1, 31⟩

/-- UNLOCATED and standing: no position, no claims. -/
def unlocated0 : State :=
  withPu (fun p => { p with known := false, endA := none, endB := none })
    (withEu (fun e => { e with brake := .emergency }) (withCe (fun c => { c with own := [] }) (inState .unlocated)))

def bare0 : State := withCs (fun c => { c with state := .uncommissioned, comm := none, console := none }) unlocated0

def track0 : LocRec := .track .a 41 5000 .up 40 3000 (some (0, 10000))
def pad0 : LocRec := .pad 7 41 50000 .up .a

/-- FAULT with a clash entry beyond the occupied segments. -/
def fault0 (positional : Bool) : State :=
  withCs (fun c => { c with state := .fault, fault := some ⟨.firmClash, 44, 0, 0, none, positional⟩ })
    (withCe (fun c => { c with clashMem := [(9, 44)], lostMem := [50], own := c.own ++ [own .none 44 .firm none] })
      (withEu (fun e => { e with brake := .emergency }) ready0))

def throwing0 : State :=
  withTs (fun t => { t with state := .throwing, motor := .toward .reverse, timer := some 0, target := .reverse,
                            previous := .normal, normalLock := false }) points0

def recovering0 : State :=
  withTs (fun t => { t with state := .recovering, motor := .toward .normal, timer := some 0, target := .reverse,
                            previous := .normal, normalLock := false }) points0

/-- The head at 50,000: within the lookahead of the authority end at 58,000. -/
def near0 : State := withPu (fun p => { p with route := some { route0 with x := 50000 } }) run0

/-- The span of `span1` with its points granted. -/
def granted0 : State :=
  withCe (fun c => { c with own := run0.ce.own ++ [own (.leg 2) 42 .tentative (some ⟨50, .reverse, .granted⟩)] }) span1

/-- Carriage 22 ahead on 41 under a compatible claim. -/
def convoy0 : State :=
  withCe (fun c => { c with own := [own .rear 40 .firm none, { own (.leg 1) 41 .firm none with convoy := true }] })
    (withOv (fun o => { o with claims := [⟨22, 41, .up, .firm, true, 0, 500, 0, false⟩],
                               posTab := [⟨22, 41, 50000, 41, 30000, .running, 250, 0, false⟩] }) run0)

/-- At rest but for the standstill event. -/
def still0 (x : Int) : State :=
  withPu (fun p => { p with route := some { route0 with x := x }, window := [0, 0, 0, 0, 0, 0, 0, 0, 0, 0] })
    (withEu (fun e => { e with demand := 0 }) run0)

def padActive : ActiveOrder := { active0 with ord := padOrder }
def padRun : State := withOs (fun o => { o with active := some padActive }) run0

def docking0 : State :=
  withCs (fun c => { c with state := .docking }) (withDs (fun d => { d with pos := .between, cmd := .lower, dockTimer := some 4 }) padRun)
def undocking0 : State :=
  withCs (fun c => { c with state := .undocking }) (withDs (fun d => { d with pos := .between, cmd := .raise, undockTimer := some 4 }) padRun)

def halted0 : State :=
  withCs (fun c => { c with state := .halted, latch := some ⟨3, .console⟩, watcher := some ⟨63, 7, 500⟩ }) run0

def claims (n : Nat) : List ClaimEntry := (List.range n).map (fun i => ⟨9, i + 1, .up, .firm, false, 1, 500, 0, false⟩)
def viewOf (l : List ClaimEntry) (s : State) : State := withOv (fun o => { o with claims := l }) s
def entry0 (st : ClaimState) : ClaimEntry := ⟨9, 57, .up, st, false, 1, 500, 2000, false⟩
def posEntry (a : Addr) (g : Seg) (stale : Bool) (age : Ms) : PosEntry := ⟨a, g, 0, g, 0, .running, 250, age, stale⟩
def position0 : PositionNotice := ⟨58, 1000, .up, 57, 65000, 300, .running, 250⟩
def points1 : PointsNotice := ⟨42, .throwing, 1, 0, false, .normal, 14, .queued⟩
def release0 : Frame := .release [41]
def ten (e : TxEntry) : List TxEntry := List.replicate 10 e
def refresh0 : TxEntry := tx (.claim 1 500 [⟨41, .up, .firm, false⟩]) true false .refresh
def sending0 : State := withTx [tx release0 false true .plain, tx (.release [42]) false false .plain] run0
def announcing0 : State :=
  withTx [tx (.claim 1 500 [⟨42, .up, .tentative, false⟩]) false true .announcement]
    (withCe (fun c => { c with span := some { span0 with announced := false, window := none, pointsWait := none } }) span1)
def asking0 : State := withTx [tx (.pointsAsk 50 .reverse 1 31) false true (.ask 50 42)] span1

def pins (k : Kind) (a : BitVec 6) (normal reverse : Bool) : Pins := ⟨a, k, false, false, false, true, false, normal, reverse⟩

/-! ## WellFormed: one ill-formed term for each check -/

theorem test_wf_sender_zero : (Instr.query 0).wf = false := by decide
theorem test_wf_sender_high : (Instr.drop 64).wf = false := by decide
theorem test_wf_request_target : (Instr.requestToOtherStation 3 0).wf = false := by decide
theorem test_wf_reply_target : (Instr.replyHeard 3 64).wf = false := by decide
theorem test_wf_order_id : (Request.order { order0 with id := 0 }).wf = false := by decide
theorem test_wf_order_class : (Request.order { order0 with cls := 4 }).wf = false := by decide
theorem test_wf_order_bytes : (Request.order { order0 with legs := List.replicate 20 (leg 41 5000 none) }).wf = false := by decide
theorem test_wf_leg_segment : (leg 1024 5000 none).wf = false := by decide
theorem test_wf_leg_length : (leg 41 1048576 none).wf = false := by decide
theorem test_wf_leg_limit : ({ leg 41 5000 none with limit := 4096 } : Leg).wf = false := by decide
theorem test_wf_leg_node : (leg 41 5000 (some ⟨0, .normal⟩)).wf = false := by decide
theorem test_wf_pad_id : (Request.order { padOrder with pad := some ⟨1, 0, 50000, true⟩ }).wf = false := by decide
theorem test_wf_location : (Request.locate (.pad 256 41 5 .up .a)).wf = false := by decide
theorem test_wf_location_track : (Request.locate (.track .a 65536 5 .up 41 5 none)).wf = false := by decide
theorem test_wf_commission : (Request.commission { comm0 with accel := 256 } .none).wf = false := by decide
theorem test_wf_points_commission : (Request.pointsCommission ⟨42, 256, 500⟩).wf = false := by decide
theorem test_wf_clear_stale : (Instr.clearStale 63 true 64).wf = false := by decide
theorem test_wf_ask : (Instr.pointsAsk 14 .normal 4 31).wf = false := by decide
theorem test_wf_halt_origin : (Instr.halt 3 0 .estop).wf = false := by decide
theorem test_wf_resume_token : (Instr.resumeA 63 65536).wf = false := by decide
theorem test_wf_claim_none : (Instr.claim 9 1 500 []).wf = false := by decide
theorem test_wf_claim_period : (Instr.claim 9 1 1024 [⟨41, .up, .firm, false⟩]).wf = false := by decide
theorem test_wf_claim_segment : (Instr.pointsNodeClaim 9 1 500 [⟨0, .up, .firm, false⟩]).wf = false := by decide
theorem test_wf_release_five : (Instr.release 9 [1, 2, 3, 4, 5]).wf = false := by decide
theorem test_wf_object_segment : (Instr.object 9 14 0 .firm).wf = false := by decide
theorem test_wf_position_segment : (Instr.position 9 { position0 with headSeg := 0 }).wf = false := by decide
theorem test_wf_points_queue : (Instr.points 9 { points1 with qlen := 7 }).wf = false := by decide
theorem test_wf_arbitration_class : (Instr.arbitrationLost 8 9).wf = false := by decide
theorem test_wf_entry_segment : (Instr.claimEntryStale 9 0).wf = false := by decide
theorem test_wf_marker_segment : (Instr.leadingBoundaryRead true 0 41).wf = false := by decide
theorem test_wf_marker_pad : (Instr.padMarkerRead true true 0).wf = false := by decide

/-! ## The interface -/

/-- No row of the operations table has bits. -/
theorem test_no_word_decodes : decodeTableWord 16 0 = none ∧ State.reset.withFetchWord 16 0 = State.reset := ⟨rfl, rfl⟩

/-- POWER-ON with the straps and inputs State.reset names leaves State.reset. -/
theorem test_power_on_is_reset :
    exec (.powerOn ⟨1, .carriage, false, false, false, false, false, false, false⟩) State.reset = .next State.reset := rfl

/-! ## The manual's worked examples -/

/-- 6.3: three batches at scale 19,661. -/
theorem test_odometry_400 : odometry 19661 0 400 = (120, 80) := by decide
theorem test_odometry_600 : odometry 19661 80 600 = (180, 200) := by decide
theorem test_odometry_back : odometry 19661 200 (-3) = (-1, 6753) := by decide

/-- 8.5: the roots of the worked sequence. -/
theorem test_convoy_limits :
    convoyLimit comm0 60000 = 4898 ∧ convoyLimit comm0 40000 = 3464 ∧ convoyLimit comm0 26000 = 1897 ∧
      convoyLimit comm0 24960 = 1725 := by decide

/-- 8.5: the hold sets at 24,960, and keeps its value between H and U. -/
theorem test_convoy_hold :
    holdAfter comm0 24960 false = true ∧ holdAfter comm0 26000 true = true ∧ holdAfter comm0 26000 false = false ∧
      holdAfter comm0 40000 true = false := by decide

/-- 3.2: the lookahead, and under gust. -/
theorem test_lookahead : lookahead run0 = 15332 := by decide
theorem test_lookahead_gust : lookahead (withEu (fun e => { e with gust := true }) run0) = 4132 := by decide

/-- Chapter 1: coordinates on a three-leg route with DOWN legs. -/
def threeLegs : List Leg :=
  [{ leg 118 42000 none with dir := .down }, leg 119 14000 none, { leg 240 31500 none with dir := .down }]

theorem test_coordinates : routeEnd threeLegs = 87500 ∧ coordOf threeLegs 1 38500 = 3500 ∧
    pointOf threeLegs 3500 = some (118, 38500) := by decide

/-- Chapter 2: the blocking tests of node 14. -/
def blocking0 : State :=
  viewOf [⟨6, 57, .up, .tentative, false, 1, 500, 0, false⟩, ⟨22, 57, .up, .firm, true, 0, 500, 0, false⟩,
          ⟨31, 58, .up, .tentative, false, 2, 500, 0, false⟩, ⟨9, 60, .down, .firm, true, 3, 500, 0, true⟩,
          ⟨40, 61, .up, .tentative, true, 1, 500, 0, false⟩] run0

theorem test_blocked_57 : blockedBy blocking0 57 .up true 1 = some 6 ∧ blockedBy blocking0 57 .up false 1 = some 22 := by decide
theorem test_blocked_others : blockedBy blocking0 58 .up false 1 = none ∧ blockedBy blocking0 60 .up true 1 = some 9 := by decide

/-- Chapter 2: of a crowded position table the entry not on route and stale goes first. -/
theorem test_eviction :
    (evictPick run0 [posEntry 35 203 false 920, posEntry 38 310 true 2400, posEntry 27 42 true 5100]).map PosEntry.carriage
      = some 38 := by decide

/-- Chapter 12: the clamped commissioning. -/
theorem test_clamp :
    let c := clampComm { comm0 with ceiling := 3200, gust := 3500, posPeriod := 60, standoff := 4000, hold := 3000, resume := 5000 }
    c.ceiling = 3000 ∧ c.gust = 3000 ∧ c.posPeriod = 100 ∧ c.standoff = 5000 ∧ c.hold = 5000 ∧ c.resume = 7000 := by decide
theorem test_clamp_high :
    let c := clampComm { comm0 with standoff := 4000, hold := 99000, resume := 5000 }
    c.hold = 98000 ∧ c.resume = 100000 := by decide

/-- Chapter 12: one CLAIM on the wire. -/
theorem test_claim_words : claimBits 1 500 [⟨58, .up, .firm, false⟩] = toBits 16 0x41F4 ++ toBits 16 0x0E88 := by decide
theorem test_claim_arbitration : arbBits 2 14 = [false, true, false, false, false, true, true, true, false] := by decide
theorem test_claim_on_wire :
    frameCheck 50 .points (wireBits 14 (.claim 1 500 [⟨58, .up, .firm, false⟩])) =
      some ⟨2, 14, 5, 0, claimBits 1 500 [⟨58, .up, .firm, false⟩]⟩ := by decide +kernel

/-- A flipped bit of the frame fails the check. -/
theorem test_flipped_bit :
    frameCheck 50 .points ((wireBits 14 (.claim 1 500 [⟨58, .up, .firm, false⟩])).modify 30 not) = none := by decide +kernel

/-- Chapter 11: a RELEASE offered to a full queue displaces the oldest periodic frame. -/
theorem test_displaced :
    (offerTli (tx (.release [58]) false false .plain) (withTx (ten refresh0) run0).tli).counters.displaced = 1 := by decide

/-- Chapter 6: the trailing read 40/41 at a computed tail of 120 gives trim −120, and releases 40. -/
theorem test_trailing_read :
    let t := after (.trailingBoundaryRead true 40 41) (withPu (fun p => { p with route := some { route0 with x := 12120 } }) run0)
    t.pu.route.map Route.trim = some (-120) ∧ t.ce.own.map OwnClaim.seg = [41] := by decide

/-- Chapter 6: the leading read 41/42 at 60,140 sets the head on 60,000. -/
theorem test_leading_read :
    let s := withPu (fun p => { p with route := some { route0 with x := 60140, trim := -120 } })
      (withOs (fun o => { o with active := some { active0 with tailLeg := .leg 1, rear := none } }) run0)
    let t := after (.leadingBoundaryRead true 41 42) s
    t.pu.route.map Route.x = some 60000 ∧ t.pu.lastCorrection = 140 := by decide

/-- A throw that locks grants the head of the queue. -/
theorem test_throw_grants :
    let t := after (.lockInputChange false true) (pq [{ ask1 with pos := .reverse }] throwing0)
    t.ts.state = .lockedReverse ∧ t.pa.grant = some ⟨14, .reverse, true⟩ ∧ t.pa.queue = [] := by decide

/-- A millisecond with nothing due counts the silence timer. -/
theorem test_tick : (match step ready0 with
    | .next t => t.tli.silence
    | _ => 0) = 1 := by decide

/-! ## Witnesses: states and operands that meet the hypotheses of the statements, clause by clause -/

theorem wit_StepRunsFront : (run0.setPending [.eStop, .drop 63]).pending = [.eStop, .drop 63] := rfl
theorem wit_IdleStep : ready0.pending = [] ∧ dueEvent ready0 = none ∧ ready0.tli.kind = .carriage := by decide
theorem wit_IdleStep_points : points0.pending = [] ∧ dueEvent points0 = none ∧ points0.tli.kind = .points := by decide
theorem wit_IdleStep_due :
    dueEvent (withOv (fun o => { o with listen := some 4000 }) ready0) = some .listenInExpiry := by decide
theorem wit_InvariantsAtReset : ∃ t, exec (.powerOn (pins .points 50 true false)) run0 = .next t := ⟨_, rfl⟩
theorem wit_EnvelopeInvKept :
    EnvelopeInv (run0.setPending [.eStop]) ∧ ∃ t, step (run0.setPending [.eStop]) = .next t ∧ t.cs.state = .fault :=
  ⟨fun h => absurd h (by decide), _, rfl, by decide⟩
theorem wit_CapacityInvKept :
    (QueueInv (withTx (ten refresh0) run0) ∧ ∃ t, step (withTx (ten refresh0) run0) = .next t) ∧
      (TableInv (viewOf (claims 96) run0) ∧ ∃ t, step (viewOf (claims 96) run0) = .next t) :=
  ⟨⟨by unfold QueueInv; decide, _, rfl⟩, ⟨by unfold TableInv; decide, _, rfl⟩⟩
theorem wit_PointsInvKept :
    PointsInv (throwing0.setPending [.lockInputChange false true]) ∧
      ∃ t, step (throwing0.setPending [.lockInputChange false true]) = .next t ∧ t.ts.state = .lockedReverse :=
  ⟨fun _ => ⟨by simp [motorFits, throwing0, withTs, State.setPending, State.setTs],
      fun g hg => by simp [throwing0, points0, withTs, State.setPending, State.setTs, State.reset] at hg,
      fun f hf => by simp [throwing0, points0, withTs, State.setPending, State.setTs, State.reset] at hf⟩,
    _, rfl, by decide⟩
theorem wit_BlocksKept : ∃ t, exec (.resumeA 63 7) run0 = .next t := ⟨_, rfl⟩
theorem wit_BlocksKept_points : points0.ce.span = none ∧ points0.tli.kind = .points := by decide
theorem wit_BlocksKept_latch : halted0.cs.latch.isSome = true := by decide

def fourItems : List ClaimItem :=
  [⟨1023, .down, .standing, true⟩, ⟨1, .up, .firm, false⟩, ⟨57, .down, .tentative, true⟩, ⟨58, .up, .tentative, true⟩]
theorem wit_PayloadRoundTrip_claim : claimWf 3 1023 fourItems = true := by decide
theorem wit_PayloadRoundTrip_release : releaseWf [1023, 1, 512, 3] = true := by decide
theorem wit_PayloadRoundTrip_position :
    PositionNotice.wf ⟨1023, 1048575, .down, 1, 0, 4095, .fault, 4095⟩ = true := by decide
theorem wit_PayloadRoundTrip_points :
    PointsNotice.wf ⟨1023, .failed, 6, 63, true, .reverse, 63, .refusedUncommissioned⟩ = true := by decide
theorem wit_SentFramePasses :
    addrOk 63 = true ∧ (Frame.claim 3 1023 fourItems).wf = true ∧ isReply (.claim 3 1023 fourItems) = false := by decide
theorem wit_SentFramePasses_reply :
    (Frame.report 63 ⟨.order, .accepted, 255⟩).wf = true ∧ targetOf (.report 63 ⟨.order, .accepted, 255⟩) ≠ 62 := by decide
theorem wit_PowerOn : (pins .carriage 1 false false).strapKind = .carriage ∧ (pins .carriage 1 false false).strapAddr ≠ 0 := by
  decide
theorem wit_PowerOn_points :
    (pins .points 63 true false).strapKind = .points ∧ (pins .points 63 true false).lockNormal = true ∧
      (pins .points 63 true true).lockNormal = (pins .points 63 true true).lockReverse := by decide

theorem wit_FrameOffered_clash : (withTli (fun t => { t with clash := true }) run0).tli.clash = true := by decide
theorem wit_FrameOffered_kept :
    (withTli (fun t => { t with kept := [tx release0 false false .plain] }) run0).tli.kept.any
      (fun k => decide (k.block = (tx release0 false false .plain).block)) = true := by decide
theorem wit_FrameOffered_room :
    (withTx ((ten refresh0).take 9) run0).tli.txq.length < 10 ∧ run0.tli.clash = false ∧
      (tx release0 false false .plain).periodic = false ∧ isPosition (tx release0 false false .plain) = false := by decide
theorem wit_FrameOffered_displaces :
    (10 ≤ (withTx (ten refresh0) run0).tli.txq.length) ∧ (withTx (ten refresh0) run0).tli.txq[0]? = some refresh0 ∧
      refresh0.periodic = true ∧ refresh0.sending = false := by decide
theorem wit_FrameOffered_refused :
    ∀ k ∈ (withTx (ten (tx release0 false false .plain)) run0).tli.txq, k.periodic = false ∨ k.sending = true := by decide
theorem wit_FrameOffered_periodic : refresh0.periodic = true ∧ isPosition refresh0 = false ∧ isPeriodicPoints refresh0 = false := by
  decide
theorem wit_FrameOffered_position :
    (∃ k ∈ State.reset.tli.txq, isPosition k = true ∧ k.sending = false) ∧
      (∀ k ∈ [tx (.position position0) true true .plain], isPosition k = true → k.sending = true) := by decide
theorem wit_FrameOffered_report : console run0 = some 63 ∧ console State.reset = none := by decide

theorem wit_RequestJudged_taken :
    fromOther 63 run0 = true ∧ (Request.query).wf = true ∧ fits run0.tli.kind .query = true ∧ run0.tli.addr ≠ 0 ∧
      senderOk 63 .query run0 = true ∧ (inb 63 .drop run0).tli.inbound.length < 2 := by decide
theorem wit_RequestJudged_overflow :
    2 ≤ (withTli (fun t => { t with inbound := [⟨63, .drop⟩, ⟨63, .query⟩] }) run0).tli.inbound.length := by decide
theorem wit_RequestJudged_refused : fromOther 9 run0 = true ∧ senderOk 9 .query run0 = false := by decide
theorem wit_RequestJudged_senders :
    run0.cs.console = some 63 ∧ bare0.cs.comm = none ∧ run0.cs.console ≠ some 9 ∧ run0.cs.comm.isSome = true ∧
      bare0.cs.console = none ∧ run0.tli.kind = .carriage := by decide
theorem wit_FrameHeard : run0.tli.kind = .carriage ∧ points0.tli.kind = .points := by decide
theorem wit_FrameHeard_used :
    fromOther 9 points0 = true ∧ addrOk 63 = true ∧ 63 ≠ points0.tli.addr ∧ segOk 1023 = true ∧ points1.wf = true ∧
      position0.wf = true := by decide
theorem wit_OwnAddressHeard : addrOk run0.tli.addr = true ∧ addrOk 63 = true ∧ 63 ≠ run0.tli.addr ∧ run0.cs.state ≠ .fault := by
  decide
theorem wit_OwnAddressHeard_points : addrOk points0.tli.addr = true ∧ 63 ≠ points0.tli.addr ∧ points0.pa.fault = none := by
  decide
theorem wit_MalformedAndAcked :
    (Request.clearStale 64).wf = false ∧ PositionNotice.wf { position0 with tailSeg := 0 } = false ∧
      PointsNotice.wf { points1 with qlen := 7 } = false ∧ claimWf 4 500 fourItems = false ∧ releaseWf [0] = false ∧
      frameCheck 14 .carriage [] = none := by decide
theorem wit_MalformedAndAcked_slot :
    fromOther 63 run0 = true ∧ run0.tli.clash = false ∧ addrOk 63 = true ∧ points1.wf = true ∧
      (withTli (fun t => { t with clash := true }) run0).tli.clash = true := by decide
theorem wit_SendingRuns_idle :
    let s := withTx [tx (.pointsFree 50) false false .plain, tx release0 false false .plain] run0
    s.tli.clash = false ∧ (∀ e ∈ s.tli.txq, e.sending = false) ∧ s.tli.txq ≠ [] := by decide
theorem wit_SendingRuns_stops :
    let e := tx release0 false true .plain
    sendingEntry sending0.tli = some e ∧
      List.Forall₂ (waitsAs sending0.tli) sending0.tli.txq
        [[{ e with sending := false }], [tx (.release [42]) false false .plain]] ∧
      arbLoses (arbBits 1 14) (arbBits 1 13) = true ∧ arbLoses (arbBits 1 14) (arbBits 1 15) = false :=
  ⟨rfl, .cons (.inr ⟨rfl, .inr (.inr ⟨by decide, by decide, .inr (.inl ⟨rfl, nofun, rfl⟩)⟩)⟩)
    (.cons (.inl ⟨rfl, rfl⟩) .nil), by decide, by decide⟩
theorem wit_SendingRuns_arbitration : (7 : Nat) ≤ 7 ∧ (63 : Nat) ≤ 63 := by decide
theorem wit_FrameDeparts_plain :
    sendingEntry sending0.tli = some (tx release0 false true .plain) ∧ isPosition (tx release0 false true .plain) = false ∧
      isPeriodicPoints (tx release0 false true .plain) = false ∧ (tx release0 false true .plain).withdrawn = false := by decide
theorem wit_FrameDeparts_announcement :
    (sendingEntry announcing0.tli).map TxEntry.tag = some .announcement ∧ announcing0.ce.span.isSome = true ∧
      announcing0.tli.offerLine = [] := by decide
theorem wit_FrameDeparts_ask :
    (sendingEntry asking0.tli).map TxEntry.tag = some (.ask 50 42) ∧ asking0.ce.span = some span0 := by decide
theorem wit_SilenceReported :
    (withTli (fun t => { t with silent := true }) run0).tli.silent = true ∧ run0.tli.silent = false ∧ run0.ce.span = none ∧
      span1.ce.span = some span0 ∧ points0.tli.kind = .points := by decide

theorem wit_OrderTested_count : (List.replicate 17 (leg 41 5000 none)).length > 16 := by decide
theorem wit_OrderTested_duplicate :
    let legs := [leg 41 60000 none, leg 42 60000 none, leg 41 60000 none]
    legs[2]? = some (leg 41 60000 none) ∧ (leg 41 60000 none).seg ∈ (legs.take 2).map Leg.seg ∧
      ((legs.take 2).map Leg.seg).Nodup := by decide
theorem wit_OrderTested_length :
    (order0.legs.map Leg.seg).Nodup ∧ (leg 42 12499 none).len < comm0.length + 2 * comm0.tol ∧
      (∀ m ∈ [leg 41 12500 none], 2000 ≤ m.len ∧ m.len ≤ 600000 ∧ comm0.length + 2 * comm0.tol ≤ m.len) := by decide
theorem wit_OrderTested_speed : (∀ m ∈ order0.legs, m.limit ≠ 0) ∧ ({ leg 41 60000 none with limit := 0 } : Leg).limit = 0 := by
  decide
theorem wit_OrderTested_pad :
    padOrder.pad = some ⟨1, 7, 50000, true⟩ ∧ padOrder.legs.getLast? = some (leg 41 60000 none) ∧ order0.pad = none := by decide
theorem wit_OrderTested_refused :
    atFront 63 (.order { order0 with legs := [] }) (inb 63 (.order { order0 with legs := [] }) run0) = true ∧
      structuralTest (cfg run0) { order0 with legs := [] } = some (.legCount, 0) := by decide
theorem wit_OrderTested_pending :
    atFront 63 (.order order0) (inb 63 (.order order0) run0) = true ∧ structuralTest (cfg run0) order0 = none ∧
      run0.os.pending = none ∧ (withOs (fun o => { o with pending := some order0 }) run0).os.pending.isSome = true := by decide
theorem wit_OrderTested_state :
    atFront 63 (.order order0) (inb 63 (.order order0) (fault0 false)) = true ∧
      structuralTest (cfg (fault0 false)) order0 = none ∧ (fault0 false).cs.state = .fault := by decide
theorem wit_OrderTested_latched :
    let s := withCs (fun c => { c with latch := some ⟨3, .console⟩ }) ready0
    s.cs.state = .ready ∧ s.os.active = none ∧ s.cs.latch.isSome = true ∧ structuralTest (cfg s) order0 = none := by decide
theorem wit_OrderTested_points : atFront 9 (.order order0) (inb 9 (.order order0) points0) = true := by decide
theorem wit_OrderStarts :
    let s := inb 63 (.order order0) ready0
    atFront 63 (.order order0) s = true ∧ structuralTest (cfg s) order0 = none ∧ s.cs.state = .ready ∧ s.os.active = none ∧
      s.os.pending = none ∧ s.cs.latch = none ∧ order0.pad = none ∧ endRec s .a = some ⟨41, 5000, .up⟩ ∧
      endRec s .b = some ⟨40, 3000, .up⟩ ∧ (storedOrder (cfg s) order0).legs.head? = some (leg 41 60000 none) := by decide
theorem wit_OrderStarts_parked :
    let s := withDs (fun d => { d with pos := .down }) (inState .parked)
    s.cs.state = .parked ∧ s.ds.pos ≠ .up ∧ endRec s .a = some ⟨41, 5000, .up⟩ := by decide
theorem wit_OrderStarts_refused :
    firstLegOk (storedOrder comm0 { order0 with lead := .b }) (inb 63 (.order { order0 with lead := .b }) ready0) = false := by
  decide
theorem wit_StopTaken_running :
    let s := inb 63 (.stop .nextBoundary) span1
    atFront 63 (.stop .nextBoundary) s = true ∧ s.cs.state = .running ∧ s.cs.stopCond = none ∧ s.eu.demand ≠ 0 := by decide
theorem wit_StopTaken_stopping :
    let s := withCs (fun c => { c with state := .stopping, stopCond := some .authorityEnd }) run0
    s.cs.state = .stopping ∧ s.cs.stopCond = some .authorityEnd := by decide
theorem wit_StopTaken_undocking : undocking0.cs.state = .undocking ∧ undocking0.tli.kind = .carriage := by decide
theorem wit_StopTaken_waiting :
    let s := withOs (fun o => { o with active := some (waitingOrder order0) }) ready0
    s.cs.state = .ready ∧ s.os.active.isSome = true := by decide
theorem wit_StopTaken_refused : atFront 63 (.stop .immediate) (inb 63 (.stop .immediate) ready0) = true ∧ ready0.os.active = none := by
  decide
theorem wit_DropTaken :
    let s := inb 63 .drop (withOs (fun o => { o with pending := some order0 }) run0)
    atFront 63 .drop s = true ∧ s.tli.kind = .carriage ∧ s.os.pending = some order0 := by decide
theorem wit_DropTaken_empty : atFront 63 .drop (inb 63 .drop run0) = true ∧ run0.os.pending = none := by decide

theorem wit_LocateTaken :
    let s := inb 63 (.locate track0) unlocated0
    atFront 63 (.locate track0) s = true ∧ s.cs.state = .unlocated ∧ s.pu.standstill = true ∧
      badLocation (cfg s) s.ds.pos track0 = false ∧ s.ov.listen = none ∧ s.tli.silent = false ∧
      (heldOf (cfg s) track0).isSome = true ∧ s.cs.eStop = false ∧ s.cs.driveFault = false ∧ s.ov.claims = [] := by decide
theorem wit_LocateTaken_held : (withOv (fun o => { o with listen := some 0 }) unlocated0).ov.listen.isSome = true := by decide
theorem wit_LocateTaken_bad :
    badLocation (cfg unlocated0) unlocated0.ds.pos pad0 = true ∧ ready0.cs.state ≠ .unlocated ∧
      (withPu (fun p => { p with standstill := false }) unlocated0).pu.standstill = false := by decide
theorem wit_CommissionTaken :
    let s := inb 63 (.commission comm0 .none) bare0
    atFront 63 (.commission comm0 .none) s = true ∧ s.tli.kind = .carriage ∧ s.cs.state = .uncommissioned ∧
      badLocation (clampComm comm0) s.ds.pos .none = false ∧ heldOf (clampComm comm0) .none = none := by decide
theorem wit_CommissionTaken_bad : badLocation (clampComm comm0) bare0.ds.pos pad0 = true := by decide
theorem wit_CommissionTaken_again : run0.cs.state ≠ .uncommissioned := by decide
theorem wit_ClearFaultTaken (b : Bool) :
    let s := inb 63 .clearFault (fault0 b)
    atFront 63 .clearFault s = true ∧ s.tli.kind = .carriage ∧ s.cs.fault = some ⟨.firmClash, 44, 0, 0, none, b⟩ ∧
      s.cs.state = .fault ∧ s.tli.clash = false ∧ s.pu.standstill = true ∧ s.cs.eStop = false ∧ s.cs.driveFault = false ∧
      s.ds.pos = .up := by cases b <;> decide
theorem wit_ClearFaultTaken_parked : (withDs (fun d => { d with pos := .down }) (fault0 false)).ds.pos ≠ .up := by decide
theorem wit_ClearFaultTaken_refused :
    run0.cs.fault = none ∧ (withCs (fun c => { c with eStop := true }) (fault0 false)).cs.eStop = true := by decide
theorem wit_PointsCommissionOrClear :
    let s := withPa (fun p => { p with comm := none }) points0
    atFront 9 (.pointsCommission ⟨0, 255, 65535⟩) (inb 9 (.pointsCommission ⟨0, 255, 65535⟩) s) = true ∧ s.tli.kind = .points ∧
      s.pa.comm = none ∧ s.tli.clash = false ∧ points0.pa.comm.isSome = true := by decide
theorem wit_PointsCommissionOrClear_clear :
    let s := withTs (fun t => { t with state := .failed }) points0
    atFront 63 .clearFault (inb 63 .clearFault s) = true ∧ s.ts.state = .failed ∧ s.tli.clash = false ∧
      s.ts.normalLock ≠ s.ts.reverseLock ∧ s.pa.queue = [] ∧ throwing0.ts.state = .throwing := by decide
theorem wit_StaleCleared :
    atFront 63 (.clearStale 9) (inb 63 (.clearStale 9) (viewOf (claims 88) run0)) = true ∧ fromOther 63 run0 = true ∧
      63 ≠ run0.tli.addr ∧
      run0.cs.console = some 63 ∧ run0.cs.console ≠ some 9 ∧ run0.tli.silent = false := by decide
theorem wit_StationResetTaken :
    let s := inb 63 .stationReset ready0
    atFront 63 .stationReset s = true ∧ s.pu.standstill = true ∧ s.cs.eStop = false ∧ s.cs.driveFault = false ∧
      s.pu.known = true ∧ s.cs.fault.any FaultRec.positional = false ∧ s.ds.pos = .up ∧ s.ce.span = none := by decide
theorem wit_StationResetTaken_lost : unlocated0.pu.known = false ∧ (fault0 true).cs.fault.any FaultRec.positional = true := by decide
theorem wit_StationResetTaken_refused : run0.pu.standstill = false := by decide
theorem wit_PointsResetTaken :
    let s := inb 63 .stationReset points0
    atFront 63 .stationReset s = true ∧ s.tli.kind = .points ∧ s.ts.state ≠ .throwing ∧ s.ts.state ≠ .recovering ∧
      s.pa.fault.map FaultRec.code ≠ some .addressClash ∧ recovering0.ts.state = .recovering := by decide
theorem wit_PointsResetTaken_clash :
    let s := withPa (fun p => { p with fault := some ⟨.addressClash, 42, 0, 0, none, false⟩ })
      (withTs (fun t => { t with state := .failed }) points0)
    s.pa.fault.map FaultRec.code = some .addressClash ∧ s.ts.normalLock ≠ s.ts.reverseLock := by decide
theorem wit_QueryAnswered :
    atFront 63 .query (inb 63 .query run0) = true ∧ console run0 = some 63 ∧ run0.tli.kind = .carriage ∧
      atFront 63 .query (inb 63 .query points0) = true ∧ console points0 = some 63 := by decide

theorem wit_ServingTested :
    let s := pq [ask1] points0
    s.pa.queue = ask1 :: [] ∧ s.ts.state = lockedAt .normal ∧ s.pa.comm.isSome = true ∧ s.pa.grant = none ∧
      listeningIn s = false ∧ soleClaimant s 14 = true ∧ ask1.pos = .normal := by decide
theorem wit_ServingTested_throw :
    ({ ask1 with pos := .reverse } : AskEntry).pos ≠ .normal ∧ points0.pa.latch = none ∧
      (withPa (fun p => { p with latch := some ⟨3, .console⟩ }) points0).pa.latch.isSome = true := by decide
theorem wit_ServingTested_none : points0.pa.queue = [] ∧ throwing0.ts.state = .throwing ∧
    soleClaimant (withSv (fun v => { v with overflow := some 0 }) (pq [ask1] points0)) 14 = false := by decide
theorem wit_ServingTested_timers :
    let s := withSv (fun v => { v with listen := some 4000, overflow := some 4000 }) points0
    s.tli.kind = .points ∧ s.sv.listen.isSome = true ∧ s.sv.overflow.isSome = true ∧ s.pa.countdown.isSome = true ∧
      s.tli.clash = false ∧ (∀ k ∈ s.tli.txq, k.sending = false) ∧ s.tli.txq.length < 10 ∧ points0.sv.listen = none ∧
      points0.sv.overflow = none ∧ (withPa (fun p => { p with countdown := none }) points0).pa.countdown = none := by decide
theorem wit_AskOrFreeTaken :
    let s := inb 14 (.pointsAsk .normal 1 31) points0
    atFront 14 (.pointsAsk .normal 1 31) s = true ∧ s.tli.kind = .points ∧ s.pa.comm.isSome = true ∧ listeningIn s = false ∧
      s.ts.state ≠ .failed ∧ unavail s .normal = false ∧ liveIn s 14 = true ∧ s.pa.queue.length < 6 ∧
      (∀ q ∈ s.pa.queue, q.requester ≠ 14) := by decide
theorem wit_AskOrFreeTaken_full : 6 ≤ (pq (List.replicate 6 { ask1 with requester := 9 }) points0).pa.queue.length := by decide
theorem wit_AskOrFreeTaken_again : ∃ q ∈ (pq [ask1] points0).pa.queue, q.requester = 14 := by decide
theorem wit_AskOrFreeTaken_refused :
    (withPa (fun p => { p with comm := none }) points0).pa.comm = none ∧
      listeningIn (withSv (fun v => { v with listen := some 0 }) points0) = true ∧
      unavail (withPa (fun p => { p with unavailNormal := true }) points0) .normal = true ∧ liveIn points0 9 = false := by decide
theorem wit_AskOrFreeTaken_wrongKind :
    atFront 9 .pointsFree (inb 9 .pointsFree run0) = true ∧ run0.tli.kind = .carriage := by decide
theorem wit_AskOrFreeTaken_free :
    atFront 14 .pointsFree (inb 14 .pointsFree (withPa (fun p => { p with grant := some ⟨14, .normal, true⟩ }) points0)) = true ∧
      points0.pa.grant = none := by decide
theorem wit_SegmentViewFollows :
    points0.tli.kind = .points ∧ points0.pa.comm = some ⟨42, 8, 500⟩ ∧ fromOther 9 points0 = true ∧
      claimWf 1 500 [⟨42, .up, .firm, false⟩] = true ∧ claimWf 1 500 [⟨43, .up, .firm, false⟩] = true ∧
      (∀ k ∈ points0.sv.entries, k.holder ≠ 9) ∧ points0.sv.entries.length < 8 := by decide
theorem wit_SegmentViewFollows_full :
    8 ≤ (withSv (fun v => { v with entries := List.replicate 8 ⟨14, .firm, 500, 0, false⟩ }) points0).sv.entries.length := by decide
theorem wit_SegmentViewFollows_release : releaseWf [41, 42] = true ∧ releaseWf [41] = true ∧ liveIn points0 14 = true := by decide
theorem wit_SegmentViewFollows_many :
    let items : List ClaimItem := [⟨42, .up, .tentative, false⟩, ⟨43, .up, .firm, false⟩, ⟨42, .up, .firm, false⟩]
    claimWf 1 500 items = true ∧
      (items.filter (fun k => decide (k.seg = 42))).getLast? = some ⟨42, .up, .firm, false⟩ := by decide
theorem wit_SegmentViewFollows_bare :
    let s := withPa (fun p => { p with comm := none }) points0
    s.tli.kind = .points ∧ s.pa.comm = none ∧ fromOther 9 s = true := by decide
/-- A view of three holders, the grant HELD_STALE with the one whose entry is STALE. -/
def heldStale0 : State :=
  withPa (fun p => { p with grant := some ⟨9, .normal, false⟩ })
    (withSv (fun v => { v with entries :=
      [⟨14, .tentative, 500, 0, false⟩, ⟨9, .firm, 500, 2000, true⟩, ⟨7, .firm, 500, 0, false⟩] }) points0)
theorem wit_SegmentViewFollows_heldStale :
    heldStale0.pa.grant = some ⟨9, .normal, false⟩ ∧ (∃ k ∈ heldStale0.sv.entries, k.holder = 9 ∧ k.stale = true) ∧
      fromOther 9 heldStale0 = true := by decide
theorem wit_SegmentViewFollows_stale :
    (∃ k ∈ heldStale0.sv.entries, (decide (k.holder = 14) && !k.stale) = true) ∧
      (∃ k ∈ heldStale0.sv.entries, (decide (k.holder = 7) && !k.stale) = true) ∧
      (∀ k ∈ heldStale0.sv.entries, (decide (k.holder = 9) && !k.stale) = false) ∧
      (withPa (fun p => { p with grant := some ⟨7, .normal, true⟩ }) heldStale0).pa.grant = some ⟨7, .normal, true⟩ := by
  decide

/-- R96: a RELEASE frees a grant that is HELD_STALE as it frees any other. -/
theorem test_release_frees_held_stale :
    (after (.pointsNodeRelease 9 [42]) heldStale0).pa.grant = none ∧
      (after (.pointsNodeRelease 9 [42]) heldStale0).sv.entries.map SegEntry.holder = [14, 7] := by decide
theorem wit_LockLoss : points0.tli.kind = .points ∧ points0.ts.state = lockedAt .normal ∧ points0.pa.fault = none ∧
    points0.tli.clash = false ∧ points0.pa.console = some 63 := by decide
theorem wit_RecoveryFails :
    recovering0.tli.kind = .points ∧ recovering0.ts.state = .recovering ∧ recovering0.ts.previous = .normal ∧
      recovering0.pa.fault = none ∧ recovering0.tli.clash = false ∧
      (withTs (fun t => { t with state := .failed }) points0).ts.state = .failed ∧ points0.ts.state ≠ .recovering := by decide
theorem wit_ThrowRuns :
    throwing0.tli.kind = .points ∧ throwing0.pa.queue = [] ∧ throwing0.ts.state = .throwing ∧ throwing0.ts.target = .reverse ∧
      throwing0.ts.normalLock = false ∧ throwing0.ts.reverseLock = false ∧ recovering0.pa.queue = [] ∧
      recovering0.ts.state = .recovering := by decide

theorem wit_HaltAndResume_halt :
    fromOther 9 span1 = true ∧ addrOk 63 = true ∧ span1.cs.latch = none ∧ span1.cs.state = .running ∧
      span1.ce.span.isSome = true ∧ halted0.cs.latch.isSome = true ∧ ready0.cs.state ≠ .running ∧ ready0.ce.span = none := by decide
theorem wit_HaltAndResume_points : fromOther 9 points0 = true ∧ points0.tli.kind = .points := by decide
theorem wit_HaltAndResume_pair :
    fromOther 63 halted0 = true ∧ (65535 : Nat) ≤ 65535 ∧ halted0.cs.console = some 63 ∧
      halted0.cs.watcher = some ⟨63, 7, 500⟩ ∧ halted0.cs.latch.isSome = true ∧ halted0.cs.state = .halted ∧
      halted0.eu.padStop = false := by decide
theorem wit_HaltAndResume_other : halted0.cs.console ≠ some 9 ∧ ready0.os.active = none ∧ ready0.cs.watcher = none := by decide
theorem wit_HaltAndResume_pointsPair :
    let s := withPa (fun p => { p with latch := some ⟨3, .console⟩, watcher := some ⟨63, 7, 500⟩ }) points0
    s.pa.console = some 63 ∧ s.pa.watcher = some ⟨63, 7, 500⟩ ∧ s.pa.latch.isSome = true := by decide

theorem wit_HaltAndResume_pointsOther :
    points0.tli.kind = .points ∧ fromOther 9 points0 = true ∧ points0.pa.console ≠ some 9 ∧ points0.pa.watcher = none := by decide

theorem wit_ReleaseApplied : run0.tli.kind = .carriage ∧ fromOther 9 run0 = true ∧ releaseWf [1, 2, 57, 1023] = true := by decide
theorem wit_ClaimStored_update :
    let s := viewOf (claims 96) run0
    fromOther 9 s = true ∧ claimWf 3 1023 [⟨96, .up, .firm, true⟩] = true ∧ (∀ e ∈ s.ce.own, e.seg ≠ 96) ∧ s.tli.silent = false ∧
      (∃ k ∈ s.ov.claims, k.holder = 9 ∧ k.seg = 96) := by decide
theorem wit_ClaimStored_room :
    (∀ k ∈ (viewOf (claims 95) run0).ov.claims, ¬(k.holder = 9 ∧ k.seg = 96)) ∧ (viewOf (claims 95) run0).ov.claims.length < 96 := by
  decide
theorem wit_ClaimStored_full :
    (∀ k ∈ (viewOf (claims 96) run0).ov.claims, ¬(k.holder = 9 ∧ k.seg = 97)) ∧ 96 ≤ (viewOf (claims 96) run0).ov.claims.length := by
  decide
theorem wit_ClaimStored_stale :
    (entry0 .firm).stale = false ∧ (entry0 .firm).age = 4 * (entry0 .firm).period ∧ (entry0 .firm).st ≠ .tentative ∧
      (entry0 .tentative).st = .tentative ∧
      (viewOf (claims 2 ++ entry0 .firm :: []) run0).ov.claims = claims 2 ++ entry0 .firm :: [] ∧
      (∀ k ∈ claims 2 ++ [], ¬(k.holder = (entry0 .firm).holder ∧ k.seg = (entry0 .firm).seg)) := by decide
theorem wit_PositionStored :
    run0.tli.kind = .carriage ∧ fromOther 22 run0 = true ∧ position0.wf = true ∧ run0.tli.silent = false ∧
      position0.state ≠ .uncommissioned ∧ position0.state ≠ .unlocated ∧ (∀ k ∈ run0.ov.posTab, k.carriage ≠ 22) ∧
      run0.ov.posTab.length < 16 ∧ PositionNotice.wf { position0 with state := .unlocated, headSeg := 0, tailSeg := 0 } = true := by
  decide
theorem wit_PositionStored_full :
    let s := withOv (fun o => { o with posTab := List.replicate 16 (posEntry 9 57 false 5) }) run0
    16 ≤ s.ov.posTab.length ∧ (∀ k ∈ s.ov.posTab, k.carriage ≠ 22) ∧ (∀ k ∈ s.ov.posTab, onRoute s k = true) ∧
      onRoute s (posEntry 22 412 false 0) = false := by decide
theorem wit_PositionStored_update : ∃ k ∈ convoy0.ov.posTab, k.carriage = 22 := by decide
theorem wit_PositionGoesStale :
    let e := posEntry 22 57 false 750
    (withOv (fun o => { o with posTab := [] ++ e :: [] }) run0).ov.posTab = [] ++ e :: [] ∧ e.stale = false ∧
      e.age = (if e.period = 0 then 10000 else max (3 * e.period) 750) ∧ (∀ k ∈ ([] : List PosEntry) ++ [], k.carriage ≠ e.carriage) ∧
      position0.wf = true ∧ position0.state.carriesPosition = true ∧ fromOther 22 run0 = true := by decide
theorem wit_PositionGoesStale_never :
    let e : PosEntry := { posEntry 22 57 false 10000 with period := 0 }
    e.age = (if e.period = 0 then 10000 else max (3 * e.period) 750) := by decide
theorem wit_PointsStored :
    fromOther 50 run0 = true ∧ points1.wf = true ∧ (∀ o ∈ run0.ce.own, namesNode 50 o = false) ∧ run0.ce.failedHold ≠ some 50 ∧
      (∀ k ∈ run0.ov.pointsTab, k.node ≠ 50) ∧ run0.ov.pointsTab.length < 16 ∧ run0.tli.silent = false := by decide
theorem wit_PointsStored_full :
    let s := withOv (fun o => { o with pointsTab := List.replicate 16 ⟨9, 5, .failed, 0, false, .normal, 0, .queued, 3⟩ }) run0
    16 ≤ s.ov.pointsTab.length ∧ (∃ k ∈ s.ov.pointsTab, pointsInUse s k.node = false) ∧ (∀ k ∈ s.ov.pointsTab, k.node ≠ 50) := by
  decide
theorem wit_PointsStored_lost :
    let o := own .none 41 .firm (some ⟨50, .normal, .freed⟩)
    let s := withCe (fun c => { c with own := [o] }) ready0
    s.ce.own = [o] ∧ firmState o.st = true ∧ namesNode 50 o = true ∧ o.leg = .none ∧ s.cs.state ≠ .fault ∧ s.ce.span = none := by
  decide
theorem wit_ClaimAnswered_held :
    fromOther 9 run0 = true ∧ claimWf 1 500 [⟨41, .up, .tentative, false⟩] = true ∧ (ownOn run0 41).isSome = true ∧
      compatible .up false .up false = false ∧ run0.ce.span = none ∧ run0.cs.state ≠ .fault := by decide
theorem wit_ClaimAnswered_again : (9, 44) ∈ (fault0 false).ce.clashMem ∧ (fault0 false).cs.state = .fault ∧
    (ownOn (fault0 false) 44).map OwnClaim.st = some .firm := by decide
theorem wit_SpanContested :
    span1.ce.span = some span0 ∧ (ownOn span1 42).map (fun e => (inSpan span0 e, e.st)) = some (true, .tentative) ∧
      span1.ce.attempts + 1 < 8 ∧ fromOther 9 span1 = true ∧ claimWf 1 500 [⟨42, .up, .tentative, false⟩] = true ∧
      compatible .up false .up false = false ∧ outranks 1 9 (ownClass span1) span1.tli.addr = true ∧ span1.tli.silent = false := by
  decide
theorem wit_SpanContested_eighth : (withCe (fun c => { c with attempts := 6 }) span1).ce.attempts + 1 < 8 := by decide
theorem wit_SpanContested_object :
    (15 : Addr) ≠ run0.tli.addr ∧ ownOn run0 99 = none ∧ (ownOn run0 41).map (fun e => firmState e.st) = some true ∧
      run0.cs.state ≠ .fault := by decide

theorem wit_SpanOpened_clear :
    acquisitionReady near0 = true ∧ near0.os.active = some active0 ∧ near0.ov.viewFull = false ∧
      chooseSpan active0 4 near0 ≠ [] ∧ (∀ l ∈ chooseSpan active0 4 near0, blockedBy near0 l.seg l.dir l.convoy 1 = none) := by decide
theorem wit_SpanOpened_blocked :
    let s := viewOf [⟨9, 57, .down, .firm, false, 1, 500, 0, false⟩] near0
    acquisitionReady s = true ∧ (chooseSpan active0 4 s)[1]? = some (leg 57 120000 none) ∧
      blockedBy s 57 .up false 1 = some 9 ∧ (∀ m ∈ (chooseSpan active0 4 s).take 1, blockedBy s m.seg m.dir m.convoy 1 = none) ∧
      0 + 1 < 8 := by decide
theorem wit_SpanOpened_viewFull : acquisitionReady (withOv (fun o => { o with viewFull := true }) near0) = true := by decide
theorem wit_SpanOpened_not : acquisitionReady run0 = false ∧ run0.os.active = some active0 := by decide
theorem wit_WindowCloses_none : ({ span0 with phase := .pointsWait } : Span).phase = .pointsWait := by decide
theorem wit_SpanAborts :
    span1.ce.span = some span0 ∧ counts .halted = false ∧ span1.ce.attempts + 1 < 8 ∧ counts .outranked = true ∧
      shrinks .outranked = true ∧ span0.announced = true ∧ span1.tli.clash = false := by decide
theorem wit_SpanAborts_timeout :
    let sp : Span := { span0 with phase := .pointsWait }
    ((span1.ce.own.filter (inSpan sp)).find? (fun o => o.points.any (fun q => decide (q.status ≠ .granted)))).map OwnClaim.seg
      = some 42 := by decide
theorem wit_CarriageTimers :
    run0.tli.kind = .carriage ∧ run0.ce.refresh.isSome = true ∧ run0.ce.own ≠ [] ∧ run0.ce.own.length ≤ 12 ∧
      run0.tli.txq.length ≤ 7 ∧ run0.tli.clash = false ∧ effPeriod run0 ≠ 0 ∧ run0.pu.timer.isSome = true ∧
      (withCe (fun c => { c with backoff := some ⟨5, 5⟩ }) run0).ce.backoff.isSome = true ∧
      (withOv (fun o => { o with listen := some 4000 }) run0).ov.listen.isSome = true ∧ run0.pu.held = none ∧
      unlocated0.ce.own = [] ∧ effPeriod bare0 = 0 ∧ (withCe (fun c => { c with refresh := none }) run0).ce.refresh = none := by decide
theorem wit_FaultRaised_first : span1.cs.state ≠ .fault ∧ span1.tli.clash = false ∧ console span1 = some 63 := by decide
theorem wit_FaultRaised_further :
    (fault0 false).cs.state = .fault ∧ (fault0 false).cs.fault = some ⟨.firmClash, 44, 0, 0, none, false⟩ ∧
      (9, 44) ∈ (fault0 false).ce.clashMem ∧ 50 ∈ (fault0 false).ce.lostMem := by decide
theorem wit_InputsAsserted :
    run0.tli.kind = .carriage ∧ run0.cs.eStop = false ∧ run0.cs.driveFault = false ∧ run0.pu.known = true ∧
      run0.cs.state ≠ .fault ∧ unlocated0.pu.known = false ∧ unlocated0.cs.state ≠ .running ∧
      (withCs (fun c => { c with eStop := true, driveFault := true }) run0).cs.eStop = true := by decide
theorem wit_EvaluationMade_full :
    run0.cs.state = .running ∧ run0.pu.standstill = false ∧ run0.eu.exceed = 0 ∧
      decide (run0.eu.demand + max 50 (run0.eu.demand / 8) < measuredSpeed run0) = false := by decide
theorem wit_EvaluationMade_fast :
    let s := withEu (fun e => { e with demand := 1333, exceed := 1 }) run0
    decide (s.eu.demand + max 50 (s.eu.demand / 8) < measuredSpeed s) = true ∧ s.eu.exceed ≠ 0 := by decide
theorem wit_EvaluationMade_idle : ready0.cs.state ≠ .running ∧ ready0.cs.state ≠ .stopping ∧ ready0.cs.state ≠ .halted := by decide
theorem wit_EvaluationMade_limits :
    run0.os.active = some active0 ∧ run0.pu.route = some route0 ∧ authorityEnd run0 = some 58000 ∧
      legAt active0.ord.legs 2 = some (leg 42 35000 (some ⟨50, .reverse⟩)) ∧ lastPad padOrder = some ⟨1, 7, 50000, true⟩ ∧
      (4294967295 : Nat) < 4294967296 := by decide
theorem wit_TargetSet : run0.tli.kind = .carriage ∧ run0.cs.state = .running ∧ run0.tli.silent = false ∧ run0.ov.listen = none ∧
    run0.cs.latch = none ∧ run0.cr.hold = false ∧ run0.eu.padStop = false := by decide
theorem wit_TargetSet_zero : halted0.cs.state = .halted ∧ halted0.cs.latch.isSome = true := by decide
theorem wit_TargetSet_pad : lastPad padActive.ord = some ⟨1, 7, 50000, true⟩ ∧ padRun.os.active = some padActive ∧
    padRun.pu.route = some route0 ∧ padRun.tli.kind = .carriage := by decide
theorem wit_LeaderFound : started convoy0 = some active0 ∧ convoy0.pu.route = some route0 ∧ movingState convoy0.cs.state = true ∧
    candidates active0 route0 convoy0 ≠ [] := by decide
theorem wit_LeaderFound_none : candidates active0 route0 run0 = [] ∧ started run0 = some active0 ∧ started ready0 = none := by decide
theorem wit_ConvoyHoldKept : (cfg convoy0).hold < (cfg convoy0).resume ∧ started convoy0 = some active0 ∧
    (candidates active0 route0 convoy0).map Leader.gap = [25000] := by decide
theorem wit_BatchApplied :
    run0.cs.comm = some comm0 ∧ run0.cs.state = .running ∧ active0.phase ≠ .waiting ∧ active0.ord.pad = none ∧
      run0.ce.firmEnd = some 60000 ∧ (0 : Nat) < 65536 ∧ ready0.pu.route = none ∧ bare0.cs.comm = none ∧
      driftState unlocated0.cs.state = false ∧ unlocated0.pu.route = none := by decide
theorem wit_BatchApplied_missed :
    (((legEnd active0.ord.legs 1 + comm0.tol : Nat) : Int) < 5000 + (odometry 19661 0 200000).1) := by decide
theorem wit_StandstillTaken :
    measuredSpeed (still0 5000) = 0 ∧ (still0 5000).pu.standstill = false ∧ (still0 5000).eu.demand = 0 ∧
      (still0 5000).cs.state = .running ∧ measuredSpeed run0 ≠ 0 ∧ ready0.pu.standstill = true ∧ (still0 5000).eu.target = 0 := by
  decide
theorem wit_StandstillTaken_arrives :
    let a := { active0 with nextClaim := 5 }
    let s := withOs (fun o => { o with active := some a }) (still0 253000)
    s.os.active = some a ∧ a.phase = .underway ∧ s.os.pending = none ∧ s.ce.span = none ∧ a.ord.pad = none ∧
      s.eu.padStop = false ∧ a.ord.legs.length < a.nextClaim ∧
      ((routeEnd a.ord.legs : Nat) : Int) - (cfg s).margin ≤ 253000 := by decide
theorem wit_LeadingReadTaken_accepted :
    let a := { active0 with tailLeg := .leg 1, rear := none }
    let s := withPu (fun p => { p with route := some { route0 with x := 60250 } }) (withOs (fun o => { o with active := some a }) run0)
    s.os.active = some a ∧ movingState s.cs.state = true ∧ leadPair a.ord.legs a.headLeg = some (41, 42) ∧
      (60250 - ((legEnd a.ord.legs 1 : Nat) : Int)).natAbs ≤ (cfg s).tol ∧ a.ord.pad = none ∧ s.ce.firmEnd = some 60000 ∧
      (60000 : Int) - (cfg s).length + 0 ≤ (((nextTailBoundary a).1 + (cfg s).tol : Nat) : Int) := by decide
theorem wit_LeadingReadTaken_faults :
    leadPair active0.ord.legs 1 ≠ some (42, 57) ∧ (cfg run0).tol < (route0.x - ((legEnd active0.ord.legs 1 : Nat) : Int)).natAbs ∧
      repeated route0.lastLead 41 42 5000 250 = false ∧
      repeated (some ⟨41, 42, 60000⟩) 41 42 60250 250 = true := by decide
theorem wit_TrailingOrPadRead_accepted :
    let s := withPu (fun p => { p with route := some { route0 with x := 12250 } }) run0
    deferredPair 40 41 s = false ∧ trailPair active0 = some (40, 41, 0, 1) ∧
      (tailCoord s { route0 with x := 12250 } - 0).natAbs ≤ (cfg s).tol ∧
      s.ce.own.findIdx? (fun e => decide (e.seg = 41)) = some 1 ∧ (s.ce.own.map OwnClaim.seg).Nodup ∧
      repeated route0.lastTrail 40 41 250 250 = false := by decide
theorem wit_TrailingOrPadRead_faults :
    deferredPair 42 40 (withPu (fun p => { p with deferral := some 42 }) run0) = true ∧
      trailPair active0 = some (40, 41, 0, 1) ∧ (40, 41) ≠ (41, 42) ∧ (cfg run0).tol < (tailCoord run0 route0 - 0).natAbs := by decide
theorem wit_TrailingOrPadRead_overrun :
    let s := withPu (fun p => { p with route := some { route0 with x := 60001 } }) run0
    s.ce.firmEnd = some 60000 ∧ (60000 : Int) < 60001 ∧ movingState s.cs.state = true ∧ active0.phase ≠ .waiting := by decide
theorem wit_TrailingOrPadRead_pad :
    padRun.os.active = some padActive ∧ padRun.pu.route = some route0 ∧ lastPad padActive.ord = some ⟨1, 7, 50000, true⟩ ∧
      padActive.headLeg = padActive.ord.legs.length ∧ padRun.pu.padRead = none ∧ movingState padRun.cs.state = true ∧
      lastPad active0.ord = none := by decide
theorem wit_TrailingOrPadRead_early :
    let o : OrderRec := { order0 with pad := some ⟨4, 7, 30000, true⟩ }
    let a : ActiveOrder := { active0 with ord := o }
    lastPad a.ord = some ⟨4, 7, 30000, true⟩ ∧ a.headLeg ≠ a.ord.legs.length := by decide
theorem wit_JacksMove :
    docking0.cs.state = .docking ∧ docking0.os.active = some padActive ∧ docking0.os.pending = none ∧ docking0.ce.span = none ∧
      docking0.ds.dockTimer.isSome = true ∧ undocking0.cs.state = .undocking ∧ undocking0.os.stopMark = false ∧
      undocking0.ds.undockTimer.isSome = true ∧ ready0.ds.dockTimer = none ∧ ready0.ds.undockTimer = none ∧
      docking0.tli.clash = false := by decide
theorem wit_JacksMove_fault :
    (withCs (fun c => { c with state := .fault }) docking0).ds.cmd = .lower ∧ (fault0 false).ds.cmd = .off ∧
      (withOs (fun o => { o with stopMark := true }) undocking0).os.stopMark = true := by decide


/-! ## Witnesses of the clauses added after the first review -/

def latched (s : State) : State := withCs (fun c => { c with latch := some ⟨3, .console⟩, watcher := some ⟨63, 7, 500⟩ }) s
def atX (x : Int) (s : State) : State := withPu (fun p => { p with route := p.route.map (fun r => { r with x := x }) }) s
def waiting0 : State := withOs (fun o => { o with active := some (waitingOrder order0) }) ready0
def spanFirm : State := { span1 with ce := { span1.ce with span := some { span0 with phase := .pointsWait } } }
def grant42 : PointsEntry := ⟨50, 42, .lockedReverse, 14, false, .reverse, 14, .granted, 0⟩
def notice42 (st : PointsState) (holder requester : Addr) (code : AnswerCode) : PointsNotice :=
  ⟨42, st, 1, holder, false, .reverse, requester, code⟩
/-- Leg 2 held FIRM ahead of the head, with points granted. -/
def ahead0 : State :=
  { run0 with
    os := { run0.os with active := some { active0 with nextClaim := 3 } }
    ce := { run0.ce with own := run0.ce.own ++ [own (.leg 2) 42 .firm (some ⟨50, .reverse, .granted⟩)], firmEnd := some 95000 } }

theorem wit_BlocksKept_next : (∃ t, exec (.pointsFree 14) points0 = .next t) ∧
    (∃ t, exec (.envelopeEvaluation true) run0 = .next t) := ⟨⟨_, rfl⟩, _, rfl⟩
theorem wit_RequestJudged_points :
    points0.tli.kind = .points ∧ points0.pa.console = some 63 ∧ points0.pa.console ≠ some 9 ∧ points0.pa.comm.isSome = true ∧
      (withPa (fun p => { p with comm := none }) points0).pa.comm = none ∧
      points0.tli.inbound.head? ≠ some ⟨9, .commission comm0 .none⟩ ∧
      run0.tli.inbound.head? ≠ some ⟨9, .pointsCommission ⟨42, 8, 500⟩⟩ ∧
      senderOk 9 .pointsFree points0 = true ∧ fits points0.tli.kind .pointsFree = true := by decide
theorem wit_OwnAddressHeard_kinds :
    (Request.commission comm0 .none).wf = true ∧ fits run0.tli.kind (.commission comm0 .none) = true ∧
      fits points0.tli.kind .pointsFree = true ∧ (65535 : Nat) ≤ 65535 ∧ addrOk 1 = true ∧ segOk 1023 = true ∧
      points1.wf = true ∧ position0.wf = true ∧ (63 : Nat) ≤ 63 ∧ claimWf 3 1023 fourItems = true ∧ releaseWf [1023] = true := by
  decide
theorem wit_MalformedAndAcked_bounds :
    addrOk 0 = false ∧ addrOk 64 = false ∧ (65535 : Nat) < 65536 ∧ segOk 1024 = false ∧ segOk 0 = false ∧ (63 : Nat) < 64 ∧
      releaseWf [1024] = false ∧ claimWf 1 1024 fourItems = false ∧ (Request.drop).wf = true ∧ fits run0.tli.kind .drop = true ∧
      (15 : Addr) ≠ run0.tli.addr ∧ run0.tli.kind = .carriage ∧ points0.tli.kind = .points := by decide
theorem wit_MalformedAndAcked_passes :
    (frameCheck 50 .points (wireBits 14 (.claim 1 500 [⟨58, .up, .firm, false⟩]))).isSome = true := by
  rw [test_claim_on_wire]; rfl
theorem wit_SendingRuns_line :
    (∃ e ∈ sending0.tli.txq, e.sending = true) ∧ (withTx [] run0).tli.txq = [] ∧
      (withTli (fun t => { t with idle := true }) (withTx [tx release0 false false .plain] run0)).tli.idle = true := by decide
theorem wit_FrameDeparts_withdrawn :
    let e := tx (.claim 1 500 [⟨42, .up, .tentative, false⟩]) false true .announcement
    let a := tx (.pointsAsk 50 .reverse 1 31) false true (.ask 50 42)
    sendingEntry (withTx [{ e with withdrawn := true }] run0).tli = some { e with withdrawn := true } ∧
      sendingEntry (withTx [{ a with withdrawn := true }] run0).tli = some { a with withdrawn := true } ∧
      e.tag = .announcement ∧ a.tag = .ask 50 42 ∧ isPosition e = false ∧ isPeriodicPoints a = false ∧
      run0.tli.offerLine = [] ∧ run0.ce.refreshOut = false ∧ run0.tli.clash = false := by decide
theorem wit_SilenceReported_span : span1.tli.silent = false ∧ span1.tli.kind = .carriage ∧ headWithin (outsideSpan span1) span1 :=
  ⟨rfl, rfl, (headWithin_iff _ _).mpr (by decide)⟩
theorem wit_OrderStarts_clean : startsClean (storedOrder comm0 order0) (inb 63 (.order order0) ready0) :=
  ⟨rfl, ⟨41, 5000, .up⟩, ⟨40, 3000, .up⟩, leg 41 60000 none, rfl, rfl, rfl, rfl, rfl, by decide, by decide, by decide,
    fun p hp => by cases hp⟩
theorem wit_OrderStarts_tied :
    let e : OwnClaim := { own .none 41 .firm none with dir := .down }
    let s := withCe (fun c => { c with own := [own .none 40 .firm none, e] }) ready0
    e ∈ s.ce.own ∧ e.dir ≠ .up ∧ s.tli.clash = false ∧ s.cs.console = some 63 := by decide
theorem wit_StopTaken_span : headWithin (outsideSpan span1) span1 ∧ span1.ce.span.isSome = true :=
  ⟨(headWithin_iff _ _).mpr (by decide), rfl⟩
theorem wit_StopTaken_rest :
    let s := inb 63 (.stop .immediate) (withPu (fun p => { p with standstill := true }) (still0 5000))
    atFront 63 (.stop .immediate) s = true ∧ s.tli.kind = .carriage ∧ s.cs.state = .running ∧ s.ce.span = none ∧ s.eu.demand = 0 ∧
      s.pu.standstill = true ∧ s.os.active = some active0 ∧ active0.phase ≠ .waiting := by decide
theorem wit_StopTaken_pending :
    (withOs (fun o => { o with pending := some order0 }) run0).os.pending = some order0 ∧ run0.tli.clash = false ∧
      run0.cs.console = some 63 := by decide
theorem wit_LocateTaken_joint : (41 : Seg) ≠ 40 ∧ (3000 : Mm) ≠ 10000 ∧
    (∀ e ∈ (viewOf [⟨9, 41, .up, .firm, false, 1, 500, 0, true⟩] unlocated0).ov.claims,
      e.stale = true ∨ firmState e.st = false ∨ (e.seg ≠ 41 ∧ e.seg ≠ 40)) := by decide
theorem wit_CommissionTaken_atOnce :
    let s := inb 63 (.commission comm0 track0) bare0
    atFront 63 (.commission comm0 track0) s = true ∧ s.cs.state = .uncommissioned ∧
      badLocation (clampComm comm0) s.ds.pos track0 = false ∧ s.ov.listen = none ∧ s.tli.silent = false ∧
      (heldOf (clampComm comm0) track0).isSome = true ∧ s.cs.eStop = false ∧ s.cs.driveFault = false ∧ s.ov.claims = [] ∧
      s.tli.clash = false := by decide
theorem wit_StaleCleared_points :
    atFront 63 (.clearStale 14) (inb 63 (.clearStale 14) points0) = true ∧ points0.tli.kind = .points ∧
      fromOther 63 points0 = true ∧ (63 : Addr) ≤ 63 ∧ points0.pa.console = some 63 ∧ points0.pa.console ≠ some 9 ∧
      liveIn points0 14 = true ∧ points0.tli.clash = false := by decide
theorem wit_PointsResetTaken_noPosition :
    let s := withTs (fun t => { t with state := .failed, normalLock := false }) points0
    s.ts.normalLock = s.ts.reverseLock ∧ s.ts.state ≠ .throwing ∧ s.ts.state ≠ .recovering := by decide
theorem wit_QueryAnswered_fields :
    (∀ a, waiting0.os.active = some a → a.phase = .waiting) ∧ active0.phase ≠ .waiting ∧ unlocated0.pu.known = false ∧
      ready0.pu.route = none ∧ ready0.pu.endA = some ⟨41, 5000, .up⟩ ∧ ready0.pu.endB = some ⟨40, 3000, .up⟩ ∧
      run0.pu.known = true ∧ run0.pu.route = some route0 ∧ run0.os.active = some active0 ∧ active0.tailLeg = .rear ∧
      active0.rear = some ⟨40, .up, 2000⟩ ∧ legAt active0.ord.legs active0.headLeg = some (leg 41 60000 none) ∧
      ({ active0 with tailLeg := .leg 1 } : ActiveOrder).tailLeg = .leg 1 ∧ run0.ce.firmEnd = some 60000 ∧
      ready0.ce.firmEnd = none := by
  refine ⟨fun a h => ?_, by decide, by decide, by decide, by decide, by decide, by decide, by decide, by decide, by decide,
    by decide, by decide, by decide, by decide, by decide⟩
  cases h; rfl
theorem wit_RecoveryFails_lock : recovering0.ts.previous = .normal ∧ recovering0.ts.state = .recovering := by decide
theorem wit_ThrowRuns_back :
    let s := pq [ask1] throwing0
    s.ts.state = .throwing ∧ s.pa.queue = ask1 :: [] ∧ ask1.pos ≠ s.ts.target ∧ s.pa.comm.isSome = true ∧ s.pa.grant = none ∧
      s.pa.latch = none ∧ listeningIn s = false ∧ soleClaimant s ask1.requester = true ∧ s.tli.clash = false ∧
      s.tli.txq.length < 10 ∧ (∀ k ∈ s.tli.kept, k.block ≠ .pa) := by decide
theorem wit_HaltAndResume_span : headWithin (outsideSpan span1) span1 ∧ run0.ce.span = none ∧ run0.cs.latch = none ∧
    run0.cs.state = .running := ⟨(headWithin_iff _ _).mpr (by decide), rfl, rfl, rfl⟩
theorem wit_HaltAndResume_padStop :
    let o : OrderRec := { padOrder with pad := some ⟨1, 7, 50000, false⟩ }
    let a : ActiveOrder := { active0 with ord := o }
    let s := latched (withCs (fun c => { c with state := .halted }) (withEu (fun e => { e with padStop := true })
      (withPu (fun p => { p with standstill := true, padRead := some 50000 }) (withOs (fun x => { x with active := some a })
        (still0 50020)))))
    s.cs.watcher = some ⟨63, 7, 500⟩ ∧ s.cs.latch.isSome = true ∧ s.cs.state = .halted ∧ s.eu.padStop = true ∧ s.eu.demand = 0 ∧
      s.pu.standstill = true ∧ s.os.active = some a ∧ s.pu.route.isSome = true ∧ s.pu.padRead = some 50000 ∧
      s.os.pending = none ∧ s.ce.span = none ∧ (lastPad o).any PadSpec.dock = false := by decide
theorem wit_HaltAndResume_starts : startsClean (waitingOrder order0).ord (latched waiting0) :=
  ⟨rfl, ⟨41, 5000, .up⟩, ⟨40, 3000, .up⟩, leg 41 60000 none, rfl, rfl, rfl, rfl, rfl, by decide, by decide, by decide,
    fun p hp => by cases hp⟩
theorem wit_HaltAndResume_waiting :
    let s := latched waiting0
    s.cs.watcher = some ⟨63, 7, 500⟩ ∧ s.cs.latch.isSome = true ∧ s.cs.state = .ready ∧
      s.os.active = some (waitingOrder order0) ∧ (waitingOrder order0).phase = .waiting ∧
      firstLegOk (waitingOrder order0).ord (latched (withPu (fun p => { p with endA := some ⟨57, 5000, .up⟩ }) waiting0)) = false ∧
      s.os.pending = none := by decide
theorem wit_HaltAndResume_held : (halted0.eu.demand ≠ 0) ∧ (latched ready0).cs.state ≠ .halted ∧ ready0.os.active = none := by
  decide

def fullPos : State :=
  withOv (fun o => { o with posTab := (List.range 16).map (fun i => posEntry (20 + i) (if i < 2 then 57 else 203) (decide (i = 5)) i) })
    (withCr (fun c => { c with leader := some ⟨20, 57, 0, 95000, 80000, false⟩ }) run0)

theorem wit_PositionStored_candidate :
    16 ≤ fullPos.ov.posTab.length ∧ (∀ k ∈ fullPos.ov.posTab, k.carriage ≠ 9) ∧ fromOther 9 fullPos = true ∧
      (∃ k ∈ fullPos.ov.posTab, k.carriage = 25 ∧ k.stale = true ∧ onRoute fullPos k = false) ∧
      (∃ k ∈ fullPos.ov.posTab, k.carriage = 21 ∧ onRoute fullPos k = true) ∧
      fullPos.cr.leader.map Leader.addr = some 20 := by decide
theorem wit_PointsStored_reached :
    let o := own (.leg 1) 41 .firm (some ⟨50, .normal, .freed⟩)
    let s := withCe (fun c => { c with own := [own .rear 40 .firm none, o] }) run0
    s.ce.own.filter (namesNode 50) = [o] ∧ firmState o.st = true ∧ o.leg = .leg 1 ∧ s.os.active = some active0 ∧
      s.pu.route = some route0 ∧ ((legStart active0.ord.legs 1 : Nat) : Int) ≤ route0.x ∧ s.cs.state ≠ .fault ∧
      s.ce.span = none ∧ (notice42 .failed 0 0 .queued).wf = true ∧ (notice42 .failed 0 0 .queued).state = .failed := by decide
theorem wit_PointsStored_rear :
    (own .rear 40 .firm (some ⟨50, .normal, .freed⟩)).leg = .rear ∧ namesNode 50 (own .rear 40 .firm (some ⟨50, .normal, .freed⟩)) = true := by
  decide
theorem wit_PointsStored_pullBack :
    let before := run0.ce.own
    let o := own (.leg 2) 42 .firm (some ⟨50, .reverse, .granted⟩)
    ahead0.ce.own = before ++ o :: [] ∧ (ahead0.ce.own.map OwnClaim.seg).Nodup ∧ firmState o.st = true ∧ o.leg = .leg 2 ∧
      namesNode 50 o = true ∧ (∀ k ∈ before, firmState k.st = true → namesNode 50 k = false) ∧
      ahead0.os.active = some { active0 with nextClaim := 3 } ∧ ahead0.pu.route = some route0 ∧ ahead0.ce.span = none ∧
      route0.x < ((legStart active0.ord.legs 2 : Nat) : Int) ∧ 0 + 1 < 8 ∧ ahead0.ce.attemptLeg ≠ some 2 ∧
      (withCe (fun c => { c with attemptLeg := some 2, attempts := 6 }) ahead0).ce.attempts + 1 < 8 := by decide
theorem wit_PointsStored_pullBackWithin : headWithin run0.ce.own ahead0 := (headWithin_iff _ _).mpr (by decide)
theorem wit_PointsStored_span :
    let o := own (.leg 2) 42 .tentative (some ⟨50, .reverse, .asked⟩)
    span1.ce.span = some span0 ∧ span1.ce.own.filter (namesNode 50) = [o] ∧ inSpan span0 o = true ∧ o.st = .tentative ∧
      span1.ce.attempts + 1 < 8 := by decide
theorem wit_PointsStored_hold : (withCe (fun c => { c with failedHold := some 50 }) run0).ce.failedHold = some 50 ∧
    (notice42 .throwing 0 0 .queued).state ≠ .failed := by decide
theorem wit_ClaimAnswered_inSpan :
    let e := own (.leg 2) 42 .tentative (some ⟨50, .reverse, .asked⟩)
    span1.ce.span = some span0 ∧ ownOn span1 42 = some e ∧ inSpan span0 e = true ∧ e.st = .tentative ∧
      compatible e.dir e.convoy .up true = false ∧ outranks (ownClass span1) span1.tli.addr 2 9 = true ∧
      claimWf 2 500 [⟨42, .up, .tentative, true⟩] = true := by decide
theorem wit_SpanContested_within : headWithin (outsideSpan span1) span1 := (headWithin_iff _ _).mpr (by decide)
theorem wit_SpanContested_answers :
    let o := own (.leg 2) 42 .tentative (some ⟨50, .reverse, .asked⟩)
    let q := notice42 .throwing 0 14 .queued
    let r := notice42 .lockedNormal 0 14 .refusedNotClaimant
    fromOther 50 span1 = true ∧ q.wf = true ∧ r.wf = true ∧ q.state ≠ .failed ∧ span1.ce.span = some span0 ∧
      span1.ce.own.filter (namesNode 50) = [o] ∧ inSpan span0 o = true ∧ o.st = .tentative ∧
      o.points = some ⟨50, .reverse, .asked⟩ ∧ q.requester = span1.tli.addr ∧ span1.tli.addr ≠ 0 ∧
      (∀ k ∈ span1.ov.pointsTab, k.node = 50 → k.requester ≠ span1.tli.addr ∨ k.code ≠ q.code) ∧ r.code ≠ .queued ∧
      r.code ≠ .granted ∧ span1.ce.attempts + 1 < 8 ∧ q.code = .queued ∧ q.holder ≠ span1.tli.addr := by decide
theorem wit_SpanOpened_within :
    headWithin (near0.ce.own ++ spanEntries 2 (chooseSpan active0 4 near0)) near0 := (headWithin_iff _ _).mpr (by decide)
theorem wit_WindowCloses_notGranted :
    (∃ e ∈ span1.ce.own, inSpan span0 e = true ∧ e.points = some ⟨50, .reverse, .asked⟩) ∧
      tableGrants span1 50 42 .reverse = false := by decide
theorem wit_WindowCloses_granted :
    let s := withOv (fun o => { o with pointsTab := [grant42] }) span1
    s.ce.span = some span0 ∧ (∀ e ∈ s.ce.own, inSpan span0 e = true → e.points = some ⟨50, .reverse, .asked⟩) ∧
      tableGrants s 50 42 .reverse = true ∧ s.tli.clash = false := by decide
theorem wit_WindowCloses_within :
    headWithin (span1.ce.own.map (fun e => if inSpan span0 e then
      { e with st := .firm, points := e.points.map (fun p => { p with status := .granted }) } else e)) span1 :=
  (headWithin_iff _ _).mpr (by decide)
theorem wit_WindowCloses_notice :
    (notice42 .lockedReverse 14 14 .granted).wf = true ∧ (notice42 .lockedReverse 14 14 .granted).state ≠ .failed ∧
      ahead0.ce.span = none ∧ span1.ce.span = some span0 ∧ span0.phase = .contest ∧ fromOther 50 ahead0 = true ∧
      (notice42 .throwing 9 9 .queued).requester ≠ ahead0.tli.addr := by decide
theorem wit_WindowCloses_noticeCommits :
    spanFirm.ce.span = some { span0 with phase := .pointsWait } ∧
      (∃ e ∈ spanFirm.ce.own, inSpan span0 e = true ∧ namesNode 50 e = true) ∧
      (∀ e ∈ spanFirm.ce.own, inSpan span0 e = true → e.st = .tentative ∧ e.points = some ⟨50, .reverse, .asked⟩ ∧ e.seg = 42) ∧
      spanFirm.tli.addr = 14 ∧ spanFirm.tli.clash = false := by decide
theorem wit_WindowCloses_noticeWithin :
    headWithin (spanFirm.ce.own.map (fun e => if inSpan span0 e then
      { e with st := .firm, points := e.points.map (fun p => { p with status := .granted }) } else e)) spanFirm :=
  (headWithin_iff _ _).mpr (by decide)
theorem wit_SpanAborts_within : headWithin (outsideSpan span1) span1 := (headWithin_iff _ _).mpr (by decide)
theorem wit_SpanAborts_eighth :
    let s := withCe (fun c => { c with attempts := 7 }) span1
    counts .outranked = true ∧ 8 ≤ s.ce.attempts + 1 ∧ s.os.active.isSome = true ∧ s.eu.demand ≠ 0 ∧ s.os.pending = none ∧
      movingState s.cs.state = true ∧
      (withPu (fun p => { p with standstill := true }) (withEu (fun e => { e with demand := 0 }) s)).pu.standstill = true := by decide
theorem wit_CarriageTimers_held :
    let s := withOv (fun o => { o with listen := some 4000 }) (withPu (fun p => { p with held := heldOf comm0 track0 }) unlocated0)
    s.ov.listen.isSome = true ∧ s.pu.held.isSome = true ∧ s.cs.state = .unlocated ∧ s.tli.silent = false ∧ s.cs.eStop = false ∧
      s.cs.driveFault = false ∧ s.ov.claims = [] := by decide
theorem wit_CarriageTimers_stopped :
    unlocated0.ce.backoff = none ∧ ready0.ov.listen = none ∧ (withPu (fun p => { p with timer := none }) run0).pu.timer = none := by
  decide
theorem wit_FaultRaised_ahead :
    ahead0.ce.span = none ∧ ahead0.ce.own = [own .rear 40 .firm none] ++ own (.leg 1) 41 .firm none ::
        [own (.leg 2) 42 .firm (some ⟨50, .reverse, .granted⟩)] ∧
      (41 : Seg) = (headPos ahead0).1 ∧ (ahead0.ce.own.map OwnClaim.seg).Nodup ∧ 42 ∉ ahead0.ce.clashMem.map Prod.snd ∧
      ahead0.tli.clash = false ∧ ahead0.cs.state ≠ .fault := by decide
theorem wit_InputsAsserted_span : headWithin (outsideSpan span1) span1 ∧ span1.cs.eStop = false :=
  ⟨(headWithin_iff _ _).mpr (by decide), rfl⟩
theorem wit_LeaderFound_leg : 1 ≤ active0.headLeg := by decide
theorem wit_BatchApplied_drift :
    driftState ready0.cs.state = true ∧ ready0.pu.route = none ∧ comm0.tol < ((0 : Int) + 251).natAbs ∧
      ((0 : Int) + 250).natAbs ≤ comm0.tol ∧ (unlocated0.cs.comm = some comm0) := by decide
theorem wit_BatchApplied_back : (-251 : Int) < 0 ∧ (5000 - 5251 : Int) < ((legStart active0.ord.legs 1 : Nat) : Int) - comm0.tol ∧
    run0.cs.state ≠ .fault := by decide
theorem wit_BatchApplied_deferral :
    (((nextTailBoundary active0).1 + comm0.tol : Nat) : Int) < 12251 - comm0.length ∧
      (12251 : Int) ≤ ((legEnd active0.ord.legs 1 + comm0.tol : Nat) : Int) ∧ run0.pu.deferral = none ∧
      (12251 : Int) - comm0.length ≤ (((nextTailBoundary { active0 with tailLeg := .leg 1, rear := none }).1 + comm0.tol : Nat) : Int) ∧
      lastPad active0.ord = none ∧ run0.ce.firmEnd = some 60000 ∧ (12251 : Int) ≤ 60000 := by decide
theorem wit_BatchApplied_tailMissed :
    (withPu (fun p => { p with deferral := some 40 }) run0).pu.deferral.isSome = true ∧ movingState run0.cs.state = true := by decide
theorem wit_BatchApplied_padMissed :
    lastPad padActive.ord = some ⟨1, 7, 50000, true⟩ ∧ padRun.pu.padRead = none ∧
      ((padCoord padActive.ord ⟨1, 7, 50000, true⟩ + comm0.tol : Nat) : Int) < 50251 ∧
      (50251 : Int) - comm0.length ≤ (((nextTailBoundary { padActive with tailLeg := .leg 1 }).1 + comm0.tol : Nat) : Int) := by decide
theorem wit_BatchApplied_overrun : run0.ce.firmEnd = some 60000 ∧ ((60000 : Nat) : Int) < 60001 ∧
    (60001 : Int) ≤ ((legEnd active0.ord.legs 1 + comm0.tol : Nat) : Int) := by decide

/-- Under the pad stop, at rest but for the standstill event. -/
def padStill (x : Int) (dock : Bool) : State :=
  withOs (fun o => { o with active := some { padActive with ord := { padOrder with pad := some ⟨1, 7, 50000, dock⟩ }, nextClaim := 2 } })
    (withEu (fun e => { e with padStop := true }) (withPu (fun p => { p with padRead := some 50000 }) (still0 x)))
theorem wit_StandstillTaken_unread :
    let a := { padActive with nextClaim := 2 }
    let s := withOs (fun o => { o with active := some a }) (still0 58000)
    s.os.active = some a ∧ s.pu.route.map Route.x = some 58000 ∧ s.cs.state = .running ∧ a.phase = .underway ∧
      s.eu.padStop = false ∧ a.ord.legs.length < a.nextClaim ∧ ((routeEnd a.ord.legs : Nat) : Int) - (cfg s).margin ≤ 58000 ∧
      (lastPad a.ord).isSome = true ∧ s.eu.demand = 0 ∧ s.ce.span = none ∧ s.pu.standstill = false := by decide
theorem wit_StandstillTaken_blocked :
    let s := withCe (fun c => { c with own := c.own ++ [own .none 42 .firm none] }) (still0 58000)
    s.os.active = some active0 ∧ legAt active0.ord.legs active0.nextClaim = some (leg 42 35000 (some ⟨50, .reverse⟩)) ∧
      (∃ e ∈ s.ce.own, e.seg = 42) ∧ ((s.ce.firmEnd.getD 0 - (cfg s).margin : Nat) : Int) ≤ 58000 ∧
      s.ce.own = [own .rear 40 .firm none] ++ own (.leg 1) 41 .firm none :: [own .none 42 .firm none] ∧
      (s.ce.own.map OwnClaim.seg).Nodup ∧ s.pu.known = true ∧ (headPos s).1 = 41 ∧ s.tli.clash = false := by decide
theorem wit_StandstillTaken_docks :
    let s := padStill 50020 true
    s.eu.padStop = true ∧ s.pu.padRead = some 50000 ∧ ((50020 : Int) - 50000).natAbs ≤ (cfg s).dockTol ∧ s.ds.pos ≠ .down ∧
      (s.os.active.bind (fun a => lastPad a.ord)).any PadSpec.dock = true ∧ s.cs.state = .running ∧ measuredSpeed s = 0 := by decide
theorem wit_StandstillTaken_noDock :
    ((padStill 50020 false).os.active.bind (fun a => lastPad a.ord)).any PadSpec.dock = false ∧
      (padStill 50020 false).os.pending = none := by decide
theorem wit_StandstillTaken_misaligned :
    (cfg (padStill 50021 true)).dockTol < ((50021 : Int) - 50000).natAbs ∧ (padStill 50021 true).pu.route.map Route.x = some 50021 := by
  decide
theorem wit_StandstillTaken_ending :
    let a := { active0 with phase := .ending }
    let s := withOs (fun o => { o with active := some a }) (still0 5000)
    movingState s.cs.state = true ∧ s.os.active = some a ∧ a.phase = .ending ∧ s.os.pending = none := by decide
theorem wit_StandstillTaken_stopping :
    let s := withCs (fun c => { c with state := .stopping, stopCond := some .immediate }) (still0 5000)
    s.cs.state = .stopping ∧ s.os.active = some active0 ∧ s.os.pending = none ∧ s.eu.demand = 0 := by decide
theorem wit_StandstillTaken_promotes :
    let s := withOs (fun o => { o with pending := some order0 })
      (withCs (fun c => { c with state := .stopping, stopCond := some .immediate }) (still0 5000))
    s.os.pending = some order0 ∧ s.cs.latch = none ∧
      (withCs (fun c => { c with latch := some ⟨3, .console⟩ }) s).cs.latch.isSome = true := by decide
theorem wit_JacksMove_promotes :
    let s := withOs (fun o => { o with pending := some order0 }) docking0
    s.cs.state = .docking ∧ s.os.active = some padActive ∧ s.ce.span = none ∧ s.os.pending = some order0 ∧
      s.pu.route.isSome = true ∧ s.cs.latch = none ∧
      (withCs (fun c => { c with latch := some ⟨3, .console⟩ }) s).cs.latch.isSome = true := by decide
theorem wit_JacksMove_marked :
    let s := withOs (fun o => { o with stopMark := true }) undocking0
    s.cs.state = .undocking ∧ s.os.stopMark = true ∧ s.os.active = some padActive ∧ s.os.pending = none ∧ s.ce.span = none := by
  decide
theorem wit_JacksMove_inFault :
    let s := withCs (fun c => { c with state := .fault, fault := some ⟨.estop, 41, 0, 65535, none, false⟩ })
      (withDs (fun d => { d with dockTimer := some 5, undockTimer := some 5 }) docking0)
    s.cs.state = .fault ∧ s.cs.fault = some ⟨.estop, 41, 0, 65535, none, false⟩ ∧ s.ds.dockTimer.isSome = true ∧
      s.ds.undockTimer.isSome = true ∧ s.ds.cmd = .lower := by decide
theorem wit_FrameOffered_noLike :
    let p := tx (.position position0) true false .plain
    let n := tx (.points points1) true false .plain
    p.periodic = true ∧ (∀ k ∈ run0.tli.txq, isPosition k = false) ∧ n.periodic = true ∧ isPeriodicPoints n = true ∧
      (∀ k ∈ (withTx (ten refresh0) run0).tli.txq, isPeriodicPoints k = false) ∧ run0.tli.txq.length < 10 ∧
      10 ≤ (withTx (ten refresh0) run0).tli.txq.length := by decide
theorem wit_FrameOffered_points :
    let n := tx (.points points1) true false .plain
    (∃ k ∈ (withTx [n] points0).tli.txq, isPeriodicPoints k = true ∧ k.sending = false) ∧
      (∀ k ∈ (withTx [{ n with sending := true }] points0).tli.txq, isPeriodicPoints k = true → k.sending = true) ∧
      (∃ k ∈ (withTx [{ n with sending := true }] points0).tli.txq, isPeriodicPoints k = true) ∧ n.periodic = true := by decide
theorem wit_StationResetTaken_first :
    let s := inb 63 .stationReset (withTx [] (withTli (fun t => { t with clash := true }) ready0))
    atFront 63 .stationReset s = true ∧ s.cs.console = some 63 ∧ s.tli.clash = true ∧
      (∀ e ∈ s.tli.txq, e.sending = false) := by decide
theorem wit_PointsResetTaken_first :
    let s := inb 63 .stationReset (withTli (fun t => { t with clash := true }) points0)
    atFront 63 .stationReset s = true ∧ s.pa.console = some 63 ∧ s.tli.clash = true ∧
      (∀ e ∈ s.tli.txq, e.sending = false) := by decide
theorem wit_SendingRuns_first :
    let s := withTx [tx release0 false false .plain, tx (.pointsFree 50) false false .first] run0
    (∃ e ∈ s.tli.txq, e.tag = .first) ∧ s.tli.clash = false ∧ (∀ e ∈ s.tli.txq, e.sending = false) := by decide
theorem wit_FrameDeparts_first :
    sendingEntry (withTx [tx (.pointsFree 50) false true .first] run0).tli = some (tx (.pointsFree 50) false true .first) := by
  decide
theorem wit_OwnAddressHeard_requests :
    senderOk 50 .pointsFree points0 = true ∧ senderOk 50 .query points0 = false ∧ points0.tli.inbound.length < 2 ∧
      2 ≤ (withTli (fun t => { t with inbound := [⟨63, .drop⟩, ⟨63, .query⟩] }) points0).tli.inbound.length ∧
      console points0 ≠ some 50 ∧ console (withPa (fun p => { p with console := some 50 }) points0) = some 50 ∧
      watcherOf points0 = none ∧
      watcherOf (withPa (fun p => { p with watcher := some ⟨50, 7, 0⟩ }) points0) = some ⟨50, 7, 0⟩ := by decide
theorem wit_OwnAddressHeard_held :
    (run0.cs.state ≠ .fault ∨ run0.ce.span = none) ∧ firmState .firm = true ∧
      (ownOn run0 41).any (fun e => firmState e.st) = true ∧ (ownOn run0 43).any (fun e => firmState e.st) = false := by decide
theorem wit_OwnAddressHeard_stale :
    let s := withCs (fun c => { c with console := some 14 }) run0
    atFront 14 (.clearStale 9) (inb 14 (.clearStale 9) s) = true ∧ (14 : Addr) = s.tli.addr := by decide
theorem wit_StationResetTaken_sending :
    ∃ e ∈ (withTx [tx (.pointsAsk 50 .reverse 1 31) false true (.ask 50 42)] (inb 63 .stationReset ready0)).tli.txq,
      e.sending = true ∧ e.tag ≠ .refresh := by decide
theorem wit_PointsResetTaken_sending :
    ∃ e ∈ (withTx [tx (.points points1) true true .plain] (inb 63 .stationReset points0)).tli.txq, e.sending = true := by decide
theorem wit_ThrowRuns_granted :
    let h : AskEntry := { ask1 with pos := .reverse }
    let s := pq [h] throwing0
    s.pa.queue = h :: [] ∧ h.pos = s.ts.target ∧ s.pa.comm.isSome = true ∧ s.pa.grant = none ∧ listeningIn s = false ∧
      soleClaimant s h.requester = true ∧ soleClaimant s 9 = false ∧ s.tli.clash = false ∧ s.tli.txq.length + 0 < 10 ∧
      (∀ k ∈ s.tli.kept, k.block ≠ .pa) := by decide
theorem wit_ThrowRuns_refused :
    let s := pq [{ ask1 with requester := 9, pos := .reverse }, ask1] recovering0
    s.ts.state = .recovering ∧ s.ts.target = .reverse ∧ s.ts.previous = .normal ∧
      s.pa.queue.filter (fun q => decide (q.pos ≠ s.ts.target)) = ask1 :: [] ∧ ask1.pos = s.ts.previous ∧
      s.pa.comm.isSome = true ∧ s.pa.grant = none ∧ listeningIn s = false ∧ soleClaimant s ask1.requester = true ∧
      soleClaimant s 9 = false ∧ s.tli.txq.length + 1 < 10 ∧ s.tli.clash = false := by decide
theorem wit_EvaluationMade_ramp :
    let s := withPu (fun p => { p with standstill := true }) (still0 5000)
    s.os.active = some active0 ∧ s.pu.standstill = true ∧ s.eu.demand = 0 ∧ s.cs.state = .running ∧
      decide (s.eu.demand + max 50 (s.eu.demand / 8) < measuredSpeed s) = false := by decide

/-- At standstill, held by a silent line, with a demand that the next evaluation brings to 0. -/
def coming0 (st : CarState) (a : ActiveOrder) (x : Int) : State :=
  withTli (fun t => { t with silent := true }) (withOs (fun o => { o with active := some a }) (withCs (fun c => { c with state := st })
    (withPu (fun p => { p with standstill := true }) (withEu (fun e => { e with demand := 1 }) (still0 x)))))

theorem wit_EvaluationMade_rest :
    let s := coming0 .stopping active0 5000
    decide (s.eu.demand + max 50 (s.eu.demand / 8) < measuredSpeed s) = false ∧ s.pu.standstill = true ∧ s.eu.demand ≠ 0 ∧
      s.eu.demand ≤ (cfg s).decel * 50 / 1000 ∧ targetNow (s.setEu { s.eu with gust := true }) = 0 ∧
      s.os.active = some active0 ∧ s.pu.route.isSome = true ∧ active0.phase = .underway ∧ s.os.pending = none ∧
      s.cs.state = .stopping ∧ (coming0 .halted active0 5000).cs.state = .halted ∧
      ({ active0 with phase := .ending } : ActiveOrder).phase = .ending := by decide
theorem wit_EvaluationMade_arrives :
    let a := { active0 with nextClaim := 5 }
    let s := coming0 .running a 253000
    s.cs.state = .running ∧ s.eu.padStop = false ∧ lastPad a.ord = none ∧ s.os.pending = none ∧
      (decide (a.ord.legs.length < a.nextClaim) && decide (((routeEnd a.ord.legs : Nat) : Int) - (cfg s).margin ≤ 253000)) = true ∧
      (lastPad padActive.ord).isSome = true ∧ (coming0 .running active0 5000).ce.span.isNone = true ∧
      firstLegHeld (coming0 .running active0 5000) active0 = false := by decide
theorem wit_EvaluationMade_blocked :
    let a := { active0 with ord := { order0 with legs := [leg 41 60000 none, leg 40 35000 none] } }
    let s := coming0 .running a 58000
    s.ce.span.isNone = true ∧ firstLegHeld s a = true ∧ remaining s 58000 = 0 ∧ s.os.pending = none ∧ s.eu.padStop = false := by
  decide
theorem wit_EvaluationMade_pad :
    let s := withEu (fun e => { e with padStop := true }) (withDs (fun d => { d with pos := .up })
      (withPu (fun p => { p with padRead := some 50000 }) (coming0 .running padActive 50000)))
    s.eu.padStop = true ∧ s.pu.padRead = some 50000 ∧ ((50000 : Int) - 50000).natAbs ≤ (cfg s).dockTol ∧
      (lastPad padActive.ord).any PadSpec.dock = true ∧ s.ds.pos ≠ .down ∧
      (cfg s).dockTol < ((50500 : Int) - 50000).natAbs ∧
      (lastPad { padOrder with pad := some ⟨1, 7, 50000, false⟩ }).any PadSpec.dock = false := by decide
theorem wit_LeadingReadTaken_tail :
    let a := { active0 with tailLeg := .rear }
    let s := withPu (fun p => { p with route := some { route0 with x := 60250 } }) run0
    (((nextTailBoundary a).1 + (cfg s).tol : Nat) : Int) < (60000 : Int) - (cfg s).length + 0 ∧ a.phase ≠ .waiting ∧
      s.pu.deferral = none ∧ (withPu (fun p => { p with deferral := some 39 }) s).pu.deferral.isSome = true ∧
      s.ce.firmEnd = some 60000 ∧ (withCe (fun c => { c with firmEnd := some 59000 }) s).ce.firmEnd = some 59000 ∧
      ((59000 : Nat) : Int) < 60000 := by decide

/-- R110 puts no end to what a reader last had accepted: an end that has gone beyond the tolerance and come back finds its
boundary still kept, and the read of it is a repeat. -/
theorem test_kept_read_comes_back :
    moveRead (-400) (moveRead 400 { first := 40, second := 41, past := 100 }) = { first := 40, second := 41, past := 100 } ∧
      repeated (some (readBack .a 5000 { first := 40, second := 41, past := 100 })) 40 41 5000 250 = true := by decide

/-- R169 and R191: a frame with this station's own address as sender disarms an armed watcher and restarts the silence
timer. -/
theorem test_own_address_disarms :
    let s := withTli (fun t => { t with silence := 900 }) halted0
    (after (.replyHeard 14 63) s).cs.watcher = none ∧ (after (.replyHeard 14 63) s).tli.silence = 0 := by decide

/-- R167, R99 and R185: a HALT of any station sets the latch, one that reveals an address clash too. -/
theorem test_own_address_halts :
    (after (.halt 14 3 .console) run0).cs.latch = some ⟨3, .console⟩ ∧
      (after (.halt 14 3 .console) run0).cs.state = .fault ∧
      (after (.pointsHalt 50 3 .estop) points0).pa.latch = some ⟨3, .estop⟩ := by decide

/-- R21: a CLAIM with this station's own address as sender is not handed to the Occupancy View. -/
theorem test_own_address_view :
    (after (.claim 14 1 500 fourItems) run0).ov = run0.ov ∧ (after (.claim 9 1 500 fourItems) run0).ov ≠ run0.ov := by decide

/-- A carriage that has reset under an address clash with claims to refresh. -/
def resetClash0 : State :=
  after (.stationReset 63) (inb 63 .stationReset (withTli (fun t => { t with clash := true })
    (withCs (fun c => { c with state := .fault }) ready0)))

/-- R198: the REPORT ACCEPTED is the first frame sent after the clash, before the CLAIM of the refresh, which follows it. -/
theorem test_report_first_after_clash :
    ((sendingEntry (after .lineIdle resetClash0).tli).map TxEntry.frame =
      some (.report 63 ⟨.stationReset, .accepted, 0⟩)) ∧
    ((sendingEntry (after .lineIdle (after (.frameDeparture true) (after .lineIdle resetClash0))).tli).map
      (fun e => frameClass e.frame) = some 2) := by decide

/-- R40 and R57: an announcement being sent at STATION-RESET completes, and its span is then released. -/
theorem test_station_reset_finishes :
    let s := inb 63 .stationReset (withPu (fun p => { p with standstill := true }) announcing0)
    (after (.frameDeparture true) (after (.stationReset 63) s)).tli.txq.any (fun e => decide (e.frame = .release [42])) = true := by
  decide

/-! ## The transmit queue's places -/

/-- A POSITION is being sent, nine RELEASEs wait, and a newer POSITION is kept. -/
def keeping0 : State :=
  withTli (fun t => { t with keptPosition := some position0 })
    (withTx (tx (.position { position0 with speed := 7 }) true true .plain :: (ten (tx release0 false false .plain)).take 9) run0)

/-- The same with a REPORT of the Carriage Supervisor and one of the Order Store kept for want of room, the second behind
another frame of its block. -/
def keeping1 : State :=
  let r (b : Block) (out : ReportOutcome) : TxEntry := { tx (.report 63 ⟨.order, out, 31⟩) false false .plain with block := b }
  withTli (fun t => { t with
    kept := [{ tx (.halt 14 .estop) false false .plain with block := .cs }, r .cs .accepted, r .os .cancelled],
    offerLine := [.cs, .cs, .os] }) keeping0

/-- A refresh's last frame is being sent. -/
def lastRefresh0 : State :=
  withCe (fun c => { c with refresh := none, refreshOut := true }) (withTx [{ refresh0 with sending := true }] run0)

/-- R190, R193: after an E-STOP on a full queue the Carriage Supervisor keeps the HALT and the REPORT FAULT_RAISED, and then
the Order Store the REPORT ORDER_END; each block is first in line for the frames it joined with, so that they take the places
in the order in which they were produced. -/
theorem test_reports_keep_order :
    ((fill { (after .eStop (withTx (ten (tx release0 false false .plain)) run0)).tli with txq := [] }).txq.map TxEntry.frame) =
      [.halt 14 .estop, .report 63 ⟨.fault, .faultRaised .estop, 31⟩, .report 63 ⟨.orderEnd, .failed .fault, 31⟩] := by decide

/-- R190: the POSITION kept while one was being sent follows it into the queue. -/
theorem test_kept_position_follows :
    let t := (after (.frameDeparture true) keeping0).tli
    t.txq.length = 10 ∧ t.txq.getLast?.map TxEntry.frame = some (.position position0) ∧ t.keptPosition = none := by decide

/-- R68: the refresh countdown restarts as the last frame of the refresh leaves. -/
theorem test_refresh_settles :
    (after (.frameDeparture true) lastRefresh0).ce.refresh = some 0 ∧
      (after (.frameDeparture true) lastRefresh0).ce.refreshOut = false := by decide

/-- R22: of a CLAIM of two entries heard with 95 entries held, the second finds the table full. -/
theorem test_claim_fills :
    let t := after (.claim 9 1 500 [⟨96, .up, .firm, true⟩, ⟨97, .up, .firm, true⟩]) (viewOf (claims 95) run0)
    t.ov.claims.length = 96 ∧ t.ov.viewFull = true := by decide

/-- R130: the authority end at 93,000, the first stop target is the end of leg 1 less M, at 58,000. -/
def twoLegs0 : State :=
  withCe (fun c => { c with own := run0.ce.own ++ [own (.leg 2) 42 .firm none], firmEnd := some 95000 }) run0

theorem test_stop_target :
    (after (.stop 63 .nextBoundary) (inb 63 (.stop .nextBoundary) twoLegs0)).eu.stopTarget = some 58000 ∧
      (after (.stop 63 .nextBoundary) (inb 63 (.stop .nextBoundary)
        (withPu (fun p => { p with route := some { route0 with x := 57000 } }) twoLegs0))).eu.stopTarget = some 93000 := by decide

theorem wit_FrameOffered_reports :
    let e := tx (.report 63 ⟨.order, .accepted, 31⟩) false false .plain
    isReport e = true ∧ e.periodic = false ∧ isReport (tx release0 false false .plain) = false ∧
      OfferLineInv keeping1.tli ∧ (∃ k ∈ keeping1.tli.kept, isReport k = true) ∧
      ¬ (∃ k ∈ keeping1.tli.txq, k.periodic = true ∧ k.sending = false) ∧ keeping1.tli.clash = false := by
  unfold OfferLineInv; decide
/-- R190: a REPORT that finds a periodic frame to displace does so, also while another block keeps one. -/
theorem test_report_displaces :
    let s := after (.bitError false) keeping1
    ((report .ov .clearStale .accepted 0 s).tli.txq.getLast?.map TxEntry.frame) = some (.report 63 ⟨.clearStale, .accepted, 0⟩) ∧
      (report .ov .clearStale .accepted 0 s).tli.kept = s.tli.kept ∧ s.tli.kept = keeping1.tli.kept := by decide
theorem wit_FrameOffered_line :
    let t := { keeping1.tli with txq := [] }
    t.offerLine = t.kept.map TxEntry.block ∧ 2 ≤ t.kept.length := by decide
theorem wit_FrameOffered_refilled :
    Refilled { keeping1.tli with txq := [] } (fill { keeping1.tli with txq := [] }) := (refilled_iff _ _).mpr rfl
theorem wit_SendingRuns_kept :
    let k := tx (.position { position0 with speed := 7 }) true true .plain
    sendingEntry keeping0.tli = some k ∧
      waitsAs keeping0.tli k [{ k with frame := .position position0, sending := false }] :=
  ⟨rfl, .inr ⟨rfl, .inl ⟨_, _, rfl, rfl, rfl⟩⟩⟩
theorem wit_SendingRuns_keptPoints :
    let k := tx (.points points1) true true .plain
    waitsAs { points0.tli with txq := [k], keptPoints := some { points1 with qlen := 2 } } k
      [{ k with frame := .points { points1 with qlen := 2 }, sending := false }] :=
  .inr ⟨rfl, .inr (.inl ⟨_, _, rfl, rfl, rfl, rfl⟩)⟩
theorem wit_SendingRuns_withdrawn :
    let k := { tx (.pointsAsk 50 .reverse 1 31) false true (.ask 50 42) with withdrawn := true }
    waitsAs run0.tli k [] := .inr ⟨rfl, .inr (.inr ⟨nofun, nofun, .inl ⟨rfl, rfl⟩⟩)⟩
theorem wit_SendingRuns_cut :
    let k := { tx (.claim 3 500 fourItems) false true .plain with cut := [1, 57] }
    let left := Frame.claim 3 500 [⟨1023, .down, .standing, true⟩, ⟨58, .up, .tentative, true⟩]
    waitsAs run0.tli k [{ k with sending := false, cut := [], frame := left }] ∧
      waitsAs run0.tli { k with cut := [1, 57, 58, 1023] } [] :=
  ⟨.inr ⟨rfl, .inr (.inr ⟨nofun, nofun, .inr (.inr ⟨3, 500, fourItems, rfl, rfl, by decide⟩)⟩)⟩,
    .inr ⟨rfl, .inr (.inr ⟨nofun, nofun, .inr (.inr ⟨3, 500, fourItems, rfl, rfl, by decide⟩)⟩)⟩⟩
theorem wit_SendingRuns_refilled :
    let t := { sending0.tli with txq := [tx release0 false false .plain, tx (.release [42]) false false .plain] }
    Refilled t t := .done _ (.inr (fun _ h => absurd h (List.not_mem_nil)))
theorem wit_FrameDeparts_refilled :
    let t := { keeping1.tli with txq := keeping1.tli.txq.filter (fun k => !k.sending), keptPosition := none }
    Refilled t (fill t) := (refilled_iff _ _).mpr rfl
theorem wit_FrameDeparts_kept :
    let e := tx (.position { position0 with speed := 7 }) true true .plain
    let room (s : State) : Tli := fill { s.tli with txq := s.tli.txq.filter (fun k => !k.sending) }
    sendingEntry keeping0.tli = some e ∧ isPosition e = true ∧ keeping0.tli.keptPosition = some position0 ∧
      keeping0.tli.clash = false ∧ (room keeping0).txq.length < 10 ∧ (∀ k ∈ (room keeping0).txq, isPosition k = false) ∧
      sendingEntry keeping1.tli = some e ∧ 10 ≤ (room keeping1).txq.length ∧
      (∀ k ∈ (room keeping1).txq, isPosition k = false) := by decide
theorem wit_FrameDeparts_keptPoints :
    let e := tx (.points points1) true true .plain
    let s := withTli (fun t => { t with txq := [e], keptPoints := some points1 }) points0
    sendingEntry s.tli = some e ∧ isPeriodicPoints e = true ∧ s.tli.keptPoints = some points1 ∧ s.tli.clash = false := by decide
theorem wit_FrameDeparts_refresh :
    sendingEntry lastRefresh0.tli = some { refresh0 with sending := true } ∧ lastRefresh0.ce.refreshOut = true ∧
      refresh0.tag = .refresh := by decide
theorem wit_StopTaken_target :
    twoLegs0.os.active = some active0 ∧ twoLegs0.pu.route = some route0 ∧ twoLegs0.ce.span = none ∧
      twoLegs0.ce.firmEnd = some 95000 ∧ twoLegs0.cs.stopCond = none ∧ twoLegs0.cs.state = .running := by decide
theorem wit_StopTaken_stricter :
    let s := withCs (fun c => { c with state := .stopping, stopCond := some .authorityEnd }) twoLegs0
    s.cs.stopCond = some .authorityEnd ∧ s.os.active = some active0 ∧ s.pu.route = some route0 ∧ s.ce.firmEnd = some 95000 := by
  decide
theorem wit_ClaimStored_items :
    fromOther 9 run0 = true ∧ claimWf 3 1023 fourItems = true ∧ (∀ i ∈ fourItems, ∀ e ∈ run0.ce.own, e.seg ≠ i.seg) ∧
      run0.tli.kind = .carriage := by decide
theorem wit_ClaimAnswered_none :
    ownOn run0 99 = none ∧ ownOn convoy0 41 = some { own (.leg 1) 41 .firm none with convoy := true } ∧
      compatible .up true .up true = true := by decide
theorem wit_CarriageTimers_notice :
    bare0.cs.comm = none ∧ bare0.pu.known = false ∧ (∀ e ∈ run0.ce.own, e.convoy = false) ∧
      (∃ e ∈ convoy0.ce.own, e.convoy = true) ∧ ready0.pu.known = true ∧ ready0.pu.route = none ∧
      ready0.pu.noticeHead = some .a ∧ (withPu (fun p => { p with noticeHead := some .b }) ready0).pu.noticeHead = some .b ∧
      run0.pu.route = some route0 ∧ run0.pu.noticeHead = some active0.ord.lead ∧ run0.pu.known = true ∧
      legAt active0.ord.legs active0.headLeg = some (leg 41 60000 none) ∧ active0.tailLeg = .rear ∧
      active0.rear = some ⟨40, .up, 2000⟩ := by decide
theorem wit_CarriageTimers_tailLeg :
    let a := { active0 with headLeg := 2, tailLeg := .leg 1, rear := none }
    legAt a.ord.legs 1 = some (leg 41 60000 none) ∧ legAt a.ord.legs 2 = some (leg 42 35000 (some ⟨50, .reverse⟩)) := by decide
theorem wit_BatchApplied_window :
    (((((3000 : Int) * 19661 + 0) / 65536) :: run0.pu.window).take 10).sum ≠ 0 ∧
      (((((0 : Int) * 19661 + 0) / 65536) :: ready0.pu.window).take 10).sum = 0 := by decide

/-! ## The frames that wait, the rest, and the pairs expected -/

/-- `ahead0` at a head that stands, but for the standstill event, in STOPPING, leg 2 with its points ahead of it. -/
def stopAhead : State :=
  withCs (fun c => { c with state := .stopping, stopCond := some .immediate })
    (withPu (fun p => { p with window := [0, 0, 0, 0, 0, 0, 0, 0, 0, 0] }) (withEu (fun e => { e with demand := 0 }) ahead0))

theorem wit_PowerOn_clash : (pins .carriage 0 false false).strapAddr = 0 ∧ (pins .carriage 0 false false).strapKind = .carriage := by
  decide
theorem wit_StopTaken_reports :
    let s := withOs (fun o => { o with pending := some padOrder })
    (s waiting0).os.active = some (waitingOrder order0) ∧ (s waiting0).os.pending = some padOrder ∧
      (s waiting0).tli.clash = false ∧ (s waiting0).cs.console = some 63 ∧ (s undocking0).os.active = some padActive ∧
      atFront 63 (.stop .immediate) (inb 63 (.stop .immediate) (s waiting0)) = true ∧
      atFront 63 (.stop .immediate) (inb 63 (.stop .immediate) (s undocking0)) = true := by decide
theorem wit_DropTaken_points :
    atFront 63 .drop (inb 63 .drop points0) = true ∧ (inb 63 .drop points0).tli.kind = .points := by decide
theorem wit_ClearFaultTaken_standing :
    let s := inb 63 .clearFault (withDs (fun d => { d with pos := .down }) (fault0 false))
    s.ds.pos ≠ .up ∧ s.os.active = none ∧ (∃ e ∈ s.ce.own, e.seg = (headPos s).1 ∧ e.st ≠ .standing) ∧
      (44 : Seg) ∈ s.ce.clashMem.map Prod.snd ∧ (44 : Seg) ∉ occupied s := by decide
theorem wit_StationResetTaken_standing :
    let s := inb 63 .stationReset (withDs (fun d => { d with pos := .down }) ready0)
    s.ds.pos ≠ .up ∧ s.pu.known = true ∧ (∃ e ∈ s.ce.own, e.seg = (headPos s).1 ∧ e.st ≠ .standing ∧ e.seg ∈ occupied s ∧
      e.seg ∉ spanSegs s) := by decide
theorem wit_StationResetTaken_span :
    let s := withPu (fun p => { p with standstill := true }) span1
    s.pu.standstill = true ∧ s.ce.span = some span0 ∧ spanSegs s = [42] ∧ s.pu.known = true ∧ s.ds.pos = .up := by decide
theorem wit_ServingTested_sole :
    soleClaimant points0 14 = true ∧ (∃ e ∈ points0.sv.entries, e.holder = 14 ∧ e.stale = false) ∧
      soleClaimant (withSv (fun v => { v with entries := v.entries ++ [⟨9, .firm, 500, 4000, true⟩] }) points0) 14 = true ∧
      soleClaimant (withSv (fun v => { v with entries := v.entries ++ [⟨9, .firm, 500, 0, false⟩] }) points0) 14 = false ∧
      soleClaimant (withSv (fun v => { v with overflow := some 0 }) points0) 14 = false ∧
      listeningIn (withTli (fun t => { t with silent := true }) points0) = true := by decide
theorem wit_SpanAborts_position :
    (spanSegs span1)[0]? = some 42 ∧ (42 : Seg) ∉ (spanSegs span1).take 0 ∧ (41 : Seg) ∉ spanSegs span1 := by decide
theorem wit_StandstillTaken_runsOn :
    let s := withCs (fun c => { c with state := .halted, latch := some ⟨3, .console⟩ }) (still0 5000)
    s.cs.state = .halted ∧ s.os.active = some active0 ∧ active0.phase = .underway ∧ s.eu.demand = 0 ∧ s.eu.target = 0 ∧
      measuredSpeed s = 0 ∧ s.pu.standstill = false ∧ (withEu (fun e => { e with target := 4 }) s).eu.target ≠ 0 := by decide
theorem wit_StandstillTaken_short :
    let s := still0 5000
    s.cs.state = .running ∧ s.eu.padStop = false ∧ s.pu.route = some { route0 with x := 5000 } ∧
      active0.nextClaim ≤ active0.ord.legs.length ∧ (5000 : Int) < ((s.ce.firmEnd.getD 0 - (cfg s).margin : Nat) : Int) ∧
      (5000 : Int) < ((routeEnd active0.ord.legs : Nat) : Int) - (cfg s).margin ∧ s.os.active = some active0 := by decide
/-- At the authority end, not blocked: a span is in flight, or the segment of the next leg is not held. -/
theorem wit_StandstillTaken_atEnd :
    (atX 58000 span1).ce.span.isSome = true ∧ (atX 58000 run0).ce.span = none ∧
      (∀ l, legAt active0.ord.legs active0.nextClaim = some l → ∀ e ∈ (still0 58000).ce.own, e.seg ≠ l.seg) ∧
      ((((still0 58000).ce.firmEnd.getD 0) - (cfg run0).margin : Nat) : Int) ≤ 58000 := by
  refine ⟨by decide, by decide, ?_, by decide⟩
  rintro l hl; cases hl; decide
theorem wit_StandstillTaken_ahead :
    let s := stopAhead
    s.cs.state = .stopping ∧ s.eu.demand = 0 ∧ measuredSpeed s = 0 ∧ s.pu.standstill = false ∧ s.ce.span = none ∧
      s.ce.own = [own .rear 40 .firm none] ++ own (.leg 1) 41 .firm none ::
        [own (.leg 2) 42 .firm (some ⟨50, .reverse, .granted⟩)] ∧
      (s.ce.own.map OwnClaim.seg).Nodup ∧ s.pu.known = true ∧ (headPos s).1 = 41 ∧ s.tli.clash = false ∧
      s.pu.route = some route0 ∧ (withOs (fun o => { o with pending := some padOrder }) s).os.pending = some padOrder := by decide
theorem wit_LeadingReadTaken_expected :
    legAt active0.ord.legs 1 = some (leg 41 60000 none) ∧ legAt active0.ord.legs 2 = some (leg 42 35000 (some ⟨50, .reverse⟩)) ∧
      active0.headLeg = 1 ∧ active0.tailLeg = .rear ∧ active0.rear = some ⟨40, .up, 2000⟩ ∧ route0.lastLead = none ∧
      ((60250 : Int) - 60000).natAbs ≤ (cfg run0).tol := by decide
theorem wit_TrailingOrPadRead_expected :
    active0.tailLeg = .rear ∧ active0.rear = some ⟨40, .up, 2000⟩ ∧ legAt active0.ord.legs 1 = some (leg 41 60000 none) ∧
      run0.pu.deferral = none ∧ route0.lastTrail = none ∧ run0.tli.clash = false ∧
      (12250 - ((cfg run0).length : Int) + 0 - 0).natAbs ≤ (cfg run0).tol ∧
      ({ active0 with headLeg := 2, tailLeg := .leg 1, rear := none } : ActiveOrder).tailLeg = .leg 1 ∧
      legAt active0.ord.legs 2 = some (leg 42 35000 (some ⟨50, .reverse⟩)) := by decide
theorem wit_TrailingOrPadRead_deferred :
    let s := withPu (fun p => { p with deferral := some 42 }) run0
    s.pu.deferral = some 42 ∧ (tailPos s).1 = 40 ∧ (tailPos run0).1 = 40 := by decide
theorem wit_JacksMove_stands :
    (∃ e ∈ docking0.ce.own, e.seg = (headPos docking0).1 ∧ e.st ≠ .standing) ∧ docking0.tli.clash = false ∧
      console docking0 = some 63 := by decide
theorem wit_JacksMove_markedAhead :
    let s := withOs (fun o => { o with stopMark := true })
      (withCs (fun c => { c with state := .undocking }) (withDs (fun d => { d with pos := .between, cmd := .raise }) ahead0))
    s.os.stopMark = true ∧ s.os.active.isSome = true ∧ s.os.pending = none ∧ s.ce.span = none ∧ (headPos s).1 = 41 ∧
      s.ce.own = [own .rear 40 .firm none] ++ own (.leg 1) 41 .firm none ::
        [own (.leg 2) 42 .firm (some ⟨50, .reverse, .granted⟩)] ∧ (s.ce.own.map OwnClaim.seg).Nodup := by decide

/-- R15: STOP ACCEPTED, then ORDER_END CANCELLED for the active order, then for the pending one. -/
theorem test_stop_reports :
    waiting .os (after (.stop 63 .immediate) (inb 63 (.stop .immediate)
        (withOs (fun o => { o with pending := some padOrder }) waiting0))).tli =
      [.report 63 ⟨.stop, .accepted, 31⟩, .report 63 ⟨.orderEnd, .cancelled, 31⟩, .report 63 ⟨.orderEnd, .cancelled, 32⟩] := by
  decide
/-- R77, R67: the leg ahead is released at an order's end STOPPED, and its points are freed. -/
theorem test_standstill_releases :
    waiting .ce (after .standstillEvent stopAhead).tli = [.release [42], .pointsFree 50] ∧
      (after .standstillEvent stopAhead).ce.own = [own .none 40 .firm none, own .none 41 .firm none] := by decide
/-- R71: parked, the entry under the head is STANDING, and one CLAIM carries it. -/
theorem test_docking_stands :
    let t := after (.jackPositionChange false true) docking0
    t.ce.own = [own .none 40 .firm none, own .none 41 .standing none] ∧ t.cs.state = .parked ∧
      .claim 3 500 [⟨41, .up, .standing, false⟩] ∈ t.tli.txq.map TxEntry.frame := by decide
/-- R69, R67: the rear segment is released as the tail leaves it. -/
theorem test_trailing_releases :
    waiting .ce (after (.trailingBoundaryRead true 40 41) (atX 12250 run0)).tli = [.release [40]] := by decide
/-- R13: at rest in HALTED the order runs on. -/
theorem test_halted_rests :
    let s := withCs (fun c => { c with state := .halted, latch := some ⟨3, .console⟩ }) (still0 5000)
    let t := after .standstillEvent s
    t.eu.brake = .service ∧ t.eu.rest = true ∧ t.cs = s.cs ∧ t.os = s.os ∧ t.ce.own = s.ce.own ∧ t.tli = s.tli := by decide

end Sys2Proof.Tests
end

section
/-! The delivery of a request that stands at the front of the inbound queue (R187): the premise `atFront` taken apart,
what `taken` leaves unchanged, and the rule for `deliver` that the request statements share. -/

namespace Sys2Proof.Machine

open Sys2Proof

theorem atFront_iff (src : Addr) (req : Request) (s : State) :
    atFront src req s = true ↔
      s.tli.inbound.head? = some { src := src, req := req } ∧ canDeliver s.tli = true := by
  simp [atFront]

@[simp] theorem taken_os (s : State) : (taken s).os = s.os := rfl
@[simp] theorem taken_cs (s : State) : (taken s).cs = s.cs := rfl
@[simp] theorem taken_tli_kind (s : State) : (taken s).tli.kind = s.tli.kind := rfl

/-- A request at the front is acted on in the state it has left the queue of: the queue is not empty, so the delivery
stands for no arrival. -/
theorem deliver_of_atFront {src : Addr} {req : Request} {s : State} (act : State → State)
    (hfront : atFront src req s = true) (hfits : fits s.tli.kind req = true) :
    deliver src req act s = act (taken s) := by
  obtain ⟨hhead, hcan⟩ := (atFront_iff src req s).mp hfront
  have hne : s.tli.inbound.isEmpty = false := by
    rw [List.isEmpty_eq_false_iff]
    intro hnil
    simp [hnil] at hhead
  simp [deliver, hne, hfits, hhead, hcan, taken]

end Sys2Proof.Machine
end

section
/-! DROP (R17, R188). -/

namespace Sys2Proof.Machine

open Sys2Proof

theorem takeDrop_of_pending {s : State} {p : OrderRec} (hp : s.os.pending = some p) :
    takeDrop s = report .os .drop .cancelled p.id (s.setOs { s.os with pending := none }) := by
  simp [takeDrop, hp]

theorem takeDrop_of_no_pending {s : State} (hp : s.os.pending = none) :
    takeDrop s = report .os .drop (.refused .state) 0 s := by
  simp [takeDrop, hp]

theorem exec_drop (src : Addr) (s : State) : exec (.drop src) s = execDrop src s := rfl

theorem exec_drop_carriage {src : Addr} {s : State} (hfront : atFront src .drop s = true)
    (hkind : s.tli.kind = .carriage) : exec (.drop src) s = .next (takeDrop (taken s)) := by
  rw [exec_drop, execDrop, deliver_of_atFront _ hfront rfl]
  simp [hkind]

theorem exec_drop_points {src : Addr} {s : State} (hfront : atFront src .drop s = true)
    (hkind : s.tli.kind = .points) : exec (.drop src) s = .next (wrongKind .drop (taken s)) := by
  rw [exec_drop, execDrop, deliver_of_atFront _ hfront rfl]
  simp [hkind]

/-- Settles O23: the delivery reaches the Order Store or the interface by the personality, and a REPORT touches neither
the Order Store nor the carriage state. -/
theorem dropTaken : Obligations.DropTaken := by
  intro src s hfront
  refine ⟨fun hkind => ?points, fun p hkind hp => ?pending, fun hkind hp => ?empty⟩
  case points => exact exec_drop_points hfront hkind
  case pending =>
    refine ⟨_, exec_drop_carriage hfront hkind, takeDrop_of_pending hp, ?_⟩
    simp [takeDrop_of_pending (s := taken s) hp]
  case empty =>
    refine ⟨_, exec_drop_carriage hfront hkind, takeDrop_of_no_pending hp, ?_⟩
    simp [takeDrop_of_no_pending (s := taken s) hp]

end Sys2Proof.Machine
end

section
/-! A valid frame from another station (R185, R191, R169): the premise `fromOther` taken apart, what `quiet` leaves as it
was, and the rule for `hear` that the notice statements share. -/

namespace Sys2Proof.Machine

open Sys2Proof

theorem fromOther_iff (src : Addr) (s : State) :
    fromOther src s = true ↔ addrOk src = true ∧ src ≠ s.tli.addr := by
  simp [fromOther]

theorem watch_other (src : Addr) (s : State) : watch src .other s = setWatcher none s := rfl

/-- A valid frame from another station, no RESUME among them, acts on the state that has heard it. -/
theorem hear_of_fromOther {src : Addr} {s : State} {valid : Bool} (act : State → State)
    (hfrom : fromOther src s = true) (hvalid : valid = true) :
    hear (addrOk src && valid) src .other act s = act (quiet s) := by
  obtain ⟨haddr, hne⟩ := (fromOther_iff src s).mp hfrom
  rw [haddr, hvalid, Bool.true_and, hear_of_ne _ _ hne, watch_other, quiet]

theorem onKind_of_eq {k : Kind} {s : State} (act : State → State) (hkind : s.tli.kind = k) :
    onKind k act s = act s := if_pos hkind

theorem toView_of_ne {src : Addr} {s : State} (act : State → State) (hne : src ≠ s.tli.addr) :
    toView src act s = act s := if_neg hne

/-! ## What hearing leaves as it was -/

@[simp] theorem startListen_ov_claims (s : State) : (startListen s).ov.claims = s.ov.claims := by
  unfold startListen; split <;> rfl

@[simp] theorem startListen_ov_viewFull (s : State) : (startListen s).ov.viewFull = s.ov.viewFull := by
  unfold startListen; split <;> rfl

@[simp] theorem startListen_ov_pointsTab (s : State) : (startListen s).ov.pointsTab = s.ov.pointsTab := by
  unfold startListen; split <;> rfl

@[simp] theorem startListen_ov_posTab (s : State) : (startListen s).ov.posTab = s.ov.posTab := by
  unfold startListen; split <;> rfl

@[simp] theorem startListen_sv_entries (s : State) : (startListen s).sv.entries = s.sv.entries := by
  unfold startListen; split <;> rfl

@[simp] theorem heard_ov_claims (s : State) : (heard s).ov.claims = s.ov.claims := by
  unfold heard; dsimp only; split <;> simp

@[simp] theorem heard_ov_viewFull (s : State) : (heard s).ov.viewFull = s.ov.viewFull := by
  unfold heard; dsimp only; split <;> simp

@[simp] theorem heard_ov_pointsTab (s : State) : (heard s).ov.pointsTab = s.ov.pointsTab := by
  unfold heard; dsimp only; split <;> simp

@[simp] theorem heard_ov_posTab (s : State) : (heard s).ov.posTab = s.ov.posTab := by
  unfold heard; dsimp only; split <;> simp

@[simp] theorem heard_sv_entries (s : State) : (heard s).sv.entries = s.sv.entries := by
  unfold heard; dsimp only; split <;> simp

@[simp] theorem heard_tli_idle (s : State) : (heard s).tli.idle = false := by
  unfold heard; dsimp only; split <;> simp

@[simp] theorem quiet_os (s : State) : (quiet s).os = s.os := by simp [quiet]
@[simp] theorem quiet_ce (s : State) : (quiet s).ce = s.ce := by simp [quiet]
@[simp] theorem quiet_pu (s : State) : (quiet s).pu = s.pu := by simp [quiet]
@[simp] theorem quiet_eu (s : State) : (quiet s).eu = s.eu := by simp [quiet]
@[simp] theorem quiet_cr (s : State) : (quiet s).cr = s.cr := by simp [quiet]
@[simp] theorem quiet_ds (s : State) : (quiet s).ds = s.ds := by simp [quiet]
@[simp] theorem quiet_cs_state (s : State) : (quiet s).cs.state = s.cs.state := by simp [quiet]
@[simp] theorem quiet_cs_console (s : State) : (quiet s).cs.console = s.cs.console := by simp [quiet]
@[simp] theorem quiet_pa_grant (s : State) : (quiet s).pa.grant = s.pa.grant := by simp [quiet]
@[simp] theorem quiet_pa_queue (s : State) : (quiet s).pa.queue = s.pa.queue := by simp [quiet]
@[simp] theorem quiet_pa_console (s : State) : (quiet s).pa.console = s.pa.console := by simp [quiet]
@[simp] theorem quiet_ov_claims (s : State) : (quiet s).ov.claims = s.ov.claims := by simp [quiet]
@[simp] theorem quiet_ov_viewFull (s : State) : (quiet s).ov.viewFull = s.ov.viewFull := by simp [quiet]
@[simp] theorem quiet_ov_pointsTab (s : State) : (quiet s).ov.pointsTab = s.ov.pointsTab := by simp [quiet]
@[simp] theorem quiet_ov_posTab (s : State) : (quiet s).ov.posTab = s.ov.posTab := by simp [quiet]
/-- Of the Occupancy View only the listen-in can change. -/
theorem quiet_ov (s : State) : (quiet s).ov = { s.ov with listen := (quiet s).ov.listen } := by
  dsimp only
  rw [← quiet_ov_claims s, ← quiet_ov_viewFull s, ← quiet_ov_pointsTab s, ← quiet_ov_posTab s]

@[simp] theorem quiet_sv_entries (s : State) : (quiet s).sv.entries = s.sv.entries := by simp [quiet]
@[simp] theorem quiet_tli_addr (s : State) : (quiet s).tli.addr = s.tli.addr := by simp [quiet]
@[simp] theorem quiet_tli_kind (s : State) : (quiet s).tli.kind = s.tli.kind := by simp [quiet]
@[simp] theorem quiet_tli_counters (s : State) : (quiet s).tli.counters = s.tli.counters := by simp [quiet]
@[simp] theorem quiet_tli_idle (s : State) : (quiet s).tli.idle = false := by simp [quiet]

theorem console_carriage {s : State} (hkind : s.tli.kind = .carriage) : console s = s.cs.console := by
  simp [console, hkind]

theorem console_points {s : State} (hkind : s.tli.kind = .points) : console s = s.pa.console := by
  simp [console, hkind]

/-- A malformed frame counted after a frame heard changes the counter alone: the idle line has ended already. -/
theorem countMalformed_quiet (s : State) : countMalformed (quiet s) = (quiet s).setTli { (quiet s).tli with
    counters := { s.tli.counters with malformed := min (s.tli.counters.malformed + 1) 65535 } } := by
  rw [countMalformed, ← quiet_tli_idle s, quiet_tli_counters]
  rfl

end Sys2Proof.Machine
end

section
/-! RELEASE (R24, R23). -/

namespace Sys2Proof.Machine

open Sys2Proof

theorem keepClaims_ov_claims (keep : ClaimEntry → Bool) (s : State) :
    (keepClaims keep s).ov.claims = s.ov.claims.filter keep := rfl

/-- A removal that leaves few enough entries clears VIEW_FULL (R23). -/
theorem keepClaims_ov_viewFull (keep : ClaimEntry → Bool) (s : State) :
    (keepClaims keep s).ov.viewFull =
      if (s.ov.claims.filter keep).length < s.ov.claims.length ∧
        (s.ov.claims.filter keep).length ≤ Config.viewClear then false
      else s.ov.viewFull := by
  simp only [keepClaims, State.setOv_ov, ← Bool.decide_and]
  split
  case isTrue hcleared => rw [decide_eq_true hcleared, Bool.not_true, Bool.and_false]
  case isFalse hkept => rw [decide_eq_false hkept, Bool.not_false, Bool.and_true]

theorem exec_release (src : Addr) (segs : List Seg) (s : State) : exec (.release src segs) s = execRelease src segs s := rfl

theorem exec_release_carriage {src : Addr} {segs : List Seg} {s : State} (hkind : s.tli.kind = .carriage)
    (hfrom : fromOther src s = true) (hwf : releaseWf segs = true) :
    exec (.release src segs) s = .next (applyRelease src segs (quiet s)) := by
  have hne : src ≠ (quiet s).tli.addr := by simpa using ((fromOther_iff src s).mp hfrom).2
  rw [exec_release, execRelease, onKind_of_eq _ hkind, hear_of_fromOther _ hfrom hwf, toView_of_ne _ hne]

/-- Settles O39: a RELEASE heard filters the claim table, and of the rest hearing a frame touches only the line, the
listen-in and the watcher. -/
theorem releaseApplied : Obligations.ReleaseApplied := by
  intro src segs s hkind hfrom hwf
  refine ⟨_, exec_release_carriage hkind hfrom hwf, ?claims, ?viewFull, ?rest⟩
  case claims => rw [applyRelease, keepClaims_ov_claims, quiet_ov_claims]
  case viewFull =>
    rw [applyRelease, keepClaims_ov_viewFull, quiet_ov_claims, quiet_ov_viewFull]
    rfl
  case rest => simp [applyRelease, keepClaims]

end Sys2Proof.Machine
end

section
/-! The stale mark of a position entry (R35). -/

namespace Sys2Proof.Machine

open Sys2Proof

/-- A change made to one kind of element, of which a list holds exactly one, leaves the elements around it. -/
theorem map_ite_of_split {α : Type} {a : α} {before after : List α} (p : α → Prop) [DecidablePred p] (f : α → α)
    (ha : p a) (hothers : ∀ k ∈ before ++ after, ¬ p k) :
    (before ++ a :: after).map (fun k => if p k then f k else k) = before ++ f a :: after := by
  have unchanged (l : List α) (hl : ∀ k ∈ l, ¬ p k) : l.map (fun k => if p k then f k else k) = l :=
    (List.map_congr_left fun k hk => if_neg (hl k hk)).trans (List.map_id' l)
  rw [List.map_append, List.map_cons, if_pos ha,
    unchanged before (fun k hk => hothers k (List.mem_append_left _ hk)),
    unchanged after (fun k hk => hothers k (List.mem_append_right _ hk))]

theorem exec_positionEntryStale (c : Addr) (s : State) :
    exec (.positionEntryStale c) s = execPositionEntryStale c s := rfl

/-- An entry at its stale limit takes the mark and keeps its age. -/
theorem exec_positionEntryStale_of_limit {e : PosEntry} {before after : List PosEntry} {s : State}
    (hkind : s.tli.kind = .carriage) (htab : s.ov.posTab = before ++ e :: after) (hfresh : e.stale = false)
    (hage : e.age = staleLimit e) (hothers : ∀ k ∈ before ++ after, k.carriage ≠ e.carriage) :
    exec (.positionEntryStale e.carriage) s =
      .next (s.setOv { s.ov with posTab := before ++ { e with stale := true } :: after }) := by
  rw [exec_positionEntryStale, execPositionEntryStale, onKind_of_eq _ hkind, htab,
    map_ite_of_split (fun k => k.carriage = e.carriage ∧ k.stale = false) _ ⟨rfl, hfresh⟩
      (fun k hk hnamed => hothers k hk hnamed.1),
    ← hage, max_self]

theorem exec_position (src : Addr) (n : PositionNotice) (s : State) : exec (.position src n) s = execPosition src n s := rfl

theorem exec_position_carriage {src : Addr} {n : PositionNotice} {s : State} (hkind : s.tli.kind = .carriage)
    (hfrom : fromOther src s = true) (hwf : n.wf = true) :
    exec (.position src n) s = .next (applyPosition src n (quiet s)) := by
  have hne : src ≠ (quiet s).tli.addr := by simpa using ((fromOther_iff src s).mp hfrom).2
  rw [exec_position, execPosition, hear_of_fromOther _ hfrom hwf, onKind_of_eq _ (by simpa using hkind),
    toView_of_ne _ hne]

/-- A POSITION with a position is stored over its sender's entry (R34). -/
theorem posEntryOf_mem_applyPosition {src : Addr} {n : PositionNotice} {s : State}
    (hcarries : n.state.carriesPosition = true) (hknown : ∃ k ∈ s.ov.posTab, k.carriage = src) :
    posEntryOf src n ∈ (applyPosition src n s).ov.posTab := by
  obtain ⟨k, hmem, hcar⟩ := hknown
  have hany : s.ov.posTab.any (fun k => decide (k.carriage = src)) = true :=
    List.any_eq_true.mpr ⟨k, hmem, decide_eq_true hcar⟩
  simp only [applyPosition, hcarries, hany, Bool.not_true, Bool.false_eq_true, if_false, if_true, State.setOv_ov]
  exact List.mem_map.mpr ⟨k, hmem, if_pos hcar⟩

/-- Settles O42: the marked entry stays in the table under its carriage, so that the next POSITION of it finds the entry and
is stored over it, unmarked. -/
theorem positionGoesStale : Obligations.PositionGoesStale := by
  intro e before after s hkind htab hfresh hage hothers
  refine ⟨exec_positionEntryStale_of_limit hkind htab hfresh hage hothers, fun n hwf hcarries hfrom => ?_⟩
  refine ⟨_, posEntryOf e.carriage n, exec_position_carriage hkind hfrom hwf, ?_, rfl, rfl, rfl⟩
  exact posEntryOf_mem_applyPosition hcarries ⟨{ e with stale := true }, by simp, rfl⟩

end Sys2Proof.Machine
end

section
/-! A claim on the points segment withdrawn (R82, R88, R96): what serving can do, that the holder's entry, grant and ask are
gone, and that the console is kept. -/

namespace Sys2Proof.Machine

open Sys2Proof

/-- Serving grants the head, a sole claimant, or leaves the Points Arbiter as it was (R89, R90). -/
theorem serve_cases (s : State) :
    (serve s).pa = s.pa ∨
      ∃ h rest, s.pa.queue = h :: rest ∧ soleClaimant s h.requester = true ∧ serve s = grantHead h rest s := by
  unfold serve
  split
  case h_1 h rest at' hqueue hlocked =>
    split
    case isTrue hopen =>
      simp only [Bool.and_eq_true] at hopen
      split
      · exact .inr ⟨h, rest, hqueue, hopen.2, rfl⟩
      · split <;> exact .inl rfl
    case isFalse => exact .inl rfl
  case h_2 => exact .inl rfl

theorem liveIn_of_soleClaimant {s : State} {x : Addr} (h : soleClaimant s x = true) : liveIn s x = true := by
  simp only [soleClaimant, Bool.and_eq_true] at h
  exact h.1.1

/-- Serving grants nothing to a station without a live entry. -/
theorem serve_grant_ne {s : State} {x : Addr} (hlive : liveIn s x = false)
    (hgrant : ∀ g, s.pa.grant = some g → g.holder ≠ x) : ∀ g, (serve s).pa.grant = some g → g.holder ≠ x := by
  rcases serve_cases s with hpa | ⟨h, rest, -, hsole, hserve⟩
  · rwa [hpa]
  · rw [hserve]
    rintro g hg rfl
    obtain rfl : { holder := h.requester, pos := h.pos, live := true } = g := by simpa [grantHead] using hg
    simp [liveIn_of_soleClaimant hsole] at hlive

/-- Serving puts no ask into the queue. -/
theorem mem_of_mem_serve_queue {s : State} {q : AskEntry} (hq : q ∈ (serve s).pa.queue) : q ∈ s.pa.queue := by
  rcases serve_cases s with hpa | ⟨h, rest, hqueue, -, hserve⟩
  · rwa [hpa] at hq
  · rw [hserve] at hq
    rw [hqueue]
    exact List.mem_cons_of_mem _ hq

@[simp] theorem serve_pa_console (s : State) : (serve s).pa.console = s.pa.console := by
  rcases serve_cases s with hpa | ⟨h, rest, -, -, hserve⟩
  · rw [hpa]
  · rw [hserve]; rfl

@[simp] theorem serveAfter_pa (before after : State) : (serveAfter before after).pa = (serve after).pa := by
  simp [serveAfter]

theorem freeGrant_pa (s : State) :
    (freeGrant s).pa = (serve (queuePoints (s.setPa { s.pa with grant := none }))).pa := by
  simp [freeGrant]

theorem afterView_pa_of_eq {before after : State} (h : viewShape before = viewShape after) :
    (afterView before after).pa = after.pa := by
  simp [afterView, h]

theorem afterView_pa_of_ne {before after : State} (h : viewShape before ≠ viewShape after) :
    (afterView before after).pa = (serve (followView after)).pa := by
  simp [afterView, h]

theorem holdsGrant_eq_false_iff (x : Addr) (s : State) :
    holdsGrant x s = false ↔ ∀ g, s.pa.grant = some g → g.holder ≠ x := by
  cases hg : s.pa.grant <;> simp [holdsGrant, hg]

theorem liveIn_congr {s t : State} (h : s.sv.entries = t.sv.entries) (x : Addr) : liveIn s x = liveIn t x := by
  rw [liveIn, h, ← liveIn]

theorem liveIn_dropSegClaim (x : Addr) (s : State) : liveIn (dropSegClaim x s) x = false := by
  simp only [liveIn, dropSegClaim, State.setSv_sv, List.any_eq_false, List.mem_filter]
  rintro e ⟨-, hne⟩
  simpa using fun heq => absurd heq (of_decide_eq_true hne)

/-- A live holder's entry that leaves is a change the Segment View presents (R82). -/
theorem viewShape_ne_dropSegClaim {x : Addr} {s : State} (hlive : liveIn s x = true) :
    viewShape s ≠ viewShape (dropSegClaim x s) := by
  obtain ⟨e, hmem, hnamed⟩ := List.any_eq_true.mp hlive
  obtain ⟨rfl, hfresh⟩ : e.holder = x ∧ e.stale = false := by simpa using hnamed
  intro hsame
  have hin : (e.holder, e.stale) ∈ viewShape s := List.mem_map.mpr ⟨e, hmem, rfl⟩
  rw [hsame] at hin
  obtain ⟨k, hk, hpair⟩ := List.mem_map.mp hin
  have hne : k.holder ≠ e.holder := of_decide_eq_true (List.mem_filter.mp hk).2
  exact hne (congrArg Prod.fst hpair)

theorem withdrawClaim_of_grant {x : Addr} {s : State} (h : holdsGrant x s = true) :
    withdrawClaim x s = freeGrant (dropAsk x (dropSegClaim x s)) := by
  simp [withdrawClaim, h]

theorem withdrawClaim_of_no_grant {x : Addr} {s : State} (h : holdsGrant x s = false) :
    withdrawClaim x s = afterView s (dropSegClaim x s) := by
  simp [withdrawClaim, h]

theorem withdrawClaim_sv (x : Addr) (s : State) : (withdrawClaim x s).sv = (dropSegClaim x s).sv := by
  cases h : holdsGrant x s
  · simp [withdrawClaim_of_no_grant h]
  · simp [withdrawClaim_of_grant h]

/-- The station holds no grant after its claim is withdrawn: its own has gone, and serving passes it over. -/
theorem withdrawClaim_grant_ne (x : Addr) (s : State) :
    ∀ g, (withdrawClaim x s).pa.grant = some g → g.holder ≠ x := by
  have hdead := liveIn_dropSegClaim x s
  cases hgrant : holdsGrant x s with
  | true =>
    rw [withdrawClaim_of_grant hgrant, freeGrant_pa]
    refine serve_grant_ne ?_ (by simp)
    rwa [liveIn_congr (t := dropSegClaim x s) (by simp)]
  | false =>
    have hother := (holdsGrant_eq_false_iff x s).mp hgrant
    rw [withdrawClaim_of_no_grant hgrant]
    by_cases hsame : viewShape s = viewShape (dropSegClaim x s)
    · rwa [afterView_pa_of_eq hsame, dropSegClaim_pa]
    · rw [afterView_pa_of_ne hsame]
      refine serve_grant_ne ?_ ?_
      · rwa [liveIn_congr (t := dropSegClaim x s) (by simp)]
      · intro g hg
        obtain ⟨k, hk, rfl⟩ : ∃ k, s.pa.grant = some k ∧ { k with live := liveIn (dropSegClaim x s) k.holder } = g := by
          simpa [followView] using hg
        exact hother k hk

/-- With a live entry, the station's ask goes too: it leaves with the grant, or because its entry is no longer live. -/
theorem withdrawClaim_queue_ne {x : Addr} {s : State} (hlive : liveIn s x = true) :
    ∀ q ∈ (withdrawClaim x s).pa.queue, q.requester ≠ x := by
  intro q hq
  cases hgrant : holdsGrant x s with
  | true =>
    rw [withdrawClaim_of_grant hgrant, freeGrant_pa] at hq
    have hkept := mem_of_mem_serve_queue hq
    simp only [queuePoints_pa, State.setPa_pa, dropAsk, List.mem_filter] at hkept
    exact of_decide_eq_true hkept.2
  | false =>
    rw [withdrawClaim_of_no_grant hgrant, afterView_pa_of_ne (viewShape_ne_dropSegClaim hlive)] at hq
    have hkept := mem_of_mem_serve_queue hq
    simp only [followView, State.setPa_pa, List.mem_filter] at hkept
    rintro rfl
    simp [liveIn_dropSegClaim] at hkept

@[simp] theorem withdrawClaim_pa_console (x : Addr) (s : State) : (withdrawClaim x s).pa.console = s.pa.console := by
  cases hgrant : holdsGrant x s
  · rw [withdrawClaim_of_no_grant hgrant]
    by_cases hsame : viewShape s = viewShape (dropSegClaim x s)
    · simp [afterView_pa_of_eq hsame]
    · simp [afterView_pa_of_ne hsame, followView]
  · simp [withdrawClaim_of_grant hgrant, freeGrant_pa, dropAsk]

end Sys2Proof.Machine
end

section
/-! CLEAR-STALE (R25, R197, R188, R82). -/

namespace Sys2Proof.Machine

open Sys2Proof

@[simp] theorem taken_ov (s : State) : (taken s).ov = s.ov := rfl
@[simp] theorem taken_sv (s : State) : (taken s).sv = s.sv := rfl
@[simp] theorem taken_pa (s : State) : (taken s).pa = s.pa := rfl
@[simp] theorem taken_tli_addr (s : State) : (taken s).tli.addr = s.tli.addr := rfl
@[simp] theorem taken_tli_clash (s : State) : (taken s).tli.clash = s.tli.clash := rfl

/-- A REPORT produced while no address clash is held waits to be sent (R190, R193). -/
theorem queued_report {s : State} {c : Addr} (b : Block) (u : Subject) (o : ReportOutcome) (n : Nat)
    (hclash : s.tli.clash = false) (hcons : console s = some c) :
    queued (.report c { subject := u, outcome := o, oid := n }) (report b u o n s) := by
  have hwaits : Frame.report c { subject := u, outcome := o, oid := n } ∈ waiting b (report b u o n s).tli := by
    simp [waiting_report b b u o n c s hclash hcons]
  obtain ⟨e, he, hframe⟩ := List.mem_map.mp hwaits
  exact List.mem_map.mpr ⟨e, (List.mem_filter.mp he).1, hframe⟩

theorem clearHolder_carriage {src h : Addr} {s : State} (hkind : s.tli.kind = .carriage) (hne : src ≠ s.tli.addr) :
    clearHolder src h s = keepClaims (fun e => decide (e.holder ≠ h)) s := by
  simp [clearHolder, hkind, toView_of_ne _ hne]

theorem clearHolder_points {src h : Addr} {s : State} (hkind : s.tli.kind = .points) :
    clearHolder src h s = withdrawClaim h s := by
  simp [clearHolder, hkind]

theorem exec_clearStale (src : Addr) (broadcast : Bool) (h : Addr) (s : State) :
    exec (.clearStale src broadcast h) s = execClearStale src broadcast h s := rfl

theorem exec_clearStale_broadcast {src h : Addr} {s : State} (hfrom : fromOther src s = true) (hh : h ≤ 63) :
    exec (.clearStale src true h) s = .next (if console (quiet s) = some src then clearHolder src h (quiet s)
      else countMalformed (quiet s)) := by
  rw [exec_clearStale, execClearStale, if_pos rfl, hear_of_fromOther _ hfrom (decide_eq_true hh)]

/-- The claims on the points segment by a holder are gone from a state, judged against the state before: its entry from the
Segment View, its grant, and, if the entry was live, its ask. -/
def holderGone (h : Addr) (s t : State) : Prop :=
  t.sv.entries = s.sv.entries.filter (fun e => decide (e.holder ≠ h)) ∧
    (∀ g, t.pa.grant = some g → g.holder ≠ h) ∧ (liveIn s h = true → ∀ q ∈ t.pa.queue, q.requester ≠ h)

theorem holderGone_withdrawClaim (h : Addr) (s : State) : holderGone h s (withdrawClaim h s) :=
  ⟨congrArg SegView.entries (withdrawClaim_sv h s), withdrawClaim_grant_ne h s, withdrawClaim_queue_ne⟩

/-- A state with the same Segment View entries will do for the state before. -/
theorem holderGone_congr {h : Addr} {s s' t : State} (hsame : s.sv.entries = s'.sv.entries) (hgone : holderGone h s t) :
    holderGone h s' t := by
  obtain ⟨hentries, hgrant, hqueue⟩ := hgone
  exact ⟨hsame ▸ hentries, hgrant, fun hlive => hqueue (liveIn_congr hsame h ▸ hlive)⟩

theorem holderGone_report {h : Addr} {s t : State} (b : Block) (u : Subject) (o : ReportOutcome) (n : Nat)
    (hgone : holderGone h s t) : holderGone h s (report b u o n t) := by
  simpa [holderGone] using hgone

/-- CLEAR-STALE on a carriage node, addressed by the console. -/
theorem exec_clearStale_addressed_carriage {src h : Addr} {s : State} (hkind : s.tli.kind = .carriage)
    (hfront : atFront src (.clearStale h) s = true) (hne : src ≠ s.tli.addr) :
    exec (.clearStale src false h) s =
      .next (report .ov .clearStale .accepted 0 (keepClaims (fun e => decide (e.holder ≠ h)) (taken s))) := by
  have hclear : clearHolder src h (taken s) = keepClaims (fun e => decide (e.holder ≠ h)) (taken s) :=
    clearHolder_carriage hkind hne
  rw [exec_clearStale, execClearStale, if_neg Bool.false_ne_true, deliver_of_atFront _ hfront rfl, hclear]
  simp only [taken_tli_kind, hkind]

/-- CLEAR-STALE on a carriage node, broadcast by the console. -/
theorem exec_clearStale_broadcast_carriage {src h : Addr} {s : State} (hkind : s.tli.kind = .carriage)
    (hfrom : fromOther src s = true) (hh : h ≤ 63) (hcons : s.cs.console = some src) :
    exec (.clearStale src true h) s = .next (keepClaims (fun e => decide (e.holder ≠ h)) (quiet s)) := by
  have hkindq : (quiet s).tli.kind = .carriage := by simpa using hkind
  have hne : src ≠ (quiet s).tli.addr := by simpa using ((fromOther_iff src s).mp hfrom).2
  rw [exec_clearStale_broadcast hfrom hh, console_carriage hkindq, quiet_cs_console, if_pos hcons,
    clearHolder_carriage hkindq hne]

/-- CLEAR-STALE on a points node, addressed by the console. -/
theorem exec_clearStale_addressed_points {src h : Addr} {s : State} (hkind : s.tli.kind = .points)
    (hfront : atFront src (.clearStale h) s = true) :
    exec (.clearStale src false h) s =
      .next (report .segView .clearStale .accepted 0 (withdrawClaim h (taken s))) := by
  have hclear : clearHolder src h (taken s) = withdrawClaim h (taken s) := clearHolder_points hkind
  rw [exec_clearStale, execClearStale, if_neg Bool.false_ne_true, deliver_of_atFront _ hfront rfl, hclear]
  simp only [taken_tli_kind, hkind]

/-- CLEAR-STALE on a points node, broadcast by the console. -/
theorem exec_clearStale_broadcast_points {src h : Addr} {s : State} (hkind : s.tli.kind = .points)
    (hfrom : fromOther src s = true) (hh : h ≤ 63) (hcons : s.pa.console = some src) :
    exec (.clearStale src true h) s = .next (withdrawClaim h (quiet s)) := by
  have hkindq : (quiet s).tli.kind = .points := by simpa using hkind
  rw [exec_clearStale_broadcast hfrom hh, console_points hkindq, quiet_pa_console, if_pos hcons,
    clearHolder_points hkindq]

/-- CLEAR-STALE broadcast by a station that is not the console is counted as malformed (R188). -/
theorem exec_clearStale_broadcast_other {src h : Addr} {s : State} (hfrom : fromOther src s = true) (hh : h ≤ 63)
    (hcons : console (quiet s) ≠ some src) : exec (.clearStale src true h) s = .next (countMalformed (quiet s)) := by
  rw [exec_clearStale_broadcast hfrom hh, if_neg hcons]

/-- Settles O28: on a carriage node the claim table is filtered; on a points node the holder's claim is withdrawn, and the
REPORT takes nothing back. -/
theorem staleCleared : Obligations.StaleCleared := by
  intro src h s
  refine ⟨fun hkind => ⟨?addressedC, fun hfrom hh => ⟨?consoleC, ?otherC⟩⟩,
    fun hkind => ⟨?addressedP, fun hfrom hh => ⟨?consoleP, ?otherP⟩⟩⟩
  case addressedC => exact exec_clearStale_addressed_carriage hkind
  case consoleC =>
    intro hcons
    rw [exec_clearStale_broadcast_carriage hkind hfrom hh hcons, keepClaims, quiet_ov]
    rfl
  case otherC =>
    intro hcons
    have hother : console (quiet s) ≠ some src := by
      rwa [console_carriage (by simpa using hkind), quiet_cs_console]
    exact ⟨_, exec_clearStale_broadcast_other hfrom hh hother, by simp, by rw [countMalformed_quiet]; rfl⟩
  case addressedP =>
    intro hfront
    refine ⟨_, exec_clearStale_addressed_points hkind hfront, ?gone, fun hclash c hcons => ?answered⟩
    case gone => exact holderGone_report _ _ _ _ (holderGone_congr rfl (holderGone_withdrawClaim h (taken s)))
    case answered =>
      refine queued_report _ _ _ _ (by simpa using hclash) ?_
      rw [console_points (by simpa using hkind)]
      simpa using hcons
  case consoleP =>
    intro hcons
    exact ⟨_, exec_clearStale_broadcast_points hkind hfrom hh hcons,
      holderGone_congr (quiet_sv_entries s) (holderGone_withdrawClaim h (quiet s))⟩
  case otherP =>
    intro hcons
    have hother : console (quiet s) ≠ some src := by
      rwa [console_points (by simpa using hkind), quiet_pa_console]
    rw [exec_clearStale_broadcast_other hfrom hh hother, countMalformed_quiet]

end Sys2Proof.Machine
end

section
/-! The end of a recovery (R92, R93): the fault record and the notice that failed points leave, what a change of the lock inputs
does where the points are not locked, and the state in which the previous position's lock leaves them. -/

namespace Sys2Proof.Machine

open Sys2Proof

/-! ## The notice and the fault -/

/-- A frame that waits in the order of its block is queued (R189, R190). -/
theorem queued_of_mem_waiting {b : Block} {f : Frame} {s : State} (h : f ∈ waiting b s.tli) : queued f s := by
  obtain ⟨e, he, hframe⟩ := List.mem_map.mp h
  exact List.mem_map.mpr ⟨e, (List.mem_filter.mp he).1, hframe⟩

/-- The queuing of a notice changes nothing that a notice shows. -/
@[simp] theorem pointsNotice_queuePoints (s : State) : pointsNotice (queuePoints s) = pointsNotice s := by
  simp [pointsNotice, pointsSeg]

/-- A notice of the state as it stands waits, while no address clash is held (R100). -/
theorem queued_queuePoints {s : State} (hclash : s.tli.clash = false) :
    queued (.points (pointsNotice (queuePoints s))) (queuePoints s) := by
  rw [pointsNotice_queuePoints]
  refine queued_of_mem_waiting (b := .pa) ?_
  simp [queuePoints, waiting_offer, hclash, lasting]

theorem raisePoints_code_of_first {s : State} (c : FaultCode) (hfault : s.pa.fault = none) :
    (raisePoints c s).pa.fault.map FaultRec.code = some c := by
  simp [raisePoints, hfault]

theorem raisePoints_fault_of_further {s : State} {f : FaultRec} (c : FaultCode) (hfault : s.pa.fault = some f) :
    (raisePoints c s).pa.fault = some (f.add c) := by
  simp [raisePoints, hfault]

/-- A further fault that leaves the position known: the record counts it and names it as the last (R98, R172). -/
theorem faultRec_add_of_not_positional {c : FaultCode} (hc : positionalCode c = false) (f : FaultRec) :
    f.add c = { f with further := min (f.further + 1) 65535, last := some c } := by
  simp [FaultRec.add, hc, satInc, Config.countTop]

/-! ## The throw timer's limit -/

theorem exec_recoveryTimeout_recovering {s : State} (hkind : s.tli.kind = .points) (hstate : s.ts.state = .recovering) :
    exec .recoveryTimeout s = .next (queuePoints (raisePoints .throwFailed (pointsFail s))) := by
  show execRecoveryTimeout s = _
  rw [execRecoveryTimeout, onKind_of_eq _ hkind, if_pos hstate]

/-! ## A change of the lock inputs outside the locked states -/

/-- The state with the lock inputs as they now stand. -/
def withLocks (normal reverse : Bool) (s : State) : State :=
  s.setTs { s.ts with normalLock := normal, reverseLock := reverse }

@[simp] theorem withLocks_state (normal reverse : Bool) (s : State) : (withLocks normal reverse s).ts.state = s.ts.state :=
  rfl
@[simp] theorem withLocks_previous (normal reverse : Bool) (s : State) :
    (withLocks normal reverse s).ts.previous = s.ts.previous := rfl

theorem exec_lockInputChange_of_not_locked {s : State} (normal reverse : Bool) (hkind : s.tli.kind = .points)
    (hstate : lockedPos s.ts.state = none) :
    exec (.lockInputChange normal reverse) s = .next (lockArrives s (withLocks normal reverse s)) := by
  show execLockInputChange normal reverse s = _
  rw [execLockInputChange, onKind_of_eq _ hkind]
  simp only [hstate, withLocks]

theorem lockArrives_of_failed {before s : State} (hstate : s.ts.state = .failed) :
    lockArrives before s = noticeIfChanged before s := by
  simp only [lockArrives, hstate]

theorem lockArrives_of_previous {before s : State} (hstate : s.ts.state = .recovering)
    (hlock : lockOf s s.ts.previous = true) : lockArrives before s = recoverPrevious s := by
  simp only [lockArrives, hstate, if_pos hlock]

/-- The inputs are no part of what a notice announces (R100). -/
theorem noticeIfChanged_withLocks (normal reverse : Bool) (s : State) :
    noticeIfChanged s (withLocks normal reverse s) = withLocks normal reverse s :=
  if_pos rfl

/-! ## The points after a recovery has ended -/

/-- Serving leaves the points where they stand, or begins a throw (R89, R90). -/
theorem serve_state_cases (s : State) : (serve s).ts.state = s.ts.state ∨ (serve s).ts.state = .throwing := by
  unfold serve
  split
  case h_1 =>
    split
    case isTrue =>
      split
      · exact .inl rfl
      · split
        · exact .inr rfl
        · exact .inl rfl
    case isFalse => exact .inl rfl
  case h_2 => exact .inl rfl

/-- The answers to refused asks do not move the points. -/
theorem foldl_refuseQueued_ts (p : PointsPos) (l : List Addr) (s : State) :
    (l.foldl (fun t x => refuseQueued p x t) s).ts = s.ts := by
  induction l generalizing s with
  | nil => rfl
  | cons x l ih => rw [List.foldl_cons, ih, refuseQueued_ts]

/-- A recovery that the previous position's lock ends leaves the points locked there, or thrown on by serving (R92). -/
theorem recoverPrevious_state_cases (s : State) :
    (recoverPrevious s).ts.state = lockedAt s.ts.previous ∨ (recoverPrevious s).ts.state = .throwing := by
  have hlocked (t : State) (ht : t.ts = (lockAt s.ts.previous s).ts) :
      (serve t).ts.state = lockedAt s.ts.previous ∨ (serve t).ts.state = .throwing := by
    have hcases := serve_state_cases t
    rwa [ht] at hcases
  simp only [recoverPrevious]
  split
  · simpa only [lockServed, queuePoints_ts] using hlocked _ (setUnavail_ts _ _)
  · simpa only [serveAfter, noticeIfChanged_ts] using
      hlocked _ ((foldl_refuseQueued_ts _ _ _).trans (setUnavail_ts _ _))

theorem recoverPrevious_state_ne (s : State) :
    (recoverPrevious s).ts.state ≠ .recovering ∧ (recoverPrevious s).ts.state ≠ .failed := by
  rcases recoverPrevious_state_cases s with hlocked | hthrowing
  · rw [hlocked]
    cases s.ts.previous <;> decide
  · rw [hthrowing]
    decide

/-- Settles O36: at the limit the points fail, raise THROW_FAILED and queue one notice; the previous position's lock ends the
recovery through `recoverPrevious`; and in FAILED there is no motion to end, and nothing that a notice announces changes. -/
theorem recoveryFails : Obligations.RecoveryFails := by
  intro normal reverse s hkind
  refine ⟨fun hstate => ⟨_, exec_recoveryTimeout_recovering hkind hstate, ?throw, ?queue, fun hfault => ?first,
      fun f hfault => ?further, fun hclash => ⟨queued_queuePoints (by simpa using hclash), ?notice, ?length⟩⟩,
    fun hstate hlock => ?lockFirst, fun hstate => ?lockLater⟩
  case throw => simp [pointsFail]
  case queue => simp [pointsFail]
  case first =>
    rw [queuePoints_pa]
    exact raisePoints_code_of_first _ (by simpa using hfault)
  case further =>
    have hkept : (pointsFail s).pa.fault = some f := by simpa using hfault
    rw [queuePoints_pa, raisePoints_fault_of_further _ hkept, faultRec_add_of_not_positional rfl]
  case notice => simp [pointsNotice, pointsFail]
  case length => simp [pointsNotice, pointsFail]
  case lockFirst =>
    have hprevious : lockOf (withLocks normal reverse s) s.ts.previous = true := hlock
    refine ⟨_, exec_lockInputChange_of_not_locked normal reverse hkind (by rw [hstate]; rfl), ?_⟩
    rw [lockArrives_of_previous (by simpa using hstate) (by simpa using hprevious)]
    exact recoverPrevious_state_ne _
  case lockLater =>
    rw [exec_lockInputChange_of_not_locked normal reverse hkind (by rw [hstate]; rfl),
      lockArrives_of_failed (by simpa using hstate), noticeIfChanged_withLocks, withLocks]

end Sys2Proof.Machine
end

section
/-! CONVOY_HOLD (R150): the hysteresis between the hold and the resume gap, and the two ends of a leader evaluation. -/

namespace Sys2Proof.Machine

open Sys2Proof

/-! ## The hysteresis -/

theorem holdAfter_of_le_hold {c : CommRec} {gap : Mm} (before : Bool) (hnear : gap ≤ c.hold) :
    holdAfter c gap before = true := if_pos hnear

/-- The hold gap is tested first, so that clearing needs it below the resume gap, as R195 leaves it. -/
theorem holdAfter_of_resume_le {c : CommRec} {gap : Mm} (before : Bool) (hgaps : c.hold < c.resume)
    (hfar : c.resume ≤ gap) : holdAfter c gap before = false := by
  rw [holdAfter, if_neg (hgaps.trans_le hfar).not_ge, if_pos hfar]

theorem holdAfter_of_between {c : CommRec} {gap : Mm} (before : Bool) (habove : c.hold < gap)
    (hbelow : gap < c.resume) : holdAfter c gap before = before := by
  rw [holdAfter, if_neg habove.not_ge, if_neg hbelow.not_ge]

/-! ## The evaluation -/

theorem evaluateLeader_of_none {a : ActiveOrder} {r : Route} {s : State} (hnone : nearest (candidates a r s) = none) :
    evaluateLeader a r s = clearConvoy s := by
  rw [evaluateLeader, hnone]

theorem evaluateLeader_of_some {a : ActiveOrder} {r : Route} {s : State} {l : Leader}
    (hsome : nearest (candidates a r s) = some l) :
    evaluateLeader a r s = s.setCr { s.cr with
      leader := some l, limit := some (convoyLimit (cfg s) l.gap), hold := holdAfter (cfg s) l.gap s.cr.hold } := by
  rw [evaluateLeader, hsome]

theorem exec_leaderEvaluation (s : State) : exec .leaderEvaluation s = execLeaderEvaluation s := rfl

/-- In a moving state with a started order on a route, the interval starts anew and the leader is evaluated (R145). -/
theorem exec_leaderEvaluation_moving {a : ActiveOrder} {r : Route} {s : State} (hkind : s.tli.kind = .carriage)
    (hstarted : started s = some a) (hroute : s.pu.route = some r) (hmoving : movingState s.cs.state = true) :
    exec .leaderEvaluation s = .next (evaluateLeader a r (s.setCr { s.cr with timer := 0 })) := by
  have hstarted' : started (s.setCr { s.cr with timer := 0 }) = some a := hstarted
  rw [exec_leaderEvaluation, execLeaderEvaluation, onKind_of_eq _ hkind]
  simp only [hstarted', State.setCr_pu, hroute, State.setCr_cs, hmoving, if_true]

/-- Of the hold causes the Convoy Regulator presents CONVOY_HOLD alone (R133). -/
theorem holdCauses_setCr (s : State) (v : Convoy) :
    holdCauses (s.setCr v) = { holdCauses s with convoyHold := v.hold } := rfl

/-- Settles O55: without a nearest candidate the convoy state is cleared; with one CONVOY_HOLD is what `holdAfter` makes of
its gap. -/
theorem convoyHoldKept : Obligations.ConvoyHoldKept := by
  intro a r s hkind hstarted hroute hmoving hgaps
  refine ⟨_, exec_leaderEvaluation_moving hkind hstarted hroute hmoving, ?_⟩
  cases hnearest : nearest (candidates a r (s.setCr { s.cr with timer := 0 })) with
  | none =>
    rw [evaluateLeader_of_none hnearest, clearConvoy]
    exact ⟨fun _ => rfl, fun l hleader => absurd hleader.symm (Option.some_ne_none l), holdCauses_setCr s _⟩
  | some found =>
    rw [evaluateLeader_of_some hnearest]
    refine ⟨fun hnone => absurd hnone (Option.some_ne_none found), fun l hleader => ?_, holdCauses_setCr s _⟩
    obtain rfl : found = l := Option.some.inj hleader
    exact ⟨holdAfter_of_le_hold _, holdAfter_of_resume_le _ hgaps, holdAfter_of_between _⟩

end Sys2Proof.Machine
end

section
/-! What every step keeps of the two queues, the tables and the Envelope Unit (R135, R137, R180, and the capacities): a
relation between the state before and after, which each shared operation satisfies and which composes. -/

namespace Sys2Proof.Machine

open Sys2Proof

/-! ## The line interface -/

/-- The bounds of `QueueInv`, of the interface alone. -/
def TliOk (t : Tli) : Prop :=
  t.txq.length ≤ Config.txCap ∧ t.inbound.length ≤ Config.inboundCap ∧
    t.counters.malformed ≤ Config.countTop ∧ t.counters.unacked ≤ Config.countTop ∧
    t.counters.overflow ≤ Config.countTop ∧ t.counters.displaced ≤ Config.countTop

theorem queueInv_iff (s : State) : QueueInv s ↔ TliOk s.tli := Iff.rfl

theorem satInc_le (n : Nat) : satInc n ≤ Config.countTop := min_le_right _ _

/-- An interface that holds no more frames than one within its bounds, the rest as there, is within them. -/
theorem TliOk.of_txq {t u : Tli} (h : TliOk t) (htx : u.txq.length ≤ Config.txCap) (hin : u.inbound = t.inbound)
    (hcount : u.counters = t.counters) : TliOk u := by
  obtain ⟨-, hinbound, hcounters⟩ := h
  exact ⟨htx, hin ▸ hinbound, hcount ▸ hcounters⟩

/-- A frame displaced is counted within the range. -/
theorem TliOk.of_displaced {t u : Tli} (h : TliOk t) (htx : u.txq.length ≤ Config.txCap) (hin : u.inbound = t.inbound)
    (hcount : u.counters = t.counters.displace) : TliOk u := by
  obtain ⟨-, hinbound, hmalformed, hunacked, hoverflow, -⟩ := h
  refine ⟨htx, hin ▸ hinbound, ?_⟩
  rw [hcount]
  exact ⟨hmalformed, hunacked, hoverflow, satInc_le _⟩

theorem offerPlain_ok {t : Tli} (e : TxEntry) (h : TliOk t) : TliOk (offerPlain e t) := by
  have append (hroom : t.txq.length < Config.txCap) : TliOk { t with txq := t.txq ++ [e] } :=
    h.of_txq (by simpa using hroom) rfl rfl
  have keep : TliOk (keepFrame e t) := h.of_txq h.1 rfl rfl
  unfold offerPlain
  split
  case isTrue =>
    split
    case isTrue hroom => exact append hroom
    case isFalse => exact h.of_displaced h.1 rfl rfl
  case isFalse =>
    split
    case isTrue => exact keep
    case isFalse =>
      split
      case isTrue hroom => exact append hroom
      case isFalse =>
        split
        case h_1 i hfound =>
          obtain ⟨hi, -⟩ := List.findIdx?_eq_some_iff_getElem.mp hfound
          refine h.of_displaced ?_ rfl rfl
          have := h.1
          simp only [List.length_append, List.length_eraseIdx, hi, if_true, List.length_singleton]
          omega
        case h_2 => exact keep

theorem offerTli_ok {t : Tli} (e : TxEntry) (h : TliOk t) : TliOk (offerTli e t) := by
  have replace (f : TxEntry → TxEntry) : TliOk { t with txq := t.txq.map f } :=
    h.of_txq (by simpa using h.1) rfl rfl
  unfold offerTli
  split
  · exact h
  · split
    · split
      · exact replace _
      · split
        · exact h
        · exact offerPlain_ok e h
    · split
      · exact replace _
      · split
        · exact h
        · exact offerPlain_ok e h
    · exact offerPlain_ok e h

theorem fillLoop_txq_le (n : Nat) (t : Tli) (h : t.txq.length ≤ Config.txCap) :
    (fillLoop n t).txq.length ≤ Config.txCap := by
  induction n generalizing t with
  | zero => exact h
  | succ n ih =>
    unfold fillLoop
    split
    case isTrue hroom =>
      split
      case h_1 => exact h
      case h_2 b i _ =>
        refine ih _ ?_
        have : t.kept[i]?.toList.length ≤ 1 := by cases t.kept[i]? <;> simp
        simp only [placeKept, List.length_append]
        omega
    case isFalse => exact h

/-- The filling of places keeps the bounds. -/
theorem fill_ok {t : Tli} (h : TliOk t) : TliOk (fill t) :=
  h.of_txq (fillLoop_txq_le _ t h.1) (fill_inbound t) (fill_counters t)

theorem editClaims_ok {t : Tli} (segs : List Seg) (h : TliOk t) : TliOk (editClaims segs t) :=
  fill_ok (h.of_txq (List.length_filterMap_le _ _ |>.trans h.1) rfl rfl)

theorem withdrawSpanFrames_ok {t : Tli} (segs : List Seg) (h : TliOk t) : TliOk (withdrawSpanFrames segs t) :=
  fill_ok (h.of_txq (by simpa [pruneLine] using (List.length_filter_le _ _).trans h.1) rfl rfl)

theorem waitAgain_ok {t : Tli} (h : TliOk t) : TliOk (waitAgain t) :=
  fill_ok (h.of_txq (List.length_filterMap_le _ _ |>.trans h.1) rfl rfl)

theorem untagAsks_ok {t : Tli} (h : TliOk t) : TliOk (untagAsks t) :=
  h.of_txq (by simpa [untagAsks] using h.1) rfl rfl

/-! ## The relation -/

/-- What one command may change and no other: a personality's commissioning, the latch that is set, the gust input. -/
inductive Freed where
  | none | commission | pointsCommission | resume | gust
  deriving DecidableEq

/-- The carriage's commissioning and console are as they were. -/
def SameRecord (s t : State) : Prop := t.cs.comm = s.cs.comm ∧ t.cs.console = s.cs.console

/-- The points node's commissioning and console are as they were. -/
def SamePointsRecord (s t : State) : Prop := t.pa.comm = s.pa.comm ∧ t.pa.console = s.pa.console

/-- A latch that is set stays set. -/
def LatchHeld (s t : State) : Prop :=
  (s.cs.latch.isSome = true → t.cs.latch = s.cs.latch) ∧ (s.pa.latch.isSome = true → t.pa.latch.isSome = true)

/-- The points node's blocks are as they were, but for the notice countdown. -/
def PointsAside (s t : State) : Prop :=
  t.sv = s.sv ∧ t.ts = s.ts ∧ s.pa = { t.pa with countdown := s.pa.countdown }

/-- The carriage node's blocks are as they were, but for the refresh countdown and the position period. -/
def CarriageAside (s t : State) : Prop :=
  t.os = s.os ∧ t.ov = s.ov ∧ t.eu = s.eu ∧ t.cr = s.cr ∧ t.ds = s.ds ∧ t.cs = s.cs ∧
    s.ce = { t.ce with refresh := s.ce.refresh, refreshOut := s.ce.refreshOut } ∧ s.pu = { t.pu with timer := s.pu.timer }

theorem SameRecord.refl (s : State) : SameRecord s s := ⟨rfl, rfl⟩
theorem SamePointsRecord.refl (s : State) : SamePointsRecord s s := ⟨rfl, rfl⟩
theorem LatchHeld.refl (s : State) : LatchHeld s s := ⟨fun _ => rfl, id⟩
theorem PointsAside.refl (s : State) : PointsAside s s := ⟨rfl, rfl, rfl⟩
theorem CarriageAside.refl (s : State) : CarriageAside s s := ⟨rfl, rfl, rfl, rfl, rfl, rfl, rfl, rfl⟩

theorem SameRecord.trans {s t u : State} (h : SameRecord s t) (k : SameRecord t u) : SameRecord s u :=
  ⟨k.1.trans h.1, k.2.trans h.2⟩

theorem SamePointsRecord.trans {s t u : State} (h : SamePointsRecord s t) (k : SamePointsRecord t u) :
    SamePointsRecord s u := ⟨k.1.trans h.1, k.2.trans h.2⟩

theorem LatchHeld.trans {s t u : State} (h : LatchHeld s t) (k : LatchHeld t u) : LatchHeld s u :=
  ⟨fun hset => (k.1 (h.1 hset ▸ hset)).trans (h.1 hset), k.2 ∘ h.2⟩

theorem PointsAside.trans {s t u : State} (h : PointsAside s t) (k : PointsAside t u) : PointsAside s u := by
  obtain ⟨hsv, hts, hpa⟩ := h
  obtain ⟨ksv, kts, kpa⟩ := k
  refine ⟨ksv.trans hsv, kts.trans hts, ?_⟩
  rw [kpa] at hpa
  exact hpa

theorem CarriageAside.trans {s t u : State} (h : CarriageAside s t) (k : CarriageAside t u) : CarriageAside s u := by
  obtain ⟨hos, hov, heu, hcr, hds, hcs, hce, hpu⟩ := h
  obtain ⟨kos, kov, keu, kcr, kds, kcs, kce, kpu⟩ := k
  refine ⟨kos.trans hos, kov.trans hov, keu.trans heu, kcr.trans hcr, kds.trans hds, kcs.trans hcs, ?_, ?_⟩
  · rw [kce] at hce
    exact hce
  · rw [kpu] at hpu
    exact hpu

/-- What an operation keeps that may touch the carriage node's blocks (`car`), the points node's (`pts`) and what `fr` frees:
the three invariants of a running block that bound its outputs, its queues and its tables; the commands that wait outside it;
address, kind, commissioning, a set latch and the gust input; and the blocks it may not touch. -/
structure Sound (car pts : Bool) (fr : Freed) (s t : State) : Prop where
  env : EnvelopeInv s → EnvelopeInv t
  queue : QueueInv s → QueueInv t
  table : TableInv s → TableInv t
  pending : t.pending = s.pending
  addr : t.tli.addr = s.tli.addr
  kind : t.tli.kind = s.tli.kind
  record : fr ≠ .commission → SameRecord s t
  pointsRecord : fr ≠ .pointsCommission → SamePointsRecord s t
  latch : fr ≠ .resume → LatchHeld s t
  gust : fr ≠ .gust → t.eu.gust = s.eu.gust
  aside : pts = false → PointsAside s t
  carriage : car = false → CarriageAside s t

namespace Sound

variable {car pts : Bool} {fr : Freed}

theorem refl (s : State) : Sound car pts fr s s :=
  ⟨id, id, id, rfl, rfl, rfl, fun _ => .refl s, fun _ => .refl s, fun _ => .refl s, fun _ => rfl, fun _ => .refl s, fun _ => .refl s⟩

theorem trans {s t u : State} (h : Sound car pts fr s t) (k : Sound car pts fr t u) : Sound car pts fr s u where
  env := k.env ∘ h.env
  queue := k.queue ∘ h.queue
  table := k.table ∘ h.table
  pending := k.pending.trans h.pending
  addr := k.addr.trans h.addr
  kind := k.kind.trans h.kind
  record hx := (h.record hx).trans (k.record hx)
  pointsRecord hx := (h.pointsRecord hx).trans (k.pointsRecord hx)
  latch hx := (h.latch hx).trans (k.latch hx)
  gust hx := (k.gust hx).trans (h.gust hx)
  aside hp := (h.aside hp).trans (k.aside hp)
  carriage hc := (h.carriage hc).trans (k.carriage hc)

/-- The last of two operations, and what came before it. -/
theorem after {s t u : State} (k : Sound car pts fr t u) (h : Sound car pts fr s t) : Sound car pts fr s u := h.trans k

/-! Changes of one block. -/

/-- A change of the line interface that keeps its bounds, the address and the kind. -/
theorem setTli (s : State) (v : Tli) (ha : v.addr = s.tli.addr) (hk : v.kind = s.tli.kind)
    (h : TliOk s.tli → TliOk v) : Sound car pts fr s (s.setTli v) :=
  ⟨id, h, id, rfl, ha, hk, fun _ => .refl s, fun _ => .refl s, fun _ => .refl s, fun _ => rfl, fun _ => .refl s, fun _ => .refl s⟩

/-- A change of the carriage node's blocks for which `EnvelopeInv` and `TableInv` are shown, and which leaves the points
node's and the line alone. -/
theorem ofCarriage {s t : State} (henv : EnvelopeInv s → EnvelopeInv t) (htable : TableInv s → TableInv t)
    (hcomm : fr ≠ .commission → t.cs.comm = s.cs.comm ∧ t.cs.console = s.cs.console)
    (hlatch : fr ≠ .resume → s.cs.latch.isSome = true → t.cs.latch = s.cs.latch)
    (hgust : fr ≠ .gust → t.eu.gust = s.eu.gust) (heq : t = { t with pending := s.pending, tli := s.tli, sv := s.sv, pa := s.pa, ts := s.ts }) : Sound true pts fr s t where
  env := henv
  queue := by rw [heq]; exact id
  table := htable
  pending := by rw [heq]
  addr := by rw [heq]
  kind := by rw [heq]
  record := hcomm
  pointsRecord _ := by rw [heq]; exact ⟨rfl, rfl⟩
  latch hx := ⟨hlatch hx, by rw [heq]; exact id⟩
  gust := hgust
  aside _ := by rw [heq]; exact ⟨rfl, rfl, rfl⟩
  carriage hc := by cases hc

theorem setOs (s : State) (v : OrderStore) : Sound true pts fr s (s.setOs v) :=
  ofCarriage id id (fun _ => ⟨rfl, rfl⟩) (fun _ _ => rfl) (fun _ => rfl) rfl

theorem setPu (s : State) (v : PosUnit) : Sound true pts fr s (s.setPu v) :=
  ofCarriage id id (fun _ => ⟨rfl, rfl⟩) (fun _ _ => rfl) (fun _ => rfl) rfl

theorem setCr (s : State) (v : Convoy) : Sound true pts fr s (s.setCr v) :=
  ofCarriage id id (fun _ => ⟨rfl, rfl⟩) (fun _ _ => rfl) (fun _ => rfl) rfl

theorem setDs (s : State) (v : Dock) : Sound true pts fr s (s.setDs v) :=
  ofCarriage id id (fun _ => ⟨rfl, rfl⟩) (fun _ _ => rfl) (fun _ => rfl) rfl

/-- A change of the supervisor that keeps the state, for a command that may free its record or its latch. -/
theorem setCs_freed (s : State) (v : Supervisor) (h : v.state = s.cs.state)
    (hcomm : fr ≠ .commission → v.comm = s.cs.comm ∧ v.console = s.cs.console)
    (hlatch : fr ≠ .resume → s.cs.latch.isSome = true → v.latch = s.cs.latch) : Sound true pts fr s (s.setCs v) := by
  refine ofCarriage (fun henv => ?_) id hcomm hlatch (fun _ => rfl) rfl
  simpa only [EnvelopeInv, State.setCs_cs, State.setCs_eu, h] using henv

theorem setCs (s : State) (v : Supervisor) (h : v.state = s.cs.state) (hcomm : v.comm = s.cs.comm)
    (hconsole : v.console = s.cs.console) (hlatch : v.latch = s.cs.latch) : Sound true pts fr s (s.setCs v) :=
  setCs_freed s v h (fun _ => ⟨hcomm, hconsole⟩) fun _ _ => hlatch

theorem setEu (s : State) (v : Envelope) (hd : v.demand = s.eu.demand) (hb : v.brake = s.eu.brake)
    (hg : fr ≠ .gust → v.gust = s.eu.gust) : Sound true pts fr s (s.setEu v) := by
  refine ofCarriage (fun henv => ?_) id (fun _ => ⟨rfl, rfl⟩) (fun _ _ => rfl) hg rfl
  simpa only [EnvelopeInv, State.setEu_cs, State.setEu_eu, hd, hb] using henv

/-- In a moving state the demand and the brake are free. -/
theorem setEu_of_moving (s : State) (v : Envelope) (h : movingState s.cs.state = true) (hg : v.gust = s.eu.gust) :
    Sound true pts fr s (s.setEu v) := by
  refine ofCarriage (fun _ hidle => ?_) id (fun _ => ⟨rfl, rfl⟩) (fun _ _ => rfl) (fun _ => hg) rfl
  rw [State.setEu_cs, h] at hidle
  exact absurd hidle (by decide)

theorem setCe (s : State) (v : ClaimEngine) (h : v.own.length ≤ s.ce.own.length) : Sound true pts fr s (s.setCe v) := by
  refine ofCarriage id (fun htab => ?_) (fun _ => ⟨rfl, rfl⟩) (fun _ _ => rfl) (fun _ => rfl) rfl
  obtain ⟨hclaims, hpoints, hpos, hown, hrest⟩ := htab
  exact ⟨hclaims, hpoints, hpos, h.trans hown, hrest⟩

theorem setOv (s : State) (v : OccView) (hc : s.ov.claims.length ≤ Config.claimCap → v.claims.length ≤ Config.claimCap)
    (hp : s.ov.pointsTab.length ≤ Config.pointsTabCap → v.pointsTab.length ≤ Config.pointsTabCap)
    (hq : s.ov.posTab.length ≤ Config.posTabCap → v.posTab.length ≤ Config.posTabCap) :
    Sound true pts fr s (s.setOv v) := by
  refine ofCarriage id (fun htab => ?_) (fun _ => ⟨rfl, rfl⟩) (fun _ _ => rfl) (fun _ => rfl) rfl
  obtain ⟨hclaims, hpoints, hpos, hrest⟩ := htab
  exact ⟨hc hclaims, hp hpoints, hq hpos, hrest⟩

/-- A change of the points node's blocks that keeps the bounds of the view and the request queue. -/
theorem ofPoints {s t : State} (htable : TableInv s → TableInv t)
    (hcomm : fr ≠ .pointsCommission → t.pa.comm = s.pa.comm ∧ t.pa.console = s.pa.console)
    (hlatch : fr ≠ .resume → s.pa.latch.isSome = true → t.pa.latch.isSome = true)
    (heq : t = ((s.setSv t.sv).setPa t.pa).setTs t.ts) : Sound car true fr s t where
  env := by rw [heq]; exact id
  queue := by rw [heq]; exact id
  table := htable
  pending := by rw [heq]; rfl
  addr := by rw [heq]; rfl
  kind := by rw [heq]; rfl
  record _ := ⟨by rw [heq]; rfl, by rw [heq]; rfl⟩
  pointsRecord := hcomm
  latch hx := ⟨fun _ => by rw [heq]; rfl, hlatch hx⟩
  gust _ := by rw [heq]; rfl
  aside hp := by cases hp
  carriage _ := by rw [heq]; exact .refl s

theorem setSv (s : State) (v : SegView)
    (h : s.sv.entries.length ≤ Config.segViewCap → v.entries.length ≤ Config.segViewCap) :
    Sound car true fr s (s.setSv v) := by
  refine ofPoints (fun htab => ?_) (fun _ => ⟨rfl, rfl⟩) (fun _ => id) rfl
  obtain ⟨hclaims, hpoints, hpos, hown, hsv, hpa⟩ := htab
  exact ⟨hclaims, hpoints, hpos, hown, h hsv, hpa⟩

/-- A change of the arbiter that keeps to its queue's room, for a command that may free its record or its latch. -/
theorem setPa_freed (s : State) (v : Arbiter) (h : s.pa.queue.length ≤ Config.askCap → v.queue.length ≤ Config.askCap)
    (hcomm : fr ≠ .pointsCommission → v.comm = s.pa.comm ∧ v.console = s.pa.console)
    (hlatch : fr ≠ .resume → s.pa.latch.isSome = true → v.latch.isSome = true) : Sound car true fr s (s.setPa v) := by
  refine ofPoints (fun htab => ?_) hcomm hlatch rfl
  obtain ⟨hclaims, hpoints, hpos, hown, hsv, hpa⟩ := htab
  exact ⟨hclaims, hpoints, hpos, hown, hsv, h hpa⟩

theorem setPa (s : State) (v : Arbiter) (hcomm : v.comm = s.pa.comm) (hconsole : v.console = s.pa.console)
    (hlatch : v.latch = s.pa.latch) (h : s.pa.queue.length ≤ Config.askCap → v.queue.length ≤ Config.askCap) :
    Sound car true fr s (s.setPa v) :=
  setPa_freed s v h (fun _ => ⟨hcomm, hconsole⟩) fun _ => hlatch ▸ id

theorem setTs (s : State) (v : Throw) : Sound car true fr s (s.setTs v) :=
  ofPoints id (fun _ => ⟨rfl, rfl⟩) (fun _ => id) rfl

/-! The three countdowns that stop with the line or end with its frames, whatever the personality. -/

theorem setRefresh (s : State) (r : Option Ms) (o : Bool) :
    Sound car pts fr s (s.setCe { s.ce with refresh := r, refreshOut := o }) :=
  ⟨id, id, id, rfl, rfl, rfl, fun _ => .refl s, fun _ => .refl s, fun _ => .refl s, fun _ => rfl, fun _ => .refl s, fun _ => .refl s⟩

theorem setPeriod (s : State) (p : Option Ms) : Sound car pts fr s (s.setPu { s.pu with timer := p }) :=
  ⟨id, id, id, rfl, rfl, rfl, fun _ => .refl s, fun _ => .refl s, fun _ => .refl s, fun _ => rfl, fun _ => .refl s, fun _ => .refl s⟩

theorem setCountdown (s : State) (c : Option Ms) : Sound car pts fr s (s.setPa { s.pa with countdown := c }) :=
  ⟨id, id, id, rfl, rfl, rfl, fun _ => .refl s, fun _ => .refl s, fun _ => .refl s, fun _ => rfl, fun _ => .refl s, fun _ => .refl s⟩

/-- An operation that may be made or not. -/
theorem ite {c : Prop} [Decidable c] {s t u : State} (ht : c → Sound car pts fr s t) (hu : ¬ c → Sound car pts fr s u) :
    Sound car pts fr s (if c then t else u) := by
  split
  case isTrue h => exact ht h
  case isFalse h => exact hu h

/-- An operation repeated over a list. -/
theorem foldl {α : Type} (f : State → α → State) (l : List α) (s : State) (h : ∀ t a, Sound car pts fr t (f t a)) :
    Sound car pts fr s (l.foldl f s) := by
  induction l generalizing s with
  | nil => exact refl s
  | cons a l ih => exact (h s a).trans (ih _)

end Sound

variable {car pts : Bool} {fr : Freed}

/-! ## Frames queued -/

theorem countMalformed_sound (s : State) : Sound car pts fr s (countMalformed s) := by
  refine .setTli _ _ rfl rfl fun h => ?_
  obtain ⟨htx, hin, -, hrest⟩ := h
  exact ⟨htx, hin, satInc_le _, hrest⟩

theorem countOverflow_sound (s : State) : Sound car pts fr s (countOverflow s) := by
  refine .setTli _ _ rfl rfl fun h => ?_
  obtain ⟨htx, hin, hmal, hun, -, hdis⟩ := h
  exact ⟨htx, hin, hmal, hun, satInc_le _, hdis⟩

theorem settleRefresh_sound (s : State) : Sound car pts fr s (settleRefresh s) :=
  .ite (fun _ => .setRefresh s _ _) (fun _ => .refl s)

theorem offer_sound (b : Block) (p : Bool) (g : TxTag) (f : Frame) (s : State) : Sound car pts fr s (offer b p g f s) :=
  (Sound.setTli s _ (by simp) (by simp) (offerTli_ok _)).trans (settleRefresh_sound _)

theorem report_sound (b : Block) (u : Subject) (o : ReportOutcome) (n : Nat) (s : State) :
    Sound car pts fr s (report b u o n s) := by
  unfold report
  split
  · exact .refl s
  · exact offer_sound ..

theorem queuePosition_sound (s : State) : Sound true pts fr s (queuePosition s) :=
  .ite (fun _ => .refl s) (fun _ => (offer_sound ..).trans (.setPu _ _))

theorem queueClaim_sound (g : TxTag) (c : Nat) (l : List OwnClaim) (s : State) : Sound car pts fr s (queueClaim g c l s) :=
  .ite (fun _ => .refl s) (fun _ => offer_sound ..)

theorem queueReleases_sound (segs : List Seg) (s : State) : Sound car pts fr s (queueReleases segs s) :=
  .foldl _ _ _ fun _ _ => offer_sound ..

theorem queueFrees_sound (nodes : List Addr) (s : State) : Sound car pts fr s (queueFrees nodes s) :=
  .foldl _ _ _ fun _ _ => offer_sound ..

/-! ## The own claim list and the span -/

theorem setOwn_sound {own : List OwnClaim} {s : State} (h : own.length ≤ s.ce.own.length) : Sound true pts fr s (setOwn own s) := by
  have hlist : Sound true pts fr s (refirm (s.setCe { s.ce with own := own })) :=
    (Sound.setCe s _ h).trans (.setCe _ _ le_rfl)
  exact .ite (fun _ => hlist.trans (queuePosition_sound _)) (fun _ => hlist)

theorem releaseStep_sound (gone named : List Seg) (frees : List Addr) (s : State) :
    Sound true pts fr s (releaseStep gone named frees s) := by
  unfold releaseStep
  exact (queueFrees_sound _ _).after <| (queueReleases_sound _ _).after <| (settleRefresh_sound _).after <|
    (Sound.setTli _ _ (by simp) (by simp) (editClaims_ok _)).after (setOwn_sound (List.length_filter_le _ _))

theorem releaseOwn_sound (gone : List Seg) (s : State) : Sound true pts fr s (releaseOwn gone s) :=
  .ite (fun _ => .refl s) (fun _ => releaseStep_sound ..)

theorem recordAbort_sound (r : AbortReason) (g : Seg) (v : Addr) (n : Nat) (s : State) :
    Sound true pts fr s (recordAbort r g v n s) := .setCe _ _ le_rfl

theorem setNextClaim_sound (k : Nat) (s : State) : Sound true pts fr s (setNextClaim k s) := by
  unfold setNextClaim
  split
  · exact .refl s
  · exact .setOs _ _

theorem endSpan_sound (more : List Seg) (s : State) : Sound true pts fr s (endSpan more s) := by
  unfold endSpan
  split
  · exact releaseOwn_sound more s
  · refine Sound.after (.setCe _ _ le_rfl) ((setNextClaim_sound _ _).after ((releaseStep_sound _ _ _ _).after ?_))
    exact .setTli s _ (by simp) (by simp) (withdrawSpanFrames_ok _)

theorem abortSpan_sound (r : AbortReason) (g : Seg) (v : Addr) (s : State) : Sound true pts fr s (abortSpan r g v s) := by
  unfold abortSpan
  split
  · exact .refl s
  · exact (endSpan_sound _ _).trans (recordAbort_sound ..)

theorem resetAttempts_sound (s : State) : Sound true pts fr s (resetAttempts s) := .setCe _ _ le_rfl

/-! ## Entries to a state -/

theorem clearConvoy_sound (s : State) : Sound true pts fr s (clearConvoy s) := .setCr _ _

/-- The brake mode of a state that does not move depends on nothing else. -/
theorem entryBrake_const {st : CarState} (h : movingState st = false) (b c : BrakeMode) :
    entryBrake st b = entryBrake st c := by
  cases st
  case running | stopping | halted => exact absurd h (by decide)
  all_goals rfl

/-- The state taken, with the demand and the brake that suit it. -/
theorem sound_enter {s : State} {st : CarState} {v : Supervisor} {w : Envelope} (hst : v.state = st)
    (hd : movingState st = false → w.demand = 0) (hb : movingState st = false → ∃ b, w.brake = entryBrake st b)
    (hcomm : v.comm = s.cs.comm ∧ v.console = s.cs.console) (hlatch : v.latch = s.cs.latch) (hgust : w.gust = s.eu.gust) :
    Sound true pts fr s ((s.setCs v).setEu w) := by
  refine .ofCarriage (fun _ hidle => ?_) id (fun _ => hcomm) (fun _ _ => hlatch) (fun _ => hgust) rfl
  simp only [State.setEu_cs, State.setCs_cs, State.setEu_eu, hst] at hidle ⊢
  obtain ⟨b, hbrake⟩ := hb hidle
  exact ⟨hd hidle, fun c => by rw [hbrake, entryBrake_const hidle]⟩

theorem enterState_sound (st : CarState) (s : State) : Sound true pts fr s (enterState st s) := by
  unfold enterState
  refine .ite (fun _ => .refl s) (fun _ => (queuePosition_sound _).after ?_)
  refine Sound.after (.ite (fun _ => .refl _) (fun _ => clearConvoy_sound _)) ?_
  refine Sound.after (.ite (fun _ => .setPu _ _) (fun _ => .refl _)) ?_
  refine sound_enter (st := st) ?_ (fun hidle => ?_) (fun _ => ?_) ⟨rfl, rfl⟩ rfl rfl
  · rfl
  · exact if_neg (by simp [hidle])
  · exact ⟨_, rfl⟩

theorem toEndForm_sound (s : State) : Sound true pts fr s (toEndForm s) := by
  unfold toEndForm
  split <;> exact .setPu _ _

theorem orderLeaves_sound (s : State) : Sound true pts fr s (orderLeaves s) := by
  have hmemory : Sound true pts fr s (match started (endSpan [] s) with
      | some a => (endSpan [] s).setOs { (endSpan [] s).os with memory := memoryOf a }
      | none => endSpan [] s) := by
    refine (endSpan_sound [] s).trans ?_
    split
    · exact .setOs _ _
    · exact .refl _
  unfold orderLeaves
  refine (clearConvoy_sound _).after (Sound.after (.setEu _ _ rfl rfl fun _ => rfl) ((resetAttempts_sound _).after ?_))
  exact Sound.after (.setCe _ _ (by simp)) (Sound.after (.setOs _ _) ((toEndForm_sound _).after hmemory))

/-! ## Faults -/

theorem jacksOff_sound (s : State) : Sound true pts fr s (jacksOff s) := .setDs _ _

theorem failOrders_sound (s : State) : Sound true pts fr s (failOrders s) := by
  have hactive : Sound true pts fr s (match s.os.active with
      | some a => report .os .orderEnd (.failed .fault) a.ord.id s
      | none => s) := by
    split
    · exact report_sound ..
    · exact .refl s
  unfold failOrders
  dsimp only
  split
  · exact (report_sound _ _ _ _ _).after hactive
  · exact hactive

theorem faultClaims_sound (s : State) : Sound true pts fr s (faultClaims s) := by
  unfold faultClaims
  dsimp only
  split
  · exact releaseOwn_sound _ _
  · exact (endSpan_sound _ _).trans (recordAbort_sound ..)

theorem firstFault_sound (c : FaultCode) (g : Seg) (m : Mm) (s : State) : Sound true pts fr s (firstFault c g m s) := by
  unfold firstFault
  refine (queuePosition_sound _).after (Sound.after (.ite (fun _ => jacksOff_sound _) (fun _ => .refl _)) ?_)
  refine Sound.after (.setOs _ _) ((orderLeaves_sound _).after ((faultClaims_sound _).after ?_))
  refine (failOrders_sound _).after ((report_sound _ _ _ _ _).after ?_)
  refine sound_enter (st := .fault) ?_ (fun _ => ?_) (fun _ => ?_) ⟨rfl, rfl⟩ rfl rfl
  · rfl
  · rfl
  · exact ⟨.released, rfl⟩

theorem furtherFault_sound (c : FaultCode) (s : State) : Sound true pts fr s (furtherFault c s) := by
  unfold furtherFault
  refine Sound.after (.ite (fun _ => jacksOff_sound _) (fun _ => .refl _)) ((report_sound _ _ _ _ _).after ?_)
  exact .setCs s _ rfl rfl rfl rfl

theorem raiseFaultAt_sound (c : FaultCode) (g : Seg) (m : Mm) (s : State) : Sound true pts fr s (raiseFaultAt c g m s) :=
  .ite (fun _ => furtherFault_sound c s) (fun _ => firstFault_sound c g m s)

theorem raiseFault_sound (c : FaultCode) (s : State) : Sound true pts fr s (raiseFault c s) := raiseFaultAt_sound ..

theorem raiseClash_sound (r : Addr) (g : Seg) (s : State) : Sound true pts fr s (raiseClash r g s) := by
  unfold raiseClash
  refine .ite (fun _ => .refl s) (fun _ => (queueClaim_sound _ _ _ _).after ((raiseFaultAt_sound _ _ _ _).after ?_))
  exact .setCe s _ le_rfl

theorem forgetFault_sound (s : State) : Sound true pts fr s (forgetFault s) := by
  unfold forgetFault
  exact Sound.after (.setCe _ _ le_rfl) (.setCs s _ rfl rfl rfl rfl)

theorem makeStanding_sound (s : State) : Sound true pts fr s (makeStanding s) := by
  unfold makeStanding
  exact .ite (fun _ => (queueClaim_sound _ _ _ _).after (setOwn_sound (by simp))) (fun _ => .refl s)

theorem enterParked_sound (s : State) : Sound true pts fr s (enterParked s) := (makeStanding_sound s).trans (enterState_sound _ _)

theorem enterUnlocated_sound (s : State) : Sound true pts fr s (enterUnlocated s) := by
  unfold enterUnlocated
  exact (enterState_sound _ _).after (Sound.after (.setOs _ _) (Sound.after (.setPu _ _) (releaseOwn_sound _ s)))

theorem inputFaults_sound (s : State) : Sound true pts fr s (inputFaults s) := by
  unfold inputFaults
  refine Sound.after (.ite (fun _ => raiseFault_sound _ _) (fun _ => .refl _)) ?_
  exact .ite (fun _ => raiseFault_sound _ s) (fun _ => .refl s)

theorem testTrigger_sound (s : State) : Sound true pts fr s (testTrigger s) := .ite (fun _ => .setCe _ _ le_rfl) (fun _ => .refl s)

theorem overrunTest_sound (s : State) : Sound true pts fr s (overrunTest s) := by
  unfold overrunTest
  split
  · exact .ite (fun _ => raiseFault_sound _ s) (fun _ => .refl s)
  · exact .refl s

/-! ## The life of an order -/

theorem padWatch_sound (s : State) : Sound true pts fr s (padWatch s) := by
  unfold padWatch
  split
  · split
    · exact .ite (fun _ => raiseFault_sound _ s) (fun _ => .refl s)
    · exact .refl s
  · exact .refl s

theorem leaveUndocking_sound (s : State) : Sound true pts fr s (leaveUndocking s) := by
  unfold leaveUndocking
  refine .ite (fun _ => (enterState_sound _ _).after (jacksOff_sound s)) (fun _ => (testTrigger_sound _).after ?_)
  exact (enterState_sound _ _).after (jacksOff_sound s)

theorem startUndocking_sound (s : State) : Sound true pts fr s (startUndocking s) := by
  unfold startUndocking
  refine Sound.after (.ite (fun _ => leaveUndocking_sound _) (fun _ => .refl _)) ((queueClaim_sound _ _ _ _).after ?_)
  refine Sound.after (.ite (fun _ => .refl _) (fun _ => setOwn_sound (by simp))) ((enterState_sound _ _).after ?_)
  exact .setDs s _

/-- The tied list is the old one, in another order. -/
theorem tieOwn_length_le (l : Leg) (rear : Option Rear) (d : Option Seg) (own : List OwnClaim) :
    (tieOwn l rear d own).length ≤ own.length := by
  have parts (p q : OwnClaim → Bool) (xs : List OwnClaim) :
      (xs.filter (fun e => p e && !q e)).length + (xs.filter (fun e => p e && q e)).length +
        (xs.filter (fun e => !p e)).length = xs.length := by
    induction xs with
    | nil => rfl
    | cons x xs ih => cases hp : p x <;> cases hq : q x <;> simp [hp, hq] <;> omega
  have h := parts (fun e => decide (e.leg = .rear)) (fun e => rear.any (fun r => decide (r.seg = e.seg)))
    (own.map (tieEntry l rear d))
  simp only [tieOwn, List.length_append]
  simpa using h.le

theorem beginOrder_sound (o : OrderRec) (s : State) : Sound true pts fr s (beginOrder o s) := by
  unfold beginOrder
  split
  · refine (testTrigger_sound _).after ((overrunTest_sound _).after ((padWatch_sound _).after ?_))
    refine Sound.after (.ite (fun _ => startUndocking_sound _) (fun _ => enterState_sound _ _)) ?_
    refine Sound.after (.ite (fun _ => queueClaim_sound _ _ _ _) (fun _ => .refl _)) ?_
    refine (setOwn_sound (tieOwn_length_le _ _ _ _)).after ((resetAttempts_sound _).after ?_)
    exact Sound.after (.setCe _ _ le_rfl) (Sound.after (.setOs _ _) (.setPu s _))
  · exact .refl s

theorem startActive_sound (n : Nat) (s : State) : Sound true pts fr s (startActive n s) := by
  induction n generalizing s with
  | zero => exact .refl s
  | succ n ih =>
    unfold startActive
    split
    · exact .refl s
    · refine .ite (fun _ => beginOrder_sound _ s) (fun _ => ?_)
      dsimp only
      split
      · exact Sound.after (.setOs _ _) (report_sound ..)
      · exact (ih _).after (Sound.after (.setOs _ _) (report_sound ..))

theorem promote_sound (s : State) : Sound true pts fr s (promote s) := by
  unfold promote
  split
  · exact .refl s
  · exact Sound.after (.ite (fun _ => startActive_sound _ _) (fun _ => .refl _)) (.setOs s _)

theorem endOrder_sound (o : ReportOutcome) (r p : Bool) (s : State) : Sound true pts fr s (endOrder o r p s) := by
  unfold endOrder
  split
  · exact .refl s
  · refine (promote_sound _).after (Sound.after (.ite (fun _ => releaseOwn_sound _ _) (fun _ => .refl _)) ?_)
    refine Sound.after (.ite (fun _ => enterParked_sound _) (fun _ => enterState_sound _ _)) ?_
    exact (orderLeaves_sound _).after (report_sound ..)

theorem dockDone_sound (s : State) : Sound true pts fr s (dockDone s) := (jacksOff_sound s).trans (endOrder_sound ..)

theorem startDocking_sound (s : State) : Sound true pts fr s (startDocking s) := by
  unfold startDocking
  exact Sound.after (.ite (fun _ => dockDone_sound _) (fun _ => .refl _)) ((enterState_sound _ _).after (.setDs s _))

theorem undockDone_sound (s : State) : Sound true pts fr s (undockDone s) :=
  .ite (fun _ => (jacksOff_sound s).trans (endOrder_sound ..)) (fun _ => leaveUndocking_sound s)

theorem alignmentCheck_sound (s : State) : Sound true pts fr s (alignmentCheck s) := by
  unfold alignmentCheck
  split
  · exact .ite (fun _ => .ite (fun _ => startDocking_sound s) (fun _ => endOrder_sound ..)) (fun _ => endOrder_sound ..)
  · exact .refl s

theorem restEvent_sound (s : State) : Sound true pts fr s (restEvent s) := by
  have hrest : Sound true pts fr s (s.setEu { s.eu with rest := true }) := .setEu s _ rfl rfl fun _ => rfl
  unfold restEvent
  dsimp only
  split
  · exact hrest
  · split
    · exact (endOrder_sound _ _ _ _).after hrest
    · exact (endOrder_sound _ _ _ _).after hrest
    · exact (endOrder_sound _ _ _ _).after hrest
    · exact (endOrder_sound _ _ _ _).after hrest
    · refine .ite (fun _ => (alignmentCheck_sound _).after hrest) (fun _ => ?_)
      refine .ite (fun _ => (endOrder_sound _ _ _ _).after hrest) (fun _ => ?_)
      refine .ite (fun _ => ?_) (fun _ => hrest)
      exact .ite (fun _ => (raiseFault_sound _ _).after hrest) (fun _ => (endOrder_sound _ _ _ _).after hrest)
    · exact hrest

theorem routeBlocked_sound (s : State) : Sound true pts fr s (routeBlocked s) := by
  unfold routeBlocked
  split
  · exact .refl s
  · exact Sound.after (.ite (fun _ => restEvent_sound _) (fun _ => .refl _)) (.setOs s _)

theorem countAttempt_sound (r : AbortReason) (n : Nat) (s : State) : Sound true pts fr s (countAttempt r n s) := by
  unfold countAttempt
  exact Sound.after (.ite (fun _ => .setCe _ _ le_rfl) (fun _ => routeBlocked_sound _)) (.setCe s _ le_rfl)

theorem spanAbort_sound (r : AbortReason) (g : Seg) (v : Addr) (s : State) : Sound true pts fr s (spanAbort r g v s) := by
  unfold spanAbort
  refine .ite (fun _ => .refl s) (fun _ => (testTrigger_sound _).after ((overrunTest_sound _).after ?_))
  exact Sound.after (.ite (fun _ => countAttempt_sound _ _ _) (fun _ => .refl _)) (abortSpan_sound ..)

end Sys2Proof.Machine
end

section
/-! What every command keeps of the two queues, the tables and the Envelope Unit: the commands, one by one, in the order of the
model's files. -/

namespace Sys2Proof.Machine

open Sys2Proof

variable {car pts : Bool} {fr : Freed}

/-! ## Locations and the latch -/

theorem locatedClaims_length_le (h : HeldLoc) : (locatedClaims h).length ≤ 2 := by
  unfold locatedClaims
  extract_lets head tail mk
  split
  · exact Nat.le_succ 1
  · split
    · exact Nat.le_succ 1
    · exact le_rfl

/-- The own claims replaced by ones for which there is room. -/
theorem setOwn_sound_of_room {own : List OwnClaim} {s : State} (h : own.length ≤ Config.ownCap) :
    Sound true pts fr s (setOwn own s) := by
  have hset : Sound true pts fr s (s.setCe { s.ce with own := own }) := by
    refine .ofCarriage id (fun htab => ?_) (fun _ => ⟨rfl, rfl⟩) (fun _ _ => rfl) (fun _ => rfl) rfl
    obtain ⟨hclaims, hpoints, hpos, -, hrest⟩ := htab
    exact ⟨hclaims, hpoints, hpos, h, hrest⟩
  have hlist : Sound true pts fr s (refirm (s.setCe { s.ce with own := own })) := Sound.after (.setCe _ _ le_rfl) hset
  exact .ite (fun _ => (queuePosition_sound _).after hlist) (fun _ => hlist)

theorem takeLocation_sound (h : HeldLoc) (s : State) : Sound true pts fr s (takeLocation h s) := by
  unfold takeLocation
  have hroom : (locatedClaims h).length ≤ Config.ownCap := (locatedClaims_length_le h).trans (by decide)
  refine (inputFaults_sound _).after (Sound.after (.foldl _ _ _ fun t e => ?_) ?_)
  · exact .foldl _ _ _ fun u c => raiseClash_sound _ _ _
  · exact (enterState_sound _ _).after ((queueClaim_sound _ _ _ _).after ((setOwn_sound_of_room hroom).after (.setPu s _)))

theorem tryLocate_sound (s : State) : Sound true pts fr s (tryLocate s) := by
  unfold tryLocate
  split
  · exact .refl s
  · exact .ite (fun _ => takeLocation_sound _ s) (fun _ => .refl s)

theorem setLatch_sound (src : Addr) (r : HaltReason) (s : State) : Sound true pts fr s (setLatch src r s) := by
  unfold setLatch
  refine .ite (fun _ => .refl s) (fun hclear => (spanAbort_sound _ _ _ _).after ?_)
  refine Sound.after (.ite (fun _ => enterState_sound _ _) (fun _ => .refl _)) (.setCs_freed s _ rfl (fun _ => ⟨rfl, rfl⟩) ?_)
  exact fun _ hset => absurd hset hclear

/-! ## The points node -/

theorem queuePoints_sound (s : State) : Sound car pts fr s (queuePoints s) := offer_sound ..

theorem noticeIfChanged_sound (s t : State) : Sound car pts fr t (noticeIfChanged s t) :=
  .ite (fun _ => .refl t) (fun _ => queuePoints_sound t)

theorem answer_sound (x : Addr) (c : AnswerCode) (s : State) : Sound car true fr s (answer x c s) :=
  (queuePoints_sound _).after (.setPa s _ rfl rfl rfl id)

theorem raisePoints_sound (c : FaultCode) (s : State) : Sound car true fr s (raisePoints c s) :=
  (report_sound _ _ _ _ _).after (.setPa s _ rfl rfl rfl id)

theorem pointsFail_sound (s : State) : Sound car true fr s (pointsFail s) :=
  Sound.after (.setPa _ _ rfl rfl rfl fun _ => Nat.zero_le _) (.setTs s _)

theorem lockAt_sound (p : PointsPos) (s : State) : Sound car true fr s (lockAt p s) := .setTs s _

theorem serve_sound (s : State) : Sound car true fr s (serve s) := by
  unfold serve
  split
  case h_1 h rest at' hqueue _ =>
    refine .ite (fun _ => .ite (fun _ => .setPa s _ rfl rfl rfl fun hcap => ?_) (fun _ => ?_)) (fun _ => .refl s)
    · rw [hqueue] at hcap
      exact (Nat.le_succ _).trans hcap
    · exact .ite (fun _ => .setTs s _) (fun _ => .refl s)
  case h_2 => exact .refl s

theorem serveAfter_sound (s t : State) : Sound car true fr t (serveAfter s t) := (serve_sound t).trans (noticeIfChanged_sound _ _)

theorem storeSegClaim_sound (x : Addr) (p : Ms) (st : ClaimState) (s : State) : Sound car true fr s (storeSegClaim x p st s) := by
  unfold storeSegClaim
  refine .ite (fun _ => .setSv s _ fun h => ?_) (fun _ => .ite (fun hroom => .setSv s _ fun _ => ?_) (fun _ => .setSv s _ id))
  · rwa [List.length_map]
  · simpa using hroom

theorem dropSegClaim_sound (x : Addr) (s : State) : Sound car true fr s (dropSegClaim x s) :=
  .setSv s _ (List.length_filter_le _ _).trans

theorem followView_sound (s : State) : Sound car true fr s (followView s) := .setPa s _ rfl rfl rfl (List.length_filter_le _ _).trans

theorem afterView_sound (s t : State) : Sound car true fr t (afterView s t) :=
  .ite (fun _ => noticeIfChanged_sound s t) (fun _ => (serveAfter_sound _ _).after (followView_sound t))

theorem freeGrant_sound (s : State) : Sound car true fr s (freeGrant s) :=
  (serveAfter_sound _ _).after ((queuePoints_sound _).after (.setPa s _ rfl rfl rfl id))

theorem dropAsk_sound (x : Addr) (s : State) : Sound car true fr s (dropAsk x s) := .setPa s _ rfl rfl rfl (List.length_filter_le _ _).trans

theorem withdrawClaim_sound (x : Addr) (s : State) : Sound car true fr s (withdrawClaim x s) := by
  unfold withdrawClaim
  exact .ite (fun _ => (freeGrant_sound _).after ((dropAsk_sound _ _).after (dropSegClaim_sound x s)))
    (fun _ => (afterView_sound _ _).after (dropSegClaim_sound x s))

theorem setUnavail_sound (p : PointsPos) (s : State) : Sound car true fr s (setUnavail p s) := by
  cases p <;> exact .setPa s _ rfl rfl rfl id

theorem refuseQueued_sound (p : PointsPos) (x : Addr) (s : State) : Sound car true fr s (refuseQueued p x s) :=
  (answer_sound _ _ _).after (.setPa s _ rfl rfl rfl (List.length_filter_le _ _).trans)

theorem lockServed_sound (s : State) : Sound car true fr s (lockServed s) := (queuePoints_sound _).after (serve_sound s)

theorem recoverPrevious_sound (s : State) : Sound car true fr s (recoverPrevious s) := by
  have hlocked : Sound car true fr s (setUnavail s.ts.target (lockAt s.ts.previous s)) :=
    (setUnavail_sound _ _).after (lockAt_sound _ s)
  unfold recoverPrevious
  refine .ite (fun _ => (lockServed_sound _).after hlocked) (fun _ => (serveAfter_sound _ _).after (Sound.after ?_ hlocked))
  exact .foldl _ _ _ fun _ _ => refuseQueued_sound _ _ _

theorem lockArrives_sound (s t : State) : Sound car true fr t (lockArrives s t) := by
  have hlock (p : PointsPos) : Sound car true fr t (lockServed (lockAt p t)) := (lockServed_sound _).after (lockAt_sound p t)
  unfold lockArrives
  split
  · exact .ite (fun _ => hlock _) (fun _ => noticeIfChanged_sound s t)
  · exact .ite (fun _ => recoverPrevious_sound t) (fun _ => .ite (fun _ => hlock _) (fun _ => noticeIfChanged_sound s t))
  · exact noticeIfChanged_sound s t

/-! ## Arrivals -/

/-- The operation may touch the blocks of the station's own personality. -/
def Fits (car pts : Bool) (s : State) : Prop :=
  (s.tli.kind = .carriage → car = true) ∧ (s.tli.kind = .points → pts = true)

theorem Fits.after {s t : State} (h : Fits car pts s) (k : Sound car pts fr s t) : Fits car pts t := by
  unfold Fits
  rw [k.kind]
  exact h

theorem setWatcher_sound (w : Option Watcher) {s : State} (h : Fits car pts s) : Sound car pts fr s (setWatcher w s) := by
  unfold setWatcher
  split
  case h_1 hkind =>
    obtain rfl := h.1 hkind
    exact .setCs s _ rfl rfl rfl rfl
  case h_2 hkind =>
    obtain rfl := h.2 hkind
    exact .setPa s _ rfl rfl rfl id

theorem watch_sound (src : Addr) (f : Seen) {s : State} (h : Fits car pts s) : Sound car pts fr s (watch src f s) :=
  setWatcher_sound _ h

theorem startListen_sound {s : State} (h : Fits car pts s) : Sound car pts fr s (startListen s) := by
  unfold startListen
  split
  case h_1 hkind =>
    obtain rfl := h.1 hkind
    exact .setOv s _ id id id
  case h_2 hkind =>
    obtain rfl := h.2 hkind
    exact .setSv s _ id

theorem heard_sound {s : State} (h : Fits car pts s) : Sound car pts fr s (heard s) := by
  have hline : Sound car pts fr s (s.setTli { s.tli with silence := 0, silent := false, idle := false }) := .setTli s _ rfl rfl id
  unfold heard
  exact .ite (fun _ => (startListen_sound (h.after hline)).after hline) (fun _ => hline)

theorem addressClash_sound {s : State} (h : Fits car pts s) : Sound car pts fr s (addressClash s) := by
  unfold addressClash
  extract_lets line s1 engine s2 unit s3 node s4
  have hline : Sound car pts fr s s1 := .setTli s _ rfl rfl fun h => h.of_txq (Nat.zero_le _) rfl rfl
  have hquiet : Sound car pts fr s s4 :=
    Sound.after (.setCountdown _ _) (Sound.after (.setPeriod _ _) (Sound.after (.setRefresh _ _ _) hline))
  split
  case h_1 hkind =>
    obtain rfl := h.1 hkind
    exact (raiseFault_sound _ _).after hquiet
  case h_2 hkind =>
    obtain rfl := h.2 hkind
    exact (raisePoints_sound _ _).after ((pointsFail_sound _).after hquiet)

theorem hear_sound (v : Bool) (src : Addr) (f : Seen) (act : State → State) {s : State} (h : Fits car pts s)
    (hact : ∀ t, Fits car pts t → Sound car pts fr t (act t)) : Sound car pts fr s (hear v src f act s) := by
  have hheard : Sound car pts fr s (watch src f (heard s)) :=
    (watch_sound _ _ (h.after (heard_sound (fr := fr) h))).after (heard_sound h)
  have hclash : Sound car pts fr s (if src = s.tli.addr then addressClash (watch src f (heard s)) else watch src f (heard s)) :=
    .ite (fun _ => (addressClash_sound (h.after hheard)).after hheard) (fun _ => hheard)
  unfold hear
  exact .ite (fun _ => countMalformed_sound s) (fun _ => (hact _ (h.after hclash)).after hclash)

theorem toView_sound (src : Addr) (act : State → State) (s : State) (h : ∀ t, Sound car pts fr t (act t)) :
    Sound car pts fr s (toView src act s) := .ite (fun _ => .refl s) (fun _ => h s)

theorem onKind_carriage_sound (act : State → State) {s : State} (hs : Fits car pts s)
    (h : ∀ t, Sound true pts fr t (act t)) : Sound car pts fr s (onKind .carriage act s) := by
  refine .ite (fun hkind => ?_) (fun _ => .refl s)
  obtain rfl := hs.1 hkind
  exact h s

theorem onKind_points_sound (act : State → State) {s : State} (hs : Fits car pts s)
    (h : ∀ t, Sound car true fr t (act t)) : Sound car pts fr s (onKind .points act s) := by
  refine .ite (fun hkind => ?_) (fun _ => .refl s)
  obtain rfl := hs.2 hkind
  exact h s

theorem arrive_sound (src : Addr) (req : Request) {s : State} (h : Fits car pts s) : Sound car pts fr s (arrive src req s) := by
  refine hear_sound _ _ _ _ h fun t _ => .ite (fun _ => countMalformed_sound t) (fun _ => ?_)
  refine .ite (fun hroom => .setTli t _ rfl rfl fun h => ?_) (fun _ => countOverflow_sound t)
  obtain ⟨htx, -, hcounts⟩ := h
  exact ⟨htx, by simpa using hroom, hcounts⟩

theorem deliver_sound (src : Addr) (req : Request) (act : State → State) {s : State} (h : Fits car pts s)
    (hact : ∀ t, Fits car pts t → Sound car pts fr t (act t)) : Sound car pts fr s (deliver src req act s) := by
  unfold deliver
  extract_lets t
  have harrived : Sound car pts fr s t := .ite (fun _ => arrive_sound _ _ h) (fun _ => .refl s)
  have htaken : Sound car pts fr s (t.setTli { t.tli with inbound := t.tli.inbound.tail }) := by
    refine Sound.after (.setTli _ _ rfl rfl fun hok => ?_) harrived
    obtain ⟨htx, hin, hcounts⟩ := hok
    exact ⟨htx, (List.length_tail.trans_le (Nat.sub_le _ _)).trans hin, hcounts⟩
  exact .ite (fun _ => (hact _ (h.after htaken)).after htaken) (fun _ => harrived)

theorem resetTli_ok {t : Tli} (h : TliOk t) : TliOk (resetTli t) := by
  refine ⟨?_, Nat.zero_le _, Nat.zero_le _, Nat.zero_le _, Nat.zero_le _, Nat.zero_le _⟩
  simpa [resetTli] using (List.length_filter_le _ _).trans h.1

theorem resetReport_sound (b : Block) (s : State) : Sound car pts fr s (resetReport b s) := by
  have hline : Sound car pts fr s (s.setTli (resetTli s.tli)) := .setTli s _ rfl rfl resetTli_ok
  unfold resetReport
  dsimp only
  split
  · exact hline
  · exact (offer_sound _ _ _ _ _).after hline

/-! ## The points node's commands -/

theorem takePointsCommission_sound (src : Addr) (r : PointsComm) (s : State) : Sound car true .pointsCommission s (takePointsCommission src r s) := by
  unfold takePointsCommission
  refine .ite (fun _ => report_sound ..) (fun _ => (queuePoints_sound _).after ((report_sound _ _ _ _ _).after ?_))
  exact Sound.after (.setSv _ _ id) (.setPa_freed s _ id (fun h => absurd rfl h) fun _ => id)

theorem queueAsk_sound (e : AskEntry) (s : State)
    (h : s.pa.queue.any (fun q => decide (q.requester = e.requester)) = true ∨ s.pa.queue.length < Config.askCap) :
    Sound car true fr s (queueAsk e s) := by
  unfold queueAsk
  refine .ite (fun _ => .setPa s _ rfl rfl rfl fun hcap => ?_) (fun hnew => .setPa s _ rfl rfl rfl fun _ => ?_)
  · simpa using hcap
  · simpa using h.resolve_left hnew

/-- An ask answered QUEUED has a place in the queue (R87). -/
theorem room_of_askAnswer {x : Addr} {pos : PointsPos} {s : State} (h : askAnswer x pos s = some .queued) :
    s.pa.queue.any (fun q => decide (q.requester = x)) = true ∨ s.pa.queue.length < Config.askCap := by
  unfold askAnswer at h
  split at h
  · simp at h
  · split at h
    · simp at h
    · split at h
      · simp at h
      · split at h
        · simp at h
        · split at h
          case isTrue hroom => exact hroom
          case isFalse => simp at h

theorem answerAsk_sound (x : Addr) (pos : PointsPos) (cls oid : Nat) (s : State) : Sound car true fr s (answerAsk x pos cls oid s) := by
  unfold answerAsk
  split
  case h_1 => exact .setPa s _ rfl rfl rfl id
  case h_2 c hanswer =>
    refine (serveAfter_sound _ _).after ((answer_sound _ _ _).after (.ite (fun hqueued => ?_) (fun _ => dropAsk_sound x s)))
    exact queueAsk_sound _ s (room_of_askAnswer (hqueued ▸ hanswer))

theorem takeAsk_sound (x : Addr) (pos : PointsPos) (cls oid : Nat) (s : State) : Sound car true fr s (takeAsk x pos cls oid s) :=
  (answerAsk_sound _ _ _ _ _).after (.ite (fun _ => freeGrant_sound s) (fun _ => .refl s))

theorem takeFree_sound (x : Addr) (s : State) : Sound car true fr s (takeFree x s) :=
  .ite (fun _ => freeGrant_sound s)
    (fun _ => .ite (fun _ => (serveAfter_sound _ _).after (dropAsk_sound x s)) (fun _ => .refl s))

theorem applySegClaims_sound (src : Addr) (p : Ms) (items : List ClaimItem) (s : State) :
    Sound car true fr s (applySegClaims src p items s) := by
  unfold applySegClaims
  split
  · exact .refl s
  · exact .foldl _ _ _ fun _ _ => storeSegClaim_sound _ _ _ _

theorem ageOutSeg_sound (h : Addr) (s : State) : Sound car true fr s (ageOutSeg h s) :=
  .setSv s _ fun hcap => by simpa [ageOutSeg] using (List.length_filter_le _ _).trans hcap

theorem lockLost_sound (s : State) : Sound car true fr s (lockLost s) :=
  (queuePoints_sound _).after ((raisePoints_sound _ _).after (pointsFail_sound s))

theorem clearMarks_sound (s : State) : Sound car true fr s (clearMarks s) := .setPa s _ rfl rfl rfl id

theorem takePointsClear_sound (s : State) : Sound car true fr s (takePointsClear s) := by
  unfold takePointsClear
  dsimp only
  split
  · exact report_sound ..
  · split
    · exact (report_sound _ _ _ _ _).after (clearMarks_sound s)
    · split
      · exact report_sound ..
      · exact (serveAfter_sound _ _).after ((report_sound _ _ _ _ _).after
          (Sound.after (.setPa _ _ rfl rfl rfl id) ((clearMarks_sound _).after (lockAt_sound _ s))))

theorem relock_sound (s : State) : Sound car true fr s (relock s) := by
  unfold relock
  exact .ite (fun _ => Sound.after (.setPa _ _ rfl rfl rfl id) (.setTs s _)) (fun _ => .refl s)

theorem pointsReset_sound (s : State) : Sound car true fr s (pointsReset s) := by
  unfold pointsReset
  refine (queuePoints_sound _).after ((relock_sound _).after (Sound.after (.setPa _ _ rfl rfl rfl fun _ => Nat.zero_le _) ?_))
  exact Sound.after (.setSv _ _ fun _ => Nat.zero_le _) (resetReport_sound _ s)

theorem takePointsReset_sound (s : State) : Sound car true fr s (takePointsReset s) :=
  .ite (fun _ => report_sound ..) (fun _ => pointsReset_sound s)

/-! ## The Occupancy View -/

theorem keepClaims_sound (keep : ClaimEntry → Bool) (s : State) : Sound true pts fr s (keepClaims keep s) :=
  .setOv s _ (List.length_filter_le _ _).trans id id

theorem viewWith_claims_le (src : Addr) (cls : Nat) (p : Ms) (v : OccView) (i : ClaimItem)
    (h : v.claims.length ≤ Config.claimCap) : (viewWith src cls p v i).claims.length ≤ Config.claimCap := by
  unfold viewWith
  dsimp only
  split
  · simpa using h
  · split
    case isTrue hroom => exact List.length_append.trans_le hroom
    case isFalse => exact h

theorem applyClaimItem_sound (src : Addr) (cls : Nat) (p : Ms) (i : ClaimItem) (s : State) :
    Sound true pts fr s (applyClaimItem src cls p i s) := by
  have htabs : (viewWith src cls p s.ov i).pointsTab = s.ov.pointsTab ∧
      (viewWith src cls p s.ov i).posTab = s.ov.posTab := by
    unfold viewWith
    dsimp only
    split
    · exact ⟨rfl, rfl⟩
    · split <;> exact ⟨rfl, rfl⟩
  rw [applyClaimItem_eq]
  refine .setOv s _ (viewWith_claims_le src cls p s.ov i) ?_ ?_
  · rw [htabs.1]; exact id
  · rw [htabs.2]; exact id

theorem clearHolder_sound (src h : Addr) {s : State} (hs : Fits car pts s) : Sound car pts fr s (clearHolder src h s) := by
  unfold clearHolder
  split
  case h_1 hkind =>
    obtain rfl := hs.1 hkind
    exact toView_sound _ _ _ fun t => keepClaims_sound _ t
  case h_2 hkind =>
    obtain rfl := hs.2 hkind
    exact withdrawClaim_sound h s

/-- One entry that gives way makes room for one. -/
theorem length_replace_le {α : Type} {l : List α} {p : α → Bool} {a b : α} (ha : a ∈ l) (hp : p a = false) :
    (l.filter p ++ [b]).length ≤ l.length := by
  have h : (l.filter p).length < l.length :=
    List.length_filter_lt_length_iff_exists.mpr ⟨a, ha, by simp [hp]⟩
  simpa using h

theorem evictPick_mem {s : State} {l : List PosEntry} {v : PosEntry} (h : evictPick s l = some v) : v ∈ l := by
  induction l generalizing v with
  | nil => simp [evictPick] at h
  | cons e rest ih =>
    unfold evictPick at h
    split at h
    case h_1 => simp_all
    case h_2 f hf =>
      split at h
      · simp_all
      · obtain rfl := Option.some.inj h
        exact List.mem_cons_of_mem _ (ih hf)

theorem applyPosition_sound (src : Addr) (n : PositionNotice) (s : State) : Sound true pts fr s (applyPosition src n s) := by
  unfold applyPosition
  refine .ite (fun _ => .setOv s _ id id (List.length_filter_le _ _).trans) (fun _ => .ite (fun _ => ?_) (fun _ => ?_))
  · exact .setOv s _ id id (by simp)
  · refine .ite (fun hroom => .setOv s _ id id fun _ => by simpa using hroom) (fun _ => ?_)
    dsimp only
    split
    case h_1 => exact .refl s
    case h_2 v hpick =>
      refine .ite (fun _ => .refl s) (fun _ => .setOv s _ id id (le_trans (length_replace_le (a := v) ?_ ?_)))
      · exact (List.mem_filter.mp (evictPick_mem hpick)).1
      · simp

theorem pointsVictim_mem {s : State} {l : List PointsEntry} {v : PointsEntry} (h : pointsVictim s l = some v) : v ∈ l := by
  induction l generalizing v with
  | nil => simp [pointsVictim] at h
  | cons e rest ih =>
    unfold pointsVictim at h
    dsimp only at h
    split at h
    · exact List.mem_cons_of_mem _ (ih h)
    · split at h
      case h_1 => simp_all
      case h_2 f hf =>
        split at h
        · simp_all
        · obtain rfl := Option.some.inj h
          exact List.mem_cons_of_mem _ (ih hf)

theorem storePoints_sound (e : PointsEntry) (s : State) : Sound true pts fr s (storePoints e s) := by
  unfold storePoints
  refine .ite (fun _ => .setOv s _ id (by simp) id) (fun _ => .ite (fun hroom => ?_) (fun _ => ?_))
  · exact .setOv s _ id (fun _ => by simpa using hroom) id
  · split
    case h_1 => exact .refl s
    case h_2 v hpick =>
      exact .setOv s _ id (le_trans (length_replace_le (pointsVictim_mem hpick) (by simp))) id

/-! ## The Claim Engine -/

theorem attemptAt_sound (k : Nat) (s : State) : Sound true pts fr s (attemptAt k s) :=
  .ite (fun _ => .refl s) (fun _ => .setCe s _ le_rfl)

theorem queueAsks_sound (cls oid : Nat) (legs : List Leg) (s : State) : Sound car pts fr s (queueAsks cls oid legs s) := by
  refine .foldl _ _ _ fun t l => ?_
  split
  · exact .refl t
  · exact offer_sound ..

theorem spanEntries_length (k : Nat) (legs : List Leg) : (spanEntries k legs).length = legs.length := by
  induction legs generalizing k with
  | nil => rfl
  | cons l rest ih => simp [spanEntries, ih]

theorem chooseSpan_length_le (a : ActiveOrder) (limit : Nat) (s : State) :
    (chooseSpan a limit s).length ≤ min Config.spanMax (min limit (Config.ownCap - s.ce.own.length)) :=
  (List.takeWhile_prefix _).length_le.trans (List.length_take_le _ _)

/-- An announced span's entries have room in the own list. -/
theorem announce_sound (a : ActiveOrder) (legs : List Leg) (s : State)
    (h : legs.length ≤ Config.ownCap - s.ce.own.length) : Sound true pts fr s (announce a legs s) := by
  unfold announce
  refine (overrunTest_sound _).after ((queueAsks_sound _ _ _ _).after ((queueClaim_sound _ _ _ _).after ?_))
  have hspan (v : ClaimEngine) (hv : v.own = s.ce.own) :
      Sound true pts fr s (setOwn (v.own ++ spanEntries a.nextClaim legs) (s.setCe v)) := by
    have hset : Sound true pts fr s (s.setCe v) := .setCe s v (by rw [hv])
    by_cases hcap : s.ce.own.length ≤ Config.ownCap
    · refine Sound.after (setOwn_sound_of_room ?_) hset
      rw [List.length_append, spanEntries_length, hv]
      omega
    · have hnone : legs = [] := List.eq_nil_of_length_eq_zero (by omega)
      exact Sound.after (setOwn_sound (by simp [hnone, spanEntries])) hset
  exact (setNextClaim_sound _ _).after (hspan _ rfl)

theorem abortAtCheck_sound (r : AbortReason) (g : Seg) (v : Addr) (n : Nat) (s : State) :
    Sound true pts fr s (abortAtCheck r g v n s) := by
  unfold abortAtCheck
  exact (testTrigger_sound _).after ((countAttempt_sound _ _ _).after ((recordAbort_sound _ _ _ _ _).after (.setCe s _ le_rfl)))

theorem openSpan_sound (a : ActiveOrder) (s : State) : Sound true pts fr s (openSpan a s) := by
  unfold openSpan
  dsimp only
  refine .ite (fun _ => (abortAtCheck_sound _ _ _ _ _).after (attemptAt_sound _ s)) (fun _ => ?_)
  split
  · exact (abortAtCheck_sound _ _ _ _ _).after (attemptAt_sound _ s)
  · refine Sound.after (announce_sound _ _ _ ?_) (attemptAt_sound _ s)
    exact (chooseSpan_length_le _ _ _).trans ((min_le_right _ _).trans (min_le_right _ _))

theorem commit_sound (sp : Span) (s : State) : Sound true pts fr s (commit sp s) := by
  unfold commit
  refine (testTrigger_sound _).after ((overrunTest_sound _).after ((queueClaim_sound _ _ _ _).after ?_))
  exact Sound.after (setOwn_sound (by simp)) (Sound.after (.setCe _ _ le_rfl) (.setTli s _ rfl rfl untagAsks_ok))

theorem askTable_sound (sp : Span) (s : State) : Sound true pts fr s (askTable sp s) := .setCe s _ (by simp [mapPoints])

theorem queueObject_sound (y : Addr) (g : Seg) (st : ClaimState) (s : State) : Sound car pts fr s (queueObject y g st s) :=
  .ite (fun _ => .refl s) (fun _ => offer_sound ..)

theorem examineSpan_sound (src : Addr) (cls : Nat) (i : ClaimItem) (s : State) : Sound true pts fr s (examineSpan src cls i s) := by
  unfold examineSpan
  split
  · exact .ite (fun _ => .refl s) (fun _ => .ite (fun _ => spanAbort_sound ..)
      (fun _ => .ite (fun _ => spanAbort_sound ..) (fun _ => .refl s)))
  · exact .refl s

theorem examineHeld_sound (src : Addr) (cls : Nat) (i : ClaimItem) (s : State) : Sound true pts fr s (examineHeld src cls i s) := by
  unfold examineHeld
  split
  · exact .refl s
  · refine .ite (fun _ => .refl s) (fun _ => .ite (fun _ => ?_) (fun _ => ?_))
    · exact .ite (fun _ => raiseClash_sound ..) (fun _ => .refl s)
    · exact .ite (fun _ => queueObject_sound ..) (fun _ => .ite (fun _ => queueObject_sound ..) (fun _ => .refl s))

theorem examineItem_sound (src : Addr) (cls : Nat) (i : ClaimItem) (s : State) : Sound true pts fr s (examineItem src cls i s) :=
  (examineHeld_sound _ _ _ _).after (examineSpan_sound src cls i s)

theorem countPullBack_sound (j : Nat) (g : Seg) (n : Addr) (s : State) : Sound true pts fr s (countPullBack j g n s) := by
  unfold countPullBack
  split
  · exact .refl s
  · exact .ite (fun _ => recordAbort_sound ..)
      (fun _ => (countAttempt_sound _ _ _).after ((recordAbort_sound _ _ _ _ _).after (attemptAt_sound _ s)))

theorem pullBack_sound (n : Addr) (e : OwnClaim) (j : Nat) (s : State) : Sound true pts fr s (pullBack n e j s) := by
  unfold pullBack
  refine (overrunTest_sound _).after ((countPullBack_sound _ _ _ _).after (Sound.after (.setCe _ _ le_rfl) ?_))
  exact (setNextClaim_sound _ _).after (endSpan_sound _ s)

theorem pointsLost_sound (n : Addr) (g : Seg) (s : State) : Sound true pts fr s (pointsLost n g s) := by
  unfold pointsLost
  exact .ite (fun _ => .refl s) (fun _ => (raiseFaultAt_sound _ _ _ _).after (.setCe s _ le_rfl))

theorem pointsFailed_sound (n : Addr) (s : State) : Sound true pts fr s (pointsFailed n s) := by
  unfold pointsFailed
  extract_lets names s1
  have hheld : Sound true pts fr s s1 := by
    dsimp only [s1]
    split
    · exact pointsLost_sound ..
    · cases names with
      | nil => exact .refl s
      | cons e rest =>
        dsimp only
        split
        · exact pullBack_sound ..
        · exact .refl s
  split
  · exact hheld
  · split
    · exact hheld
    · exact (spanAbort_sound _ _ _ _).after (Sound.after (.setCe _ _ le_rfl) hheld)

theorem answerForSpan_sound (p : Addr × AnswerCode) (e : PointsEntry) (s : State) : Sound true pts fr s (answerForSpan p e s) := by
  unfold answerForSpan
  split
  · exact .refl s
  · dsimp only
    split
    · exact .refl s
    · refine .ite (fun _ => .refl s) (fun _ => .ite (fun _ => spanAbort_sound ..) (fun _ => ?_))
      exact .ite (fun _ => .setCe s _ (by simp [mapPoints])) (fun _ => .refl s)

theorem readGrants_sound (e : PointsEntry) (s : State) : Sound true pts fr s (readGrants e s) := .setCe s _ (by simp [mapPoints])

theorem commitOnNotice_sound (n : Addr) (s : State) : Sound true pts fr s (commitOnNotice n s) := by
  unfold commitOnNotice
  split
  · exact .refl s
  · exact .ite (fun _ => commit_sound _ s) (fun _ => .refl s)

theorem clearFailedHold_sound (n : Addr) (s : State) : Sound true pts fr s (clearFailedHold n s) :=
  .ite (fun _ => (testTrigger_sound _).after (.setCe s _ le_rfl)) (fun _ => .refl s)

theorem takePoints_sound (src : Addr) (n : PointsNotice) (s : State) : Sound true pts fr s (takePoints src n s) := by
  refine Sound.after (.ite (fun _ => pointsFailed_sound _ _) (fun _ => ?_)) (storePoints_sound _ s)
  exact (commitOnNotice_sound _ _).after ((readGrants_sound _ _).after
    ((answerForSpan_sound _ _ _).after (clearFailedHold_sound _ _)))

theorem refreshNow_sound (s : State) : Sound true pts fr s (refreshNow s) := by
  unfold refreshNow
  refine .ite (fun _ => .setCe s _ le_rfl) (fun _ => (settleRefresh_sound _).after (Sound.after (.setCe _ _ le_rfl) ?_))
  exact Sound.after (.foldl _ _ _ fun _ _ => offer_sound ..) (.setCe s _ le_rfl)

/-! ## The Envelope Unit and the Convoy Regulator -/

theorem evaluateLeader_sound (a : ActiveOrder) (r : Route) (s : State) : Sound true pts fr s (evaluateLeader a r s) := by
  unfold evaluateLeader
  split <;> exact .setCr s _

theorem moveDemand_sound (s : State) (h : movingState s.cs.state = true) : Sound true pts fr s (moveDemand s) := by
  unfold moveDemand
  refine (testTrigger_sound _).after (Sound.after (.ite (fun _ => restEvent_sound _) (fun _ => .refl _)) ?_)
  exact .setEu_of_moving s _ h rfl

theorem overspeedTest_sound (s : State) : Sound true pts fr s (overspeedTest s) := by
  unfold overspeedTest
  exact .ite (fun _ => .ite (fun _ => .setEu s _ rfl rfl fun _ => rfl) (fun _ => raiseFault_sound _ s)) (fun _ => .setEu s _ rfl rfl fun _ => rfl)

theorem fullEvaluation_sound (s : State) : Sound true pts fr s (fullEvaluation s) := by
  unfold fullEvaluation
  have hover : Sound true pts fr s (overspeedTest (s.setEu { s.eu with permit := permitNow s, target := targetNow s })) :=
    (overspeedTest_sound _).after (.setEu s _ rfl rfl fun _ => rfl)
  exact .ite (fun hmoving => (moveDemand_sound _ hmoving).after hover) (fun _ => hover)

theorem idleEvaluation_sound (s : State) : Sound true pts fr s (idleEvaluation s) := by
  have h : Sound true pts fr s ((s.setCs s.cs).setEu { s.eu with
      demand := 0, permit := 0, target := 0, exceed := 0, brake := entryBrake s.cs.state s.eu.brake }) :=
    sound_enter (st := s.cs.state) rfl (fun _ => rfl) (fun _ => ⟨_, rfl⟩) ⟨rfl, rfl⟩ rfl rfl
  exact h

/-! ## The Track Line -/

theorem stopSending_sound (s : State) : Sound car pts fr s (stopSending s) :=
  (settleRefresh_sound _).after (.setTli s _ (by simp [waitAgain]) (by simp [waitAgain]) waitAgain_ok)

theorem departFrame_sound (e : TxEntry) (ack : Bool) (s : State) : Sound car pts fr s (departFrame e ack s) := by
  unfold departFrame
  extract_lets t counters s1 s2 s3
  have hgone : Sound car pts fr s s1 := by
    refine .setTli s _ (by simp [t]) (by simp [t]) fun h => fill_ok ?_
    obtain ⟨htx, hin, hmal, hun, hover, hdis⟩ := h
    refine ⟨(List.length_filter_le _ _).trans htx, hin, ?_⟩
    cases ack
    · exact ⟨hmal, satInc_le _, hover, hdis⟩
    · exact ⟨hmal, hun, hover, hdis⟩
  have hposition : Sound car pts fr s s2 := by
    refine .ite (fun _ => ?_) (fun _ => hgone)
    split
    · exact (offer_sound _ _ _ _ _).after hgone
    · exact hgone
  have hpoints : Sound car pts fr s s3 := by
    refine .ite (fun _ => ?_) (fun _ => hposition)
    split
    · exact (offer_sound _ _ _ _ _).after hposition
    · exact hposition
  exact (settleRefresh_sound _).after hpoints

theorem lateDeparture_sound (e : TxEntry) (ack : Bool) (s : State) : Sound car pts fr s (lateDeparture e ack s) := by
  unfold lateDeparture
  split
  · exact queueReleases_sound ..
  · exact .ite (fun _ => queueFrees_sound ..) (fun _ => .refl s)
  · exact .refl s

theorem reportDeparture_sound (e : TxEntry) (ack : Bool) {s : State} (h : car = true ∨ s.ce.span = none) :
    Sound car pts fr s (reportDeparture e ack s) := by
  unfold reportDeparture
  refine .ite (fun _ => lateDeparture_sound e ack s) (fun _ => ?_)
  split
  case h_1 => exact .refl s
  case h_2 sp hspan =>
    obtain rfl : car = true := h.resolve_right (by simp [hspan])
    split
    · exact .setCe s _ le_rfl
    · exact .ite (fun _ => .setCe s _ le_rfl) (fun _ => spanAbort_sound ..)
    · exact .refl s

/-! ## The Order Store -/

theorem takeOrder_sound (o : OrderRec) (s : State) : Sound true pts fr s (takeOrder o s) := by
  unfold takeOrder
  split
  · exact report_sound ..
  · have hstore : Sound true pts fr s (if s.os.pending.isSome then report .os .order (.refused .storeFull) o.id s
        else report .os .order .accepted o.id (s.setOs { s.os with pending := some (storedOrder (cfg s) o) })) :=
      .ite (fun _ => report_sound ..) (fun _ => (report_sound _ _ _ _ _).after (.setOs s _))
    dsimp only
    split
    iterate 3 exact report_sound ..
    iterate 5 exact hstore
    all_goals
      split
      · exact hstore
      · refine .ite (fun _ => (report_sound _ _ _ _ _).after (.setOs s _)) (fun _ => .ite (fun _ => ?_) (fun _ => ?_))
        · exact (startActive_sound _ _).after ((report_sound _ _ _ _ _).after (.setOs s _))
        · exact (startActive_sound _ _).after (.setOs s _)

theorem cancelPending_sound (s : State) : Sound true pts fr s (cancelPending s) := by
  unfold cancelPending
  split
  · exact .refl s
  · exact (report_sound _ _ _ _ _).after (.setOs s _)

theorem holdStop_sound (c : StopCond) (s : State) : Sound true pts fr s (holdStop c s) := by
  have hcond : Sound true pts fr s (s.setCs { s.cs with stopCond := some c }) := .setCs s _ rfl rfl rfl rfl
  unfold holdStop
  refine .ite (fun _ => .refl s) (fun _ => ?_)
  cases c
  · exact Sound.after (.setEu _ _ rfl rfl fun _ => rfl) hcond
  · exact Sound.after (.setEu _ _ rfl rfl fun _ => rfl) hcond
  · exact hcond

theorem takeStop_sound (c : StopCond) (s : State) : Sound true pts fr s (takeStop c s) := by
  unfold takeStop
  extract_lets oid accept refuse
  have hrefuse : Sound true pts fr s (refuse s) := report_sound ..
  have haccept : Sound true pts fr s (cancelPending (accept s)) := (cancelPending_sound _).after (report_sound ..)
  have hmoving (g : Seg) : Sound true pts fr s (enterState .stopping (holdStop c (spanAbort .stopped g 0 (cancelPending (accept s))))) :=
    (enterState_sound _ _).after ((holdStop_sound _ _).after ((spanAbort_sound _ _ _ _).after haccept))
  have hstanding (a : ActiveOrder) : Sound true pts fr s (cancelPending
      ((report .os .orderEnd .cancelled a.ord.id (accept s)).setOs
        { (report .os .orderEnd .cancelled a.ord.id (accept s)).os with active := none })) :=
    (cancelPending_sound _).after (Sound.after (.setOs _ _) ((report_sound _ _ _ _ _).after (report_sound ..)))
  split
  iterate 2 exact Sound.after (.ite (fun _ => restEvent_sound _) (fun _ => .refl _)) (hmoving _)
  · exact (holdStop_sound _ _).after haccept
  · exact Sound.after (.setOs _ _) haccept
  iterate 2
    split
    · exact hstanding _
    · exact hrefuse
  all_goals exact hrefuse

theorem takeDrop_sound (s : State) : Sound true pts fr s (takeDrop s) := by
  unfold takeDrop
  split
  · exact (report_sound _ _ _ _ _).after (.setOs s _)
  · exact report_sound ..

/-! ## The Position Unit -/

theorem countBatch_sound (d : Int) (r : Nat) (s : State) : Sound true pts fr s (countBatch d r s) := by
  unfold countBatch
  exact .ite (fun _ => Sound.after (.setEu _ _ rfl rfl fun _ => rfl) (.setPu s _)) (fun _ => .setPu s _)

theorem applyDistance_sound (d : Int) (s : State) : Sound true pts fr s (applyDistance d s) := by
  unfold applyDistance
  split <;> exact .setPu s _

theorem backwardTest_sound (d : Int) (s : State) : Sound true pts fr s (backwardTest d s) :=
  .ite (fun _ => raiseFault_sound _ s) (fun _ => .refl s)

theorem stillTest_sound (s : State) : Sound true pts fr s (stillTest s) := .ite (fun _ => raiseFault_sound _ s) (fun _ => .refl s)

theorem headWatch_sound (s : State) : Sound true pts fr s (headWatch s) := by
  unfold headWatch
  split
  · exact .ite (fun _ => raiseFault_sound _ s) (fun _ => .refl s)
  · exact .refl s

theorem tailInto_sound (k : Nat) (s : State) : Sound true pts fr s (tailInto k s) := by
  unfold tailInto
  split
  · exact .refl s
  · exact .setOs s _

theorem tailWatch_sound (s : State) : Sound true pts fr s (tailWatch s) := by
  unfold tailWatch
  split
  · exact .ite (fun _ => .ite (fun _ => raiseFaultAt_sound ..) (fun _ => (tailInto_sound _ _).after (.setPu s _)))
      (fun _ => .refl s)
  · exact .refl s

theorem watches_sound (s : State) : Sound true pts fr s (watches s) :=
  (overrunTest_sound _).after ((padWatch_sound _).after ((tailWatch_sound _).after
    ((tailWatch_sound _).after (headWatch_sound s))))

theorem takeStandstill_sound (s : State) : Sound true pts fr s (takeStandstill s) := by
  unfold takeStandstill
  extract_lets unit s1
  have hstill : Sound true pts fr s s1 := .setPu s _
  refine .ite (fun hmoving => (restEvent_sound _).after (Sound.after ?_ hstill)) (fun _ => hstill)
  obtain ⟨hmoving, -⟩ := Bool.and_eq_true_iff.mp hmoving
  exact .ite (fun _ => .setEu_of_moving _ _ hmoving rfl) (fun _ => .refl _)

theorem acceptLead_sound (a : ActiveOrder) (r : Route) (g h : Seg) (s : State) : Sound true pts fr s (acceptLead a r g h s) := by
  unfold acceptLead
  exact (overrunTest_sound _).after ((padWatch_sound _).after ((tailWatch_sound _).after
    (Sound.after (.setOs _ _) (.setPu s _))))

theorem readLead_sound (a : ActiveOrder) (r : Route) (g h : Seg) (s : State) : Sound true pts fr s (readLead a r g h s) :=
  .ite (fun _ => .refl s) (fun _ => .ite (fun _ => raiseFault_sound _ s) (fun _ => .ite (fun _ => raiseFault_sound _ s)
    (fun _ => acceptLead_sound a r g h s)))

theorem releaseBehind_sound (g : Seg) (s : State) : Sound true pts fr s (releaseBehind g s) := by
  unfold releaseBehind
  split
  · exact .refl s
  · exact (testTrigger_sound _).after (releaseOwn_sound _ s)

theorem acceptTrail_sound (r : Route) (g h : Seg) (b : Mm) (k : Nat) (s : State) : Sound true pts fr s (acceptTrail r g h b k s) := by
  unfold acceptTrail
  exact (overrunTest_sound _).after ((releaseBehind_sound _ _).after
    (Sound.after (.setPu _ _) ((tailInto_sound _ _).after (.setPu s _))))

theorem readTrail_sound (a : ActiveOrder) (r : Route) (g h : Seg) (s : State) : Sound true pts fr s (readTrail a r g h s) := by
  unfold readTrail
  refine .ite (fun _ => .refl s) (fun _ => .ite (fun _ => raiseFaultAt_sound ..) (fun _ => ?_))
  split
  · exact raiseFaultAt_sound ..
  · exact .ite (fun _ => raiseFaultAt_sound ..) (fun _ => .ite (fun _ => raiseFaultAt_sound ..)
      (fun _ => acceptTrail_sound ..))

theorem readPad_sound (a : ActiveOrder) (r : Route) (p : Nat) (s : State) : Sound true pts fr s (readPad a r p s) := by
  unfold readPad
  split
  · exact .refl s
  · exact .ite (fun _ => .refl s) (fun _ => .ite (fun _ => raiseFault_sound _ s) (fun _ => .ite (fun _ => .refl s)
      (fun _ => Sound.after (.setEu _ _ rfl rfl fun _ => rfl) (.setPu s _))))

/-! ## The Dock Sequencer -/

theorem jacksMoved_sound (s : State) : Sound true pts fr s (jacksMoved s) := by
  unfold jacksMoved
  split
  · exact .ite (fun _ => dockDone_sound s) (fun _ => .refl s)
  · exact .ite (fun _ => undockDone_sound s) (fun _ => .refl s)
  · exact .ite (fun _ => jacksOff_sound s) (fun _ => .refl s)
  · exact .refl s

/-! ## The Carriage Supervisor -/

theorem discardOrders_sound (s : State) : Sound true pts fr s (discardOrders s) := by
  unfold discardOrders
  exact Sound.after (.setOs _ _) ((orderLeaves_sound _).after (endSpan_sound _ s))

theorem chooseState_sound (p : Bool) (s : State) : Sound true pts fr s (chooseState p s) :=
  .ite (fun _ => enterUnlocated_sound s) (fun _ => .ite (fun _ => enterState_sound _ s) (fun _ => enterParked_sound s))

theorem refreshAtReset_sound (s : State) : Sound true pts fr s (refreshAtReset s) := by
  unfold refreshAtReset
  exact Sound.after (.setCe _ _ le_rfl) (refreshNow_sound s)

/-- The blocks of a STATION-RESET: a demand set to 0 suits every state. -/
theorem resetBlocks_sound (s : State) : Sound true pts fr s (resetBlocks s) := by
  unfold resetBlocks
  extract_lets s1 engine s2 unit s3 envelope s4
  have hview : Sound true pts fr s s1 := .setOv s _ (fun _ => Nat.zero_le _) (fun _ => Nat.zero_le _) (fun _ => Nat.zero_le _)
  have hunit : Sound true pts fr s s3 :=
    Sound.after (.setPu _ _) ((resetAttempts_sound _).after (Sound.after (.setCe _ _ le_rfl) hview))
  have henvelope : Sound true pts fr s3 s4 := 
    .ofCarriage (fun h hidle => ⟨rfl, (h hidle).2⟩) id (fun _ => ⟨rfl, rfl⟩) (fun _ _ => rfl) (fun _ => rfl) rfl
  exact (clearConvoy_sound _).after ((jacksOff_sound _).after (henvelope.after hunit))

theorem stationReset_sound (s : State) : Sound true pts fr s (stationReset s) := by
  unfold stationReset
  refine Sound.after (.ite (fun _ => inputFaults_sound _) (fun _ => .refl _)) ((queuePosition_sound _).after ?_)
  refine (refreshAtReset_sound _).after ((chooseState_sound _ _).after (Sound.after (.setCs _ _ rfl rfl rfl rfl) ?_))
  exact (resetBlocks_sound _).after ((discardOrders_sound _).after (resetReport_sound _ s))

theorem takeStationReset_sound (s : State) : Sound true pts fr s (takeStationReset s) :=
  .ite (fun _ => stationReset_sound s) (fun _ => report_sound ..)

theorem takeLocate_sound (l : LocRec) (s : State) : Sound true pts fr s (takeLocate l s) := by
  unfold takeLocate
  refine .ite (fun _ => report_sound ..) (fun _ => .ite (fun _ => report_sound ..) (fun _ => .ite (fun _ => report_sound ..)
    (fun _ => (tryLocate_sound _).after ?_)))
  exact Sound.after (.setOs _ _) (Sound.after (.setPu _ _) (report_sound ..))

theorem acceptCommission_sound (src : Addr) (r : CommRec) (l : LocRec) (s : State) :
    Sound true pts .commission s (acceptCommission src r l s) := by
  unfold acceptCommission
  refine (tryLocate_sound _).after ((enterState_sound _ _).after ((report_sound _ _ _ _ _).after ?_))
  exact Sound.after (.setCe _ _ le_rfl) (Sound.after (.setPu _ _) (.setCs_freed s _ rfl (fun h => absurd rfl h) fun _ _ => rfl))

theorem takeCommission_sound (src : Addr) (r : CommRec) (l : LocRec) (s : State) : 
    Sound true pts .commission s (takeCommission src r l s) :=
  .ite (fun _ => report_sound ..) (fun _ => .ite (fun _ => offer_sound ..) (fun _ => acceptCommission_sound ..))

theorem clearFault_sound (f : FaultRec) (s : State) : Sound true pts fr s (clearFault f s) := by
  have haccept : Sound true pts fr s (jacksOff (report .cs .clearFault .accepted 0 s)) := (jacksOff_sound _).after (report_sound ..)
  unfold clearFault
  refine .ite (fun _ => (enterUnlocated_sound _).after ((forgetFault_sound _).after haccept)) (fun _ => ?_)
  refine Sound.after (.ite (fun _ => enterState_sound _ _) (fun _ => enterParked_sound _)) ((forgetFault_sound _).after ?_)
  exact (releaseOwn_sound _ _).after haccept

theorem takeClearFault_sound (s : State) : Sound true pts fr s (takeClearFault s) := by
  unfold takeClearFault
  dsimp only
  split
  · exact report_sound ..
  · exact .ite (fun _ => report_sound ..) (fun _ => .ite (fun _ => report_sound ..) (fun _ => .ite (fun _ => report_sound ..)
      (fun _ => clearFault_sound _ s)))

theorem takeQuery_sound (s : State) : Sound car pts fr s (takeQuery s) := by
  unfold takeQuery
  split
  · exact .refl s
  · split <;> exact offer_sound ..

theorem resumeHalted_sound (s : State) : Sound true pts fr s (resumeHalted s) := by
  unfold resumeHalted
  exact Sound.after (.ite (fun _ => alignmentCheck_sound _) (fun _ => .refl _)) (enterState_sound _ s)

theorem resumeCarriage_sound (s : State) : Sound true pts .resume s (resumeCarriage s) := by
  have hclear : Sound true pts .resume s (s.setCs { s.cs with latch := none }) :=
    .setCs_freed s _ rfl (fun _ => ⟨rfl, rfl⟩) fun h => absurd rfl h
  unfold resumeCarriage
  refine .ite (fun _ => .refl s) (fun _ => (testTrigger_sound _).after ?_)
  dsimp only
  split
  · exact (resumeHalted_sound _).after hclear
  · exact (startActive_sound _ _).after hclear
  · exact (startActive_sound _ _).after hclear
  · exact hclear

theorem resumePoints_sound (s : State) : Sound car true .resume s (resumePoints s) :=
  .ite (fun _ => .refl s) (fun _ => (serveAfter_sound _ _).after (.setPa_freed s _ id (fun _ => ⟨rfl, rfl⟩) fun h => absurd rfl h))

theorem takeEStop_sound (s : State) : Sound true pts fr s (takeEStop s) := by
  unfold takeEStop
  refine Sound.after (.ite (fun _ => raiseFault_sound _ _) (fun _ => .refl _)) ((setLatch_sound _ _ _).after ?_)
  exact (offer_sound _ _ _ _ _).after (.setCs s _ rfl rfl rfl rfl)

end Sys2Proof.Machine
end

section
/-! Every command, the passing of time and the two resets keep the invariants of the queues, the tables and the Envelope Unit
(O3, O4, O5, O6). -/

namespace Sys2Proof.Machine

open Sys2Proof

variable {car pts : Bool} {fr : Freed}

/-! ## Every command but the resets -/

/-- An outcome that is a next state, reached from `s` with everything `Sound` keeps. -/
def Continues (car pts : Bool) (fr : Freed) (s : State) (o : Host.Outcome State Fault Refusal) : Prop :=
  ∃ t, o = .next t ∧ Sound car pts fr s t

theorem Continues.next {s t : State} (h : Sound car pts fr s t) : Continues car pts fr s (.next t) := ⟨t, rfl, h⟩

theorem wrongKind_sound (b : Subject) (s : State) : Sound car pts fr s (wrongKind b s) := report_sound ..

theorem Continues.request {src : Addr} {req : Request} {act : State → State} {s : State} (hs : Fits car pts s)
    (h : ∀ t, Fits car pts t → Sound car pts fr t (act t)) : Continues car pts fr s (.next (deliver src req act s)) :=
  .next (deliver_sound _ _ _ hs h)

/-- A request that a carriage node takes, and a points node answers WRONG_KIND. -/
theorem Continues.carriageRequest {src : Addr} {req : Request} {b : Subject} {act : State → State} {s : State}
    (hs : Fits car pts s) (h : ∀ t, Sound true pts fr t (act t)) :
    Continues car pts fr s (.next (deliver src req (fun t =>
      match t.tli.kind with
      | .carriage => act t
      | .points => wrongKind b t) s)) := by
  refine .request hs fun t ht => ?_
  split
  case h_1 hkind =>
    obtain rfl := ht.1 hkind
    exact h t
  case h_2 => exact wrongKind_sound b t

/-- A request that a points node takes, and a carriage node answers WRONG_KIND. -/
theorem Continues.pointsRequest {src : Addr} {req : Request} {b : Subject} {act : State → State} {s : State}
    (hs : Fits car pts s) (h : ∀ t, Sound car true fr t (act t)) :
    Continues car pts fr s (.next (deliver src req (fun t =>
      match t.tli.kind with
      | .carriage => wrongKind b t
      | .points => act t) s)) := by
  refine .request hs fun t ht => ?_
  split
  case h_1 => exact wrongKind_sound b t
  case h_2 hkind =>
    obtain rfl := ht.2 hkind
    exact h t

theorem Continues.notice {v : Bool} {src : Addr} {f : Seen} {act : State → State} {s : State} (hs : Fits car pts s)
    (h : ∀ t, Fits car pts t → Sound car pts fr t (act t)) : Continues car pts fr s (.next (hear v src f act s)) :=
  .next (hear_sound _ _ _ _ hs h)

theorem Continues.carriageEvent {act : State → State} {s : State} (hs : Fits car pts s)
    (h : ∀ t, Sound true pts fr t (act t)) : Continues car pts fr s (.next (onKind .carriage act s)) :=
  .next (onKind_carriage_sound _ hs h)

theorem Continues.pointsEvent {act : State → State} {s : State} (hs : Fits car pts s)
    (h : ∀ t, Sound car true fr t (act t)) : Continues car pts fr s (.next (onKind .points act s)) :=
  .next (onKind_points_sound _ hs h)

/-- A frame or a delivery that a carriage node alone hears. -/
theorem Continues.onCarriage {act : State → State} {s : State} (hs : Fits car pts s)
    (h : ∀ t, Fits true pts t → t.tli.kind = .carriage → Sound true pts fr t (act t)) :
    Continues car pts fr s (.next (onKind .carriage act s)) := by
  refine .next (.ite (fun hkind => ?_) (fun _ => .refl s))
  obtain rfl := hs.1 hkind
  exact h s hs hkind

/-- A frame or a delivery that a points node alone hears. -/
theorem Continues.onPoints {act : State → State} {s : State} (hs : Fits car pts s)
    (h : ∀ t, Fits car true t → t.tli.kind = .points → Sound car true fr t (act t)) :
    Continues car pts fr s (.next (onKind .points act s)) := by
  refine .next (.ite (fun hkind => ?_) (fun _ => .refl s))
  obtain rfl := hs.2 hkind
  exact h s hs hkind

section Commands

variable {s : State} (hs : Fits car pts s)

include hs

/-! ### Requests -/

theorem execClearStale_continues (src : Addr) (broadcast : Bool) (holder : Addr) :
    Continues car pts fr s (execClearStale src broadcast holder s) := by
  refine .next (.ite (fun _ => hear_sound _ _ _ _ hs fun t ht => ?_) (fun _ => deliver_sound _ _ _ hs fun t ht => ?_))
  · exact .ite (fun _ => clearHolder_sound src holder ht) (fun _ => countMalformed_sound t)
  · exact (report_sound _ _ _ _ _).after (clearHolder_sound src holder ht)

/-! ### Notices -/

theorem execPointsNodeClaim_continues (src : Addr) (cls : Nat) (period : Ms) (items : List ClaimItem) :
    Continues car pts fr s (execPointsNodeClaim src cls period items s) :=
  .onPoints hs fun _ ht _ => hear_sound _ _ _ _ ht fun t _ =>
    (afterView_sound t _).after (applySegClaims_sound src period items t)

theorem execPointsNodeRelease_continues (src : Addr) (segs : List Seg) :
    Continues car pts fr s (execPointsNodeRelease src segs s) :=
  .onPoints hs fun _ ht _ => hear_sound _ _ _ _ ht fun t _ => .ite (fun _ => withdrawClaim_sound src t) (fun _ => .refl t)

omit hs in
theorem applyRelease_sound (src : Addr) (segs : List Seg) (s : State) :
    Sound true pts fr s (applyRelease src segs s) := keepClaims_sound _ s

theorem execClaim_continues (src : Addr) (cls : Nat) (period : Ms) (items : List ClaimItem) :
    Continues car pts fr s (execClaim src cls period items s) := by
  refine .onCarriage hs fun _ ht _ => hear_sound _ _ _ _ ht fun t _ => toView_sound _ _ t fun u => ?_
  refine Sound.after (.foldl _ _ _ fun _ _ => examineItem_sound ..) ?_
  exact .foldl _ _ _ fun w i => applyClaimItem_sound src cls period i w

theorem execObject_continues (src target : Addr) (seg : Seg) (stated : ClaimState) :
    Continues car pts fr s (execObject src target seg stated s) := by
  refine .notice hs fun t ht => onKind_carriage_sound _ ht fun u => .ite (fun _ => .refl u) (fun _ => ?_)
  split
  · exact .refl u
  · exact .ite (fun _ => spanAbort_sound ..) (fun _ => .ite (fun _ => raiseClash_sound ..) (fun _ => .refl u))

theorem execResumeB_continues (src : Addr) (token : Nat) :
    Continues car pts .resume s (execResumeB src token s) := by
  refine .notice hs fun t ht => .ite (fun _ => ?_) (fun _ => .refl t)
  split
  case h_1 hkind =>
    obtain rfl := ht.1 hkind
    exact resumeCarriage_sound t
  case h_2 hkind =>
    obtain rfl := ht.2 hkind
    exact resumePoints_sound t

/-! ### The line -/

omit hs in
theorem execLineIdle_continues : Continues car pts fr s (execLineIdle s) := by
  have hidle : Sound car pts fr s (s.setTli { s.tli with idle := true }) := .setTli s _ rfl rfl id
  refine .next (.ite (fun _ => .refl s) (fun _ => ?_))
  split
  · exact hidle
  · exact .ite (fun _ => hidle) (fun _ => .setTli s _ rfl rfl fun h => h.of_txq (by simpa using h.1) rfl rfl)

omit hs in
theorem execArbitrationLost_continues (cls : Nat) (src : Addr) :
    Continues car pts fr s (execArbitrationLost cls src s) := by
  refine .next ?_
  split
  · exact .refl s
  · exact .ite (fun _ => stopSending_sound s) (fun _ => .refl s)

omit hs in
theorem execBitError_continues (dominantReadRecessive : Bool) :
    Continues car pts fr s (execBitError dominantReadRecessive s) := by
  refine .next ?_
  split
  · exact .refl s
  · exact .ite (fun _ => (countMalformed_sound _).after (stopSending_sound s)) (fun _ => stopSending_sound s)

omit hs in
@[simp] theorem departFrame_ce_span (e : TxEntry) (ack : Bool) (s : State) : (departFrame e ack s).ce.span = s.ce.span := by
  have h : CarriageAside s (departFrame e ack s) :=
    (departFrame_sound (car := false) (pts := false) (fr := .none) e ack s).carriage rfl
  obtain ⟨-, -, -, -, -, -, hce, -⟩ := h
  rw [hce]

omit hs in
/-- On a node that has no span in flight a departure touches neither personality's blocks but for the countdowns. -/
theorem execFrameDeparture_continues (ack : Bool) (h : car = true ∨ s.ce.span = none) :
    Continues car pts fr s (execFrameDeparture ack s) := by
  refine .next ?_
  split
  · exact .refl s
  · exact (reportDeparture_sound _ _ (by simpa using h)).after (departFrame_sound _ _ s)

theorem execLineSilence_continues : Continues car pts fr s (execLineSilence s) := by
  refine .next (.ite (fun _ => .refl s) (fun _ => ?_))
  extract_lets line s1 view s2
  have hline : Sound car pts fr s s1 := .setTli s _ rfl rfl id
  split
  case h_1 hkind =>
    obtain rfl := hs.1 hkind
    exact (spanAbort_sound _ _ _ _).after (Sound.after (.setOv _ _ id id id) hline)
  case h_2 hkind =>
    obtain rfl := hs.2 hkind
    exact Sound.after (.setSv _ _ id) hline

/-! ### The timers and inputs -/

theorem execClaimEntryStale_continues (holder : Addr) (seg : Seg) :
    Continues car pts fr s (execClaimEntryStale holder seg s) :=
  .carriageEvent hs fun t => Sound.after (.setOv _ _ (fun h => by simpa using h) id id) (keepClaims_sound _ t)

theorem execPositionEntryStale_continues (carriage : Addr) :
    Continues car pts fr s (execPositionEntryStale carriage s) :=
  .carriageEvent hs fun t => .setOv t _ id id (fun h => by simpa using h)

theorem execListenInExpiry_continues : Continues car pts fr s (execListenInExpiry s) :=
  .carriageEvent hs fun t => .ite (fun _ => .refl t)
    (fun _ => (testTrigger_sound _).after ((tryLocate_sound _).after (.setOv t _ id id id)))

theorem execSpanAcquisitionStart_continues : Continues car pts fr s (execSpanAcquisitionStart s) := by
  refine .carriageEvent hs fun t => ?_
  have hcleared : Sound true pts fr t (t.setCe { t.ce with triggered := false }) := .setCe t _ le_rfl
  refine .ite (fun _ => ?_) (fun _ => hcleared)
  split
  · exact (openSpan_sound _ _).after hcleared
  · exact hcleared

theorem execContestWindowExpiry_continues : Continues car pts fr s (execContestWindowExpiry s) := by
  refine .carriageEvent hs fun t => ?_
  split
  case h_1 => exact .refl t
  case h_2 sp _ =>
    refine .ite (fun _ => Sound.after (.ite (fun _ => commit_sound sp _) (fun _ => ?_)) (askTable_sound sp t))
      (fun _ => .refl t)
    exact .setCe _ _ le_rfl

theorem execPointsTimeout_continues : Continues car pts fr s (execPointsTimeout s) := by
  refine .carriageEvent hs fun t => ?_
  split
  · exact .refl t
  · exact .ite (fun _ => spanAbort_sound ..) (fun _ => .refl t)

theorem execLeaderEvaluation_continues : Continues car pts fr s (execLeaderEvaluation s) := by
  refine .carriageEvent hs fun t => ?_
  extract_lets regulator s1
  have htimer : Sound true pts fr t s1 := .setCr t _
  split
  · exact .ite (fun _ => (evaluateLeader_sound _ _ _).after htimer) (fun _ => htimer)
  · exact htimer

theorem execEnvelopeEvaluation_continues (gust : Bool) :
    Continues car pts .gust s (execEnvelopeEvaluation gust s) :=
  .carriageEvent hs fun t => Sound.after (.ite (fun _ => fullEvaluation_sound _) (fun _ => idleEvaluation_sound _))
    (.setEu t _ rfl rfl fun h => absurd rfl h)

theorem execLockInputChange_continues (normal reverse : Bool) :
    Continues car pts fr s (execLockInputChange normal reverse s) := by
  refine .pointsEvent hs fun t => ?_
  have hinputs : Sound car true fr t (t.setTs { t.ts with normalLock := normal, reverseLock := reverse }) := .setTs t _
  split
  · exact .ite (fun _ => hinputs) (fun _ => (lockLost_sound _).after hinputs)
  · exact (lockArrives_sound t _).after hinputs

theorem execThrowTimeout_continues : Continues car pts fr s (execThrowTimeout s) :=
  .pointsEvent hs fun t => .ite (fun _ => (lockArrives_sound t _).after (.setTs t _)) (fun _ => .refl t)

theorem execRecoveryTimeout_continues : Continues car pts fr s (execRecoveryTimeout s) :=
  .pointsEvent hs fun t => .ite
    (fun _ => (queuePoints_sound _).after ((raisePoints_sound _ _).after (pointsFail_sound t))) (fun _ => .refl t)

theorem execOdometryBatch_continues (counts : Int) : Continues car pts fr s (execOdometryBatch counts s) := by
  refine .carriageEvent hs fun t => ?_
  split
  · exact countBatch_sound _ _ t
  · exact (watches_sound _).after ((stillTest_sound _).after ((backwardTest_sound _ _).after
      ((applyDistance_sound _ _).after (countBatch_sound _ _ t))))

theorem execLeadingBoundaryRead_continues (checkOk : Bool) (g h : Seg) :
    Continues car pts fr s (execLeadingBoundaryRead checkOk g h s) := by
  refine .carriageEvent hs fun t => ?_
  split
  · exact .ite (fun _ => readLead_sound _ _ g h t) (fun _ => .refl t)
  · exact .refl t

theorem execTrailingBoundaryRead_continues (checkOk : Bool) (g h : Seg) :
    Continues car pts fr s (execTrailingBoundaryRead checkOk g h s) := by
  refine .carriageEvent hs fun t => ?_
  split
  · exact .ite (fun _ => readTrail_sound _ _ g h t) (fun _ => .refl t)
  · exact .refl t

theorem execPadMarkerRead_continues (checkOk leading : Bool) (pad : Nat) :
    Continues car pts fr s (execPadMarkerRead checkOk leading pad s) := by
  refine .carriageEvent hs fun t => ?_
  split
  · exact .ite (fun _ => readPad_sound _ _ pad t) (fun _ => .refl t)
  · exact .refl t

theorem execDriveFault_continues : Continues car pts fr s (execDriveFault s) := by
  refine .carriageEvent hs fun t => .ite (fun _ => .refl t) (fun _ => ?_)
  exact Sound.after (.ite (fun _ => raiseFault_sound _ _) (fun _ => .refl _)) (.setCs t _ rfl rfl rfl rfl)

end Commands

/-- What a command may change that no other may. -/
def freedBy : Instr → Freed
  | .commission _ _ _ => .commission
  | .pointsCommission _ _ => .pointsCommission
  | .resumeB _ _ => .resume
  | .envelopeEvaluation _ => .gust
  | _ => .none

/-- Every command but the two resets goes on to a next state, and keeps all that its station's personality lets it. -/
theorem exec_continues (c : Instr) {s : State} (hs : Fits car pts s) (hspan : car = true ∨ s.ce.span = none)
    (hp : ∀ p, c ≠ .powerOn p) (hr : ∀ p, c ≠ .resetLine p) : Continues car pts (freedBy c) s (exec c s) := by
  cases c with
  | powerOn p => exact absurd rfl (hp p)
  | resetLine p => exact absurd rfl (hr p)
  | inboundRequestTaken src req => exact .next (arrive_sound src req hs)
  | requestToOtherStation src target =>
    exact .next (.ite (fun _ => .refl s) (fun _ => hear_sound _ _ _ _ hs fun t _ => .refl t))
  | order src o => exact .carriageRequest hs (takeOrder_sound o)
  | stop src c => exact .carriageRequest hs (takeStop_sound c)
  | drop src => exact .carriageRequest hs takeDrop_sound
  | locate src l => exact .carriageRequest hs (takeLocate_sound l)
  | commission src r l => exact .request hs fun t ht => onKind_carriage_sound _ ht (takeCommission_sound src r l)
  | pointsCommission src r => exact .request hs fun t ht => onKind_points_sound _ ht (takePointsCommission_sound src r)
  | clearFault src => exact .onCarriage hs fun t ht _ => deliver_sound _ _ _ ht fun u _ => takeClearFault_sound u
  | pointsClearFault src => exact .onPoints hs fun t ht _ => deliver_sound _ _ _ ht fun u _ => takePointsClear_sound u
  | clearStale src broadcast holder => exact execClearStale_continues hs src broadcast holder
  | stationReset src => exact .onCarriage hs fun t ht _ => deliver_sound _ _ _ ht fun u _ => takeStationReset_sound u
  | pointsStationReset src => exact .onPoints hs fun t ht _ => deliver_sound _ _ _ ht fun u _ => takePointsReset_sound u
  | query src => exact .request hs fun t _ => takeQuery_sound t
  | pointsAsk src pos cls oid => exact .pointsRequest hs (takeAsk_sound src pos cls oid)
  | pointsFree src => exact .pointsRequest hs (takeFree_sound src)
  | halt src origin reason => exact .onCarriage hs fun t ht _ => hear_sound _ _ _ _ ht fun u _ => setLatch_sound origin reason u
  | pointsHalt src origin reason =>
    exact .onPoints hs fun t ht _ => hear_sound _ _ _ _ ht fun u _ => .setPa_freed u _ id (fun _ => ⟨rfl, rfl⟩) fun _ _ => rfl
  | resumeA src token => exact .notice hs fun t _ => .refl t
  | resumeB src token => exact execResumeB_continues hs src token
  | claim src cls period items => exact execClaim_continues hs src cls period items
  | pointsNodeClaim src cls period items => exact execPointsNodeClaim_continues hs src cls period items
  | release src segs =>
    exact .onCarriage hs fun t ht _ => hear_sound _ _ _ _ ht fun u _ => toView_sound _ _ u (applyRelease_sound src segs)
  | pointsNodeRelease src segs => exact execPointsNodeRelease_continues hs src segs
  | object src target seg stated => exact execObject_continues hs src target seg stated
  | points src n =>
    exact .notice hs fun t ht => onKind_carriage_sound _ ht fun u => toView_sound _ _ u (takePoints_sound src n)
  | position src n =>
    exact .notice hs fun t ht => onKind_carriage_sound _ ht fun u => toView_sound _ _ u (applyPosition_sound src n)
  | lineIdle => exact execLineIdle_continues
  | arbitrationLost cls src => exact execArbitrationLost_continues cls src
  | bitError b => exact execBitError_continues b
  | frameDeparture ack => exact execFrameDeparture_continues ack hspan
  | spanAcquisitionStart => exact execSpanAcquisitionStart_continues hs
  | contestWindowExpiry => exact execContestWindowExpiry_continues hs
  | pointsTimeout => exact execPointsTimeout_continues hs
  | backoffExpiry =>
    exact .carriageEvent hs fun t => .ite (fun _ => .refl t) (fun _ => (testTrigger_sound _).after (.setCe t _ le_rfl))
  | refreshExpiry => exact .carriageEvent hs fun t => .ite (fun _ => .refl t) (fun _ => refreshNow_sound t)
  | claimEntryStale holder seg => exact execClaimEntryStale_continues hs holder seg
  | segmentViewEntryStale holder =>
    exact .pointsEvent hs fun t => (afterView_sound t _).after (ageOutSeg_sound holder t)
  | positionEntryStale carriage => exact execPositionEntryStale_continues hs carriage
  | listenInExpiry => exact execListenInExpiry_continues hs
  | pointsListenInExpiry =>
    exact .pointsEvent hs fun t => .ite (fun _ => .refl t) (fun _ => (serveAfter_sound t _).after (.setSv t _ id))
  | overflowHoldExpiry =>
    exact .pointsEvent hs fun t => .ite (fun _ => .refl t) (fun _ => (serveAfter_sound t _).after (.setSv t _ id))
  | lineSilence => exact execLineSilence_continues hs
  | resumeWindowExpiry => exact .next (setWatcher_sound none hs)
  | positionPeriodExpiry => exact .carriageEvent hs fun t => .ite (fun _ => .refl t) (fun _ => queuePosition_sound t)
  | pointsPeriodicNotice =>
    exact .pointsEvent hs fun t => .ite (fun _ => .refl t) (fun _ => (offer_sound _ _ _ _ _).after (.setPa t _ rfl rfl rfl id))
  | envelopeEvaluation gust => exact execEnvelopeEvaluation_continues hs gust
  | leaderEvaluation => exact execLeaderEvaluation_continues hs
  | odometryBatch counts => exact execOdometryBatch_continues hs counts
  | standstillEvent => exact .carriageEvent hs fun t => .ite (fun _ => takeStandstill_sound t) (fun _ => .refl t)
  | leadingBoundaryRead checkOk g h => exact execLeadingBoundaryRead_continues hs checkOk g h
  | trailingBoundaryRead checkOk g h => exact execTrailingBoundaryRead_continues hs checkOk g h
  | padMarkerRead checkOk leading pad => exact execPadMarkerRead_continues hs checkOk leading pad
  | eStop => exact .carriageEvent hs fun t => .ite (fun _ => .refl t) (fun _ => takeEStop_sound t)
  | driveFault => exact execDriveFault_continues hs
  | jackPositionChange up down => exact .carriageEvent hs fun t => (jacksMoved_sound _).after (.setDs t _)
  | dockTimeout =>
    exact .carriageEvent hs fun t => .ite (fun _ => (raiseFault_sound _ _).after (jacksOff_sound t)) (fun _ => .refl t)
  | undockTimeout =>
    exact .carriageEvent hs fun t => .ite (fun _ => (raiseFault_sound _ _).after (jacksOff_sound t)) (fun _ => .refl t)
  | lockInputChange normal reverse => exact execLockInputChange_continues hs normal reverse
  | throwTimeout => exact execThrowTimeout_continues hs
  | recoveryTimeout => exact execRecoveryTimeout_continues hs
  | frameCheckFailed bits => exact .next (.ite (fun _ => countMalformed_sound s) (fun _ => .refl s))
  | replyHeard src target => exact .notice hs fun t _ => .refl t
  | eStopRelease => exact .carriageEvent hs fun t => .setCs t _ rfl rfl rfl rfl
  | driveFaultRelease => exact .carriageEvent hs fun t => .setCs t _ rfl rfl rfl rfl

/-- An operation that may touch both personalities' blocks fits every station. -/
theorem Fits.any (s : State) : Fits true true s := ⟨fun _ => rfl, fun _ => rfl⟩

/-! ## The resets and the passing of time -/

theorem exec_powerOn (p : Pins) (s : State) : exec (.powerOn p) s = .next (powerUp p s) := rfl
theorem exec_resetLine (p : Pins) (s : State) : exec (.resetLine p) s = .next (powerUp p s) := rfl

/-- The block at its reset values, with the straps and the inputs as they stand: what POWER-ON leaves of both personalities'
blocks, before a points node reads its locks. -/
def poweredBlocks (p : Pins) (s : State) : State :=
  { State.reset with
    pending := s.pending
    tli := powerTli p
    ov := { State.reset.ov with listen := if p.strapKind = .carriage then some 0 else none }
    eu := { State.reset.eu with gust := p.gust }
    ds := { State.reset.ds with upInput := p.jackUp, downInput := p.jackDown, pos := jackPosOf p.jackUp p.jackDown }
    cs := { State.reset.cs with eStop := p.eStop, driveFault := p.driveFault }
    ts := { State.reset.ts with normalLock := p.lockNormal, reverseLock := p.lockReverse } }

theorem powerUp_eq (p : Pins) (s : State) :
    powerUp p s = (match p.strapKind with
      | .carriage => poweredBlocks p s
      | .points => powerPoints p (poweredBlocks p s)) := rfl

theorem powerUp_carriage {p : Pins} (s : State) (h : p.strapKind = .carriage) : powerUp p s = poweredBlocks p s := by
  rw [powerUp_eq, h]

theorem powerUp_points {p : Pins} (s : State) (h : p.strapKind = .points) :
    powerUp p s = powerPoints p (poweredBlocks p s) := by
  rw [powerUp_eq, h]

theorem powerTli_addr (p : Pins) : (powerTli p).addr = p.strapAddr.toNat := by
  unfold powerTli; split <;> rfl

theorem powerTli_kind (p : Pins) : (powerTli p).kind = p.strapKind := by
  unfold powerTli; split <;> rfl

theorem powerTli_clash (p : Pins) : (powerTli p).clash = decide (p.strapAddr.toNat = 0) := by
  unfold powerTli; split <;> rfl

theorem reset_tli_ok : TliOk State.reset.tli := by
  refine ⟨?_, ?_, ?_, ?_, ?_, ?_⟩ <;> decide

theorem powerTli_ok (p : Pins) : TliOk (powerTli p) := by
  unfold powerTli
  split
  · exact reset_tli_ok
  · exact reset_tli_ok.of_txq (Nat.zero_le _) rfl rfl

theorem powerPoints_tli (p : Pins) (s : State) : (powerPoints p s).tli = s.tli := rfl

theorem powerUp_tli (p : Pins) (s : State) : (powerUp p s).tli = powerTli p := by
  cases h : p.strapKind with
  | carriage => rw [powerUp_carriage s h]; rfl
  | points => rw [powerUp_points s h]; rfl

theorem powerUp_pending (p : Pins) (s : State) : (powerUp p s).pending = s.pending := by
  cases h : p.strapKind with
  | carriage => rw [powerUp_carriage s h]; rfl
  | points => rw [powerUp_points s h]; rfl

theorem poweredBlocks_env (p : Pins) (s : State) : EnvelopeInv (poweredBlocks p s) := fun _ => ⟨rfl, fun _ => rfl⟩

theorem poweredBlocks_table (p : Pins) (s : State) : TableInv (poweredBlocks p s) := by
  refine ⟨?_, ?_, ?_, ?_, ?_, ?_⟩ <;> exact Nat.zero_le _

theorem powerUp_env (p : Pins) (s : State) : EnvelopeInv (powerUp p s) := by
  cases h : p.strapKind with
  | carriage => rw [powerUp_carriage s h]; exact poweredBlocks_env p s
  | points => rw [powerUp_points s h]; exact poweredBlocks_env p s

theorem powerUp_table (p : Pins) (s : State) : TableInv (powerUp p s) := by
  cases h : p.strapKind with
  | carriage => rw [powerUp_carriage s h]; exact poweredBlocks_table p s
  | points => rw [powerUp_points s h]; exact poweredBlocks_table p s

theorem powerUp_queue (p : Pins) (s : State) : QueueInv (powerUp p s) := by
  rw [queueInv_iff, powerUp_tli]
  exact powerTli_ok p

/-- The lock inputs at POWER-ON show a position, or leave the points FAILED with LOCK_LOST (R81). -/
theorem powerUp_points_inv (p : Pins) (s : State) : PointsInv (powerUp p s) := by
  intro hkind
  have hpoints : p.strapKind = .points := by rwa [powerUp_tli, powerTli_kind] at hkind
  rw [powerUp_points s hpoints]
  refine ⟨?_, fun g hg => by simp [powerPoints, poweredBlocks, State.reset] at hg, fun f hf hcode => ?_⟩
  · show motorFits { State.reset.ts with
      normalLock := p.lockNormal, reverseLock := p.lockReverse, state := stateOfLocks p.lockNormal p.lockReverse }
    unfold stateOfLocks
    split
    · rename_i pos _
      cases pos <;> exact ⟨rfl, rfl⟩
    · exact ⟨rfl, rfl⟩
  · have hrec : faultOfLocks p.lockNormal p.lockReverse 0 = some f := hf
    unfold faultOfLocks at hrec
    split at hrec
    · cases hrec
    · obtain rfl := Option.some.inj hrec
      cases hcode

/-- One millisecond moves timers and ages only: no queue, table or output. -/
theorem tick_sound (s : State) : Sound true true fr s (tick s) := by
  unfold tick
  extract_lets line s1
  have hline : Sound true true fr s s1 := .ite (fun _ => .refl s) (fun _ => .setTli s _ rfl rfl id)
  refine hline.trans ?_
  split
  · refine .ofCarriage id (fun htab => ?_) (fun _ => ⟨rfl, rfl⟩) (fun _ _ => rfl) (fun _ => rfl) rfl
    simpa [TableInv, tickCarriage, tickView, tickClaims] using htab
  · refine .ofPoints (fun htab => ?_) (fun _ => ⟨rfl, rfl⟩) (fun _ => id) rfl
    simpa [TableInv, tickPoints] using htab

/-- A step is a command on the state with the queue's rest, the event due, or a millisecond. -/
theorem step_cases {s t : State} (h : step s = .next t) :
    (∃ c u, (∃ rest, u = s.setPending rest ∨ u = s) ∧ exec c u = .next t) ∨ t = tick s := by
  unfold step at h
  split at h
  case h_1 c rest _ => exact .inl ⟨c, _, ⟨rest, .inl rfl⟩, h⟩
  case h_2 =>
    unfold idleStep at h
    split at h
    case h_1 c _ => exact .inl ⟨c, s, ⟨[], .inr rfl⟩, h⟩
    case h_2 => exact .inr (Host.Outcome.next.inj h).symm

/-- What commands, the two resets among them, and the passing of time keep, and what the queue of waiting commands does not
enter, every step keeps. -/
theorem step_keeps {I : State → Prop} (hpending : ∀ (s : State) (rest : List Instr), I s → I (s.setPending rest))
    (hexec : ∀ (c : Instr) (s t : State), I s → exec c s = .next t → I t) (htick : ∀ s : State, I s → I (tick s))
    {s t : State} (hs : I s) (h : step s = .next t) : I t := by
  obtain ⟨c, u, ⟨rest, hu⟩, hc⟩ | rfl := step_cases h
  · obtain rfl | rfl := hu
    · exact hexec c _ t (hpending s rest hs) hc
    · exact hexec c _ t hs hc
  · exact htick s hs

/-- A command either is one of the two resets, or keeps what `Sound` keeps. -/
theorem exec_cases {c : Instr} {s t : State} (h : exec c s = .next t) :
    (∃ p, t = powerUp p s) ∨ Sound true true (freedBy c) s t := by
  by_cases hp : ∃ p, c = .powerOn p
  · obtain ⟨p, rfl⟩ := hp
    exact .inl ⟨p, (Host.Outcome.next.inj h).symm⟩
  · by_cases hr : ∃ p, c = .resetLine p
    · obtain ⟨p, rfl⟩ := hr
      exact .inl ⟨p, (Host.Outcome.next.inj h).symm⟩
    · obtain ⟨u, hu, hsound⟩ := exec_continues c (.any s) (.inl rfl) (not_exists.mp hp) (not_exists.mp hr)
      rw [hu] at h
      exact .inr (Host.Outcome.next.inj h ▸ hsound)

theorem exec_keeps {I : State → Prop} (hpower : ∀ p s, I (powerUp p s))
    (hsound : ∀ s t fr, Sound true true fr s t → I s → I t) (c : Instr) (s t : State) (hs : I s) (h : exec c s = .next t) :
    I t := by
  obtain ⟨p, rfl⟩ | hst := exec_cases h
  · exact hpower p s
  · exact hsound s t _ hst hs

/-! ## The obligations -/

/-- Settles O5: `Sound` holds along every command and tick, and POWER-ON sets the demand and brake of UNCOMMISSIONED. -/
theorem envelopeInvKept : Obligations.EnvelopeInvKept := fun _ _ hs h =>
  step_keeps (fun _ _ => id) (exec_keeps powerUp_env fun _ _ _ k => k.env) (fun s => (tick_sound (fr := .none) s).env) hs h

/-- Settles O6: every operation that adds to a queue or table tests for room first, and every count saturates. -/
theorem capacityInvKept : Obligations.CapacityInvKept :=
  ⟨fun _ _ hs h =>
    step_keeps (fun _ _ => id) (exec_keeps powerUp_queue fun _ _ _ k => k.queue) (fun s => (tick_sound (fr := .none) s).queue) hs h,
   fun _ _ hs h =>
    step_keeps (fun _ _ => id) (exec_keeps powerUp_table fun _ _ _ k => k.table) (fun s => (tick_sound (fr := .none) s).table) hs h⟩

/-- Settles O3: no arm of the model faults or refuses, and none writes the waiting commands. -/
theorem execKeepsQueue : Obligations.ExecKeepsQueue := by
  intro c s
  by_cases hp : ∃ p, c = .powerOn p
  · obtain ⟨p, rfl⟩ := hp
    exact ⟨_, exec_powerOn p s, powerUp_pending p s⟩
  · by_cases hr : ∃ p, c = .resetLine p
    · obtain ⟨p, rfl⟩ := hr
      exact ⟨_, exec_resetLine p s, powerUp_pending p s⟩
    · obtain ⟨t, ht, hsound⟩ := exec_continues c (.any s) (.inl rfl) (not_exists.mp hp) (not_exists.mp hr)
      exact ⟨t, ht, hsound.pending⟩

/-- Settles O4: the reset state is a carriage node's, with every queue and table empty but for the boot POSITION. -/
theorem invariantsAtReset : Obligations.InvariantsAtReset := by
  have htable : TableInv State.reset := by
    refine ⟨?_, ?_, ?_, ?_, ?_, ?_⟩ <;> exact Nat.zero_le _
  refine ⟨⟨fun _ => ⟨rfl, fun _ => rfl⟩, reset_tli_ok, htable, fun h => by cases h⟩, fun p s t h => ?_⟩
  · obtain rfl := Host.Outcome.next.inj h
    exact ⟨powerUp_env p s, powerUp_queue p s, powerUp_table p s, powerUp_points_inv p s⟩

/-- Settles O1: the definition of a step with a command at the front of the queue. -/
theorem stepRunsFront : Obligations.StepRunsFront := by
  intro c rest s hpending
  unfold step
  rw [hpending]

/-- The line interface after a millisecond: the silence timer alone has moved (R191). -/
def tickedLine (s : State) : State :=
  if s.tli.silent then s else s.setTli { s.tli with silence := min (s.tli.silence + 1) Config.silenceMs }

theorem tick_carriage {s : State} (h : s.tli.kind = .carriage) : tick s = tickCarriage (tickedLine s) := by
  unfold tick
  rw [h]
  rfl

theorem tick_points {s : State} (h : s.tli.kind = .points) : tick s = tickPoints (tickedLine s) := by
  unfold tick
  rw [h]
  rfl

theorem tickedLine_eq (s : State) : tickedLine s = s.setTli { s.tli with
    silence := if s.tli.silent then s.tli.silence else min (s.tli.silence + 1) 3000 } := by
  unfold tickedLine
  split <;> rfl

/-- The measured speed is 0 exactly when the window's distances sum to 0 (R107). -/
theorem measuredSpeed_eq_zero_iff (s : State) : measuredSpeed s = 0 ↔ s.pu.window.sum = 0 := by
  simp [measuredSpeed]

/-- Settles O2: an idle step is the first event due, or a tick, whose timers the model counts to their tops. -/
theorem idleStep_runs : Obligations.IdleStep := by
  intro s hpending
  have hidle : step s = idleStep s := by
    unfold step
    rw [hpending]
  refine ⟨fun c hc => ?_, fun hnone => ⟨tick s, ?_, ?_⟩⟩
  · rw [hidle]; unfold idleStep; rw [hc]
  · rw [hidle]; unfold idleStep; rw [hnone]
  · cases hkind : s.tli.kind with
    | carriage =>
      rw [tick_carriage hkind, tickedLine_eq]
      refine ⟨hpending, rfl, rfl, rfl, rfl, fun _ => ⟨rfl, rfl, rfl, rfl, ?_, rfl, rfl, rfl⟩, fun h => by cases h⟩
      exact if_congr (measuredSpeed_eq_zero_iff s) rfl rfl
    | points =>
      rw [tick_points hkind, tickedLine_eq]
      exact ⟨hpending, rfl, rfl, rfl, rfl, fun h => (by cases h), fun _ => ⟨rfl, rfl, rfl, rfl, rfl, rfl, rfl, rfl⟩⟩

theorem strapAddr_toNat_eq_zero_iff (p : Pins) : p.strapAddr.toNat = 0 ↔ p.strapAddr = 0 := by
  rw [← BitVec.toNat_inj]
  rfl

theorem powerTli_txq_carriage {p : Pins} (h : p.strapKind = .carriage) :
    (powerTli p).txq = if p.strapAddr = 0 then [] else State.reset.tli.txq := by
  unfold powerTli
  by_cases hzero : p.strapAddr = 0
  · rw [if_neg fun ⟨_, hne⟩ => hne ((strapAddr_toNat_eq_zero_iff p).mpr hzero), if_pos hzero]
  · rw [if_pos ⟨h, fun heq => hzero ((strapAddr_toNat_eq_zero_iff p).mp heq)⟩, if_neg hzero]

theorem powerTli_txq_points {p : Pins} (h : p.strapKind = .points) : (powerTli p).txq = [] := by
  simp [powerTli, h]

/-- The line interface at POWER-ON, its queue, straps and clash flag apart (R180). -/
theorem powerTli_rest (p : Pins) : (powerTli p).inbound = [] ∧ (powerTli p).kept = [] ∧ (powerTli p).offerLine = [] ∧
    (powerTli p).keptPosition = none ∧ (powerTli p).keptPoints = none ∧ (powerTli p).silence = 0 ∧
    (powerTli p).silent = false ∧ (powerTli p).idle = false ∧
    (powerTli p).counters = { malformed := 0, unacked := 0, overflow := 0, displaced := 0 } := by
  unfold powerTli
  split <;> exact ⟨rfl, rfl, rfl, rfl, rfl, rfl, rfl, rfl, rfl⟩

/-- The points as the lock inputs show them: locked at the only position asserted, and FAILED with LOCK_LOST where none or
both are (R81). -/
theorem ofLocks (normal reverse : Bool) (g : Seg) :
    (normal = true ∧ reverse = false → stateOfLocks normal reverse = .lockedNormal ∧ faultOfLocks normal reverse g = none) ∧
    (normal = false ∧ reverse = true → stateOfLocks normal reverse = .lockedReverse ∧ faultOfLocks normal reverse g = none) ∧
    (normal = reverse →
      stateOfLocks normal reverse = .failed ∧ (faultOfLocks normal reverse g).map FaultRec.code = some .lockLost) := by
  cases normal <;> cases reverse <;> simp [stateOfLocks, faultOfLocks, soleLock, lockedAt]

/-- Settles O11: both resets put every block at its reset values and read the straps and inputs anew. -/
theorem powerOn : Obligations.PowerOn := by
  intro p s
  refine ⟨powerUp p s, exec_powerOn p s, exec_resetLine p s, powerUp_pending p s, ?_⟩
  obtain ⟨hin, hkept, hoffer, hpos, hpoints, hsilence, hsilent, hidle, hcount⟩ := powerTli_rest p
  have hclash : (powerTli p).clash = decide (p.strapAddr = 0) := by
    rw [powerTli_clash, decide_eq_decide]
    exact strapAddr_toNat_eq_zero_iff p
  rw [powerUp_tli]
  refine ⟨powerTli_addr p, powerTli_kind p, hclash, hin, hkept, hoffer, hpos, hpoints, hsilence, hsilent, hidle, ?_, hcount,
    fun h => ?_, fun h => ?_⟩
  · cases h : p.strapKind with
    | carriage => rw [powerUp_carriage s h]; rfl
    | points => rw [powerUp_points s h]; rfl
  · rw [powerUp_carriage s h]
    refine ⟨powerTli_txq_carriage h, ?_⟩
    simp [poweredBlocks, State.reset, h]
  · rw [powerUp_points s h]
    refine ⟨powerTli_txq_points h, ?_⟩
    have hlocks := ofLocks p.lockNormal p.lockReverse 0
    refine ⟨rfl, rfl, rfl, rfl, rfl, rfl, rfl, rfl, rfl, rfl, rfl, rfl, rfl, fun hne => ?_, rfl, rfl, rfl, rfl, hlocks⟩
    show (if (powerTli p).clash then none else some 0) = some 0
    rw [hclash, if_neg (by simpa using hne)]

/-- What a command but the two resets keeps, on a state its flags fit. -/
theorem sound_of_exec {c : Instr} {s t : State} (hs : Fits car pts s) (hspan : car = true ∨ s.ce.span = none)
    (hp : ∀ p, c ≠ .powerOn p) (hr : ∀ p, c ≠ .resetLine p) (h : exec c s = .next t) : Sound car pts (freedBy c) s t := by
  obtain ⟨u, hu, hsound⟩ := exec_continues c hs hspan hp hr
  rw [hu] at h
  exact Host.Outcome.next.inj h ▸ hsound

/-- Settles O8: each command keeps to the blocks of its station's personality, and one command each frees the record, the
latch and the gust input. -/
theorem blocksKept : Obligations.BlocksKept := by
  intro c s t h hp hr
  have hall : Sound true true (freedBy c) s t := sound_of_exec (.any s) (.inl rfl) hp hr h
  refine ⟨hall.addr, hall.kind, fun hkind => ?_, fun hkind hspan => ?_, fun hc => ?_, fun hc => ?_, fun hc => ?_,
    fun hc => hall.gust ?_⟩
  · have hfits : Fits true false s := ⟨fun _ => rfl, fun hpts => absurd (hkind.symm.trans hpts) (by decide)⟩
    exact (sound_of_exec hfits (.inl rfl) hp hr h).aside rfl
  · have hfits : Fits false true s := ⟨fun hcar => absurd (hkind.symm.trans hcar) (by decide), fun _ => rfl⟩
    obtain ⟨hos, hov, heu, hcr, hds, hcs, hce, hpu⟩ := (sound_of_exec hfits (.inr hspan) hp hr h).carriage rfl
    refine ⟨hos, hov, heu, hcr, hds, hcs, ?_, hce, hpu⟩
    rw [hce] at hspan
    exact hspan
  · refine hall.record ?_
    cases c with
    | commission src r l => exact absurd rfl (hc src r l)
    | _ => simp [freedBy]
  · refine hall.pointsRecord ?_
    cases c with
    | pointsCommission src r => exact absurd rfl (hc src r)
    | _ => simp [freedBy]
  · refine hall.latch ?_
    cases c with
    | resumeB src token => exact absurd rfl (hc src token)
    | _ => simp [freedBy]
  · cases c with
    | envelopeEvaluation g => exact absurd rfl (hc g)
    | _ => simp [freedBy]

end Sys2Proof.Machine
end

section
/-! The points node stays consistent (R81, R89, R98): every command keeps the motor, the timer, the grant and a clash record in
step with the points state (O7). -/

namespace Sys2Proof.Machine

open Sys2Proof

/-! ## The invariant, of any station -/

/-- `PointsInv` without its premise that the station is a points node. -/
def PointsOk (s : State) : Prop :=
  motorFits s.ts ∧ (∀ g, s.pa.grant = some g → s.ts.state = lockedAt g.pos) ∧
    (∀ f, s.pa.fault = some f → f.code = .addressClash → s.tli.clash = true ∧ s.ts.state = .failed)

/-- From `s` to `t` the points stay consistent. -/
structure Safe (s t : State) : Prop where
  keeps : PointsOk s → PointsOk t

namespace Safe

theorem refl (s : State) : Safe s s := ⟨id⟩

/-- The last of two operations, and what came before it. -/
theorem after {s t u : State} (k : Safe t u) (h : Safe s t) : Safe s u := ⟨k.keeps ∘ h.keeps⟩

theorem ite {c : Prop} [Decidable c] {s t u : State} (ht : c → Safe s t) (hu : ¬ c → Safe s u) :
    Safe s (if c then t else u) := by
  split
  case isTrue h => exact ht h
  case isFalse h => exact hu h

theorem foldl {α : Type} (f : State → α → State) (l : List α) (s : State) (h : ∀ t a, Safe t (f t a)) :
    Safe s (l.foldl f s) := by
  induction l generalizing s with
  | nil => exact refl s
  | cons a l ih => exact (ih _).after (h s a)

/-- A change that leaves the points, the fault record and a held clash alone, and grants nothing at another position. -/
theorem of_grant {s t : State} (hts : t.ts = s.ts)
    (hgrant : ∀ g, t.pa.grant = some g → ∃ k, s.pa.grant = some k ∧ k.pos = g.pos) (hfault : t.pa.fault = s.pa.fault)
    (hclash : s.tli.clash = true → t.tli.clash = true) : Safe s t := by
  refine ⟨fun ⟨hmotor, hlocked, hrecord⟩ => ?_⟩
  refine ⟨hts ▸ hmotor, fun g hg => ?_, fun f hf hcode => ?_⟩
  · obtain ⟨k, hk, hpos⟩ := hgrant g hg
    rw [hts, hlocked k hk, hpos]
  · obtain ⟨hheld, hfailed⟩ := hrecord f (hfault ▸ hf) hcode
    exact ⟨hclash hheld, hts ▸ hfailed⟩

theorem of_same {s t : State} (hts : t.ts = s.ts) (hgrant : t.pa.grant = s.pa.grant) (hfault : t.pa.fault = s.pa.fault)
    (hclash : s.tli.clash = true → t.tli.clash = true) : Safe s t :=
  of_grant hts (fun g hg => ⟨g, hgrant ▸ hg, rfl⟩) hfault hclash

/-- A change that leaves the points node's blocks and the clash flag alone. -/
theorem of_pa {s t : State} (hts : t.ts = s.ts) (hpa : t.pa = s.pa) (hclash : t.tli.clash = s.tli.clash) : Safe s t :=
  of_same hts (hpa ▸ rfl) (hpa ▸ rfl) (hclash ▸ id)

theorem setSv (s : State) (v : SegView) : Safe s (s.setSv v) := of_pa rfl rfl rfl

theorem setPa (s : State) (v : Arbiter) (hgrant : v.grant = s.pa.grant) (hfault : v.fault = s.pa.fault) :
    Safe s (s.setPa v) := of_same rfl hgrant hfault id

end Safe

theorem lockedPos_eq_some_iff {st : PointsState} {p : PointsPos} : lockedPos st = some p ↔ st = lockedAt p := by
  cases st <;> cases p <;> simp [lockedPos, lockedAt]

theorem lockedPos_lockedAt (p : PointsPos) : lockedPos (lockedAt p) = some p := lockedPos_eq_some_iff.mpr rfl

theorem lockedAt_ne_failed (p : PointsPos) : lockedAt p ≠ .failed := by
  cases p <;> decide

/-- While the points move, no grant is held and no clash record stands. -/
theorem PointsOk.moving {s : State} (h : PointsOk s) (hmove : lockedPos s.ts.state = none) (hlive : s.ts.state ≠ .failed) :
    s.pa.grant = none ∧ ∀ f, s.pa.fault = some f → f.code ≠ .addressClash := by
  obtain ⟨-, hlocked, hrecord⟩ := h
  refine ⟨Option.eq_none_iff_forall_ne_some.mpr fun g hg => ?_, fun f hf hcode => hlive (hrecord f hf hcode).2⟩
  rw [hlocked g hg, lockedPos_lockedAt] at hmove
  cases hmove

/-! ## Frames -/

theorem offer_safe (b : Block) (p : Bool) (g : TxTag) (f : Frame) (s : State) : Safe s (offer b p g f s) :=
  .of_pa (by simp) (by simp) (by simp)

theorem report_safe (b : Block) (u : Subject) (o : ReportOutcome) (n : Nat) (s : State) : Safe s (report b u o n s) :=
  .of_pa (by simp) (by simp) (by simp)

theorem queuePoints_safe (s : State) : Safe s (queuePoints s) := offer_safe ..

theorem noticeIfChanged_safe (s t : State) : Safe t (noticeIfChanged s t) :=
  .ite (fun _ => .refl t) (fun _ => queuePoints_safe t)

theorem answer_safe (x : Addr) (c : AnswerCode) (s : State) : Safe s (answer x c s) :=
  (queuePoints_safe _).after (.setPa s _ rfl rfl)

/-! ## The points -/

theorem motorFits_lockedAt (t : Throw) (p : PointsPos) : motorFits { t with state := lockedAt p, motor := .off, timer := none } := by
  cases p <;> exact ⟨rfl, rfl⟩

theorem pointsFail_safe (s : State) : Safe s (pointsFail s) :=
  ⟨fun ⟨_, _, hrecord⟩ =>
    ⟨⟨rfl, rfl⟩, fun g hg => (by cases hg), fun f hf hcode => ⟨(hrecord f hf hcode).1, rfl⟩⟩⟩

/-- Points that move, or whose record the caller has judged, lock with no grant held. -/
theorem PointsOk.lockAt {s : State} (p : PointsPos) (hgrant : s.pa.grant = none)
    (hrecord : ∀ f, s.pa.fault = some f → f.code ≠ .addressClash) : PointsOk (lockAt p s) := by
  refine ⟨motorFits_lockedAt s.ts p, fun g hg => ?_, fun f hf hcode => absurd hcode (hrecord f hf)⟩
  rw [lockAt_pa, hgrant] at hg
  cases hg

theorem raisePoints_safe {c : FaultCode} (hc : c ≠ .addressClash) (s : State) : Safe s (raisePoints c s) := by
  refine (report_safe _ _ _ _ _).after ⟨fun ⟨hmotor, hlocked, hrecord⟩ => ?_⟩
  refine ⟨hmotor, hlocked, fun f hf hcode => ?_⟩
  obtain rfl := Option.some.inj hf
  split at hcode
  case h_1 => exact absurd hcode hc
  case h_2 k hk => exact hrecord k hk hcode

theorem grantHead_safe {h : AskEntry} {rest : List AskEntry} {s : State} (hlocked : s.ts.state = lockedAt h.pos) :
    Safe s (grantHead h rest s) := by
  refine ⟨fun ⟨hmotor, _, hrecord⟩ => ⟨hmotor, fun g hg => ?_, hrecord⟩⟩
  obtain rfl := Option.some.inj hg
  exact hlocked

/-- A throw begins with no grant held, from points that are not FAILED. -/
theorem beginThrow_safe {p q at' : PointsPos} {s : State} (hgrant : s.pa.grant = none) (hlocked : s.ts.state = lockedAt at') :
    Safe s (beginThrow p q s) := by
  refine ⟨fun ⟨_, _, hrecord⟩ => ⟨⟨rfl, rfl⟩, fun g hg => ?_, fun f hf hcode => ?_⟩⟩
  · rw [beginThrow_pa, hgrant] at hg
    cases hg
  · exact absurd (hlocked.symm.trans (hrecord f hf hcode).2) (lockedAt_ne_failed at')

theorem serve_safe (s : State) : Safe s (serve s) := by
  unfold serve
  split
  case h_2 => exact .refl s
  case h_1 a rest at' _ hat =>
    have hlocked : s.ts.state = lockedAt at' := lockedPos_eq_some_iff.mp hat
    refine .ite (fun hopen => ?_) (fun _ => .refl s)
    simp only [Bool.and_eq_true, Option.isNone_iff_eq_none] at hopen
    obtain ⟨⟨⟨-, hnone⟩, -⟩, -⟩ := hopen
    exact .ite (fun hpos => grantHead_safe (hpos ▸ hlocked))
      (fun _ => .ite (fun _ => beginThrow_safe hnone hlocked) (fun _ => .refl s))

theorem serveAfter_safe (s t : State) : Safe t (serveAfter s t) := (noticeIfChanged_safe _ _).after (serve_safe t)

theorem lockServed_safe (s : State) : Safe s (lockServed s) := (queuePoints_safe _).after (serve_safe s)

theorem dropAsk_safe (x : Addr) (s : State) : Safe s (dropAsk x s) := .setPa s _ rfl rfl

theorem dropSegClaim_safe (x : Addr) (s : State) : Safe s (dropSegClaim x s) := .setSv s _

theorem followView_safe (s : State) : Safe s (followView s) := by
  refine .of_grant rfl (fun g hg => ?_) rfl id
  obtain ⟨k, hk, rfl⟩ := Option.map_eq_some_iff.mp hg
  exact ⟨k, hk, rfl⟩

theorem afterView_safe (s t : State) : Safe t (afterView s t) :=
  .ite (fun _ => noticeIfChanged_safe s t) (fun _ => (serveAfter_safe _ _).after (followView_safe t))

theorem freeGrant_safe (s : State) : Safe s (freeGrant s) := by
  refine (serveAfter_safe _ _).after ((queuePoints_safe _).after ?_)
  exact .of_grant rfl (fun g hg => by cases hg) rfl id

theorem withdrawClaim_safe (x : Addr) (s : State) : Safe s (withdrawClaim x s) := by
  unfold withdrawClaim
  exact .ite (fun _ => (freeGrant_safe _).after ((dropAsk_safe _ _).after (dropSegClaim_safe x s)))
    (fun _ => (afterView_safe _ _).after (dropSegClaim_safe x s))

theorem storeSegClaim_safe (x : Addr) (p : Ms) (st : ClaimState) (s : State) : Safe s (storeSegClaim x p st s) :=
  .ite (fun _ => .setSv s _) (fun _ => .ite (fun _ => .setSv s _) (fun _ => .setSv s _))

theorem applySegClaims_safe (src : Addr) (p : Ms) (items : List ClaimItem) (s : State) :
    Safe s (applySegClaims src p items s) := by
  unfold applySegClaims
  split
  · exact .refl s
  · exact .foldl _ _ _ fun _ _ => storeSegClaim_safe ..

theorem setUnavail_safe (p : PointsPos) (s : State) : Safe s (setUnavail p s) := by
  cases p <;> exact .setPa s _ rfl rfl

theorem refuseQueued_safe (p : PointsPos) (x : Addr) (s : State) : Safe s (refuseQueued p x s) :=
  (answer_safe _ _ _).after (.setPa s _ rfl rfl)

/-- Points that move lock with nothing granted. -/
theorem lockAt_safe {s : State} (p : PointsPos) (hmove : lockedPos s.ts.state = none) (hlive : s.ts.state ≠ .failed) :
    Safe s (lockAt p s) := by
  refine ⟨fun h => ?_⟩
  obtain ⟨hgrant, hrecord⟩ := h.moving hmove hlive
  exact .lockAt p hgrant hrecord

theorem recoverPrevious_safe {s : State} (hmove : lockedPos s.ts.state = none) (hlive : s.ts.state ≠ .failed) :
    Safe s (recoverPrevious s) := by
  have hlocked : Safe s (setUnavail s.ts.target (lockAt s.ts.previous s)) :=
    (setUnavail_safe _ _).after (lockAt_safe _ hmove hlive)
  unfold recoverPrevious
  refine .ite (fun _ => (lockServed_safe _).after hlocked) (fun _ => (serveAfter_safe _ _).after (Safe.after ?_ hlocked))
  exact .foldl _ _ _ fun _ _ => refuseQueued_safe ..

theorem lockArrives_safe (s t : State) : Safe t (lockArrives s t) := by
  unfold lockArrives
  split
  case h_1 hstate =>
    exact .ite (fun _ => (lockServed_safe _).after (lockAt_safe _ (by rw [hstate]; rfl) (by rw [hstate]; decide)))
      (fun _ => noticeIfChanged_safe s t)
  case h_2 hstate =>
    have hmove : lockedPos t.ts.state = none := by rw [hstate]; rfl
    have hlive : t.ts.state ≠ .failed := by rw [hstate]; decide
    exact .ite (fun _ => recoverPrevious_safe hmove hlive)
      (fun _ => .ite (fun _ => (lockServed_safe _).after (lockAt_safe _ hmove hlive)) (fun _ => noticeIfChanged_safe s t))
  case h_3 => exact noticeIfChanged_safe s t

/-! ## Arrivals -/

theorem setWatcher_safe (w : Option Watcher) (s : State) : Safe s (setWatcher w s) := by
  unfold setWatcher
  split
  · exact .of_pa rfl rfl rfl
  · exact .setPa s _ rfl rfl

theorem heard_safe (s : State) : Safe s (heard s) := .of_pa (by simp) (by simp) (by simp)

theorem countMalformed_safe (s : State) : Safe s (countMalformed s) := .of_pa rfl rfl rfl

/-- A clash leaves the points FAILED under the clash flag, so that its record may stand. -/
theorem addressClash_safe {s : State} (hkind : s.tli.kind = .points) : Safe s (addressClash s) := by
  refine ⟨fun _ => ?_⟩
  unfold addressClash
  simp only [hkind]
  refine (report_safe _ _ _ _ _).keeps ?_
  exact ⟨⟨rfl, rfl⟩, fun g hg => (by cases hg), fun f hf hcode => ⟨rfl, rfl⟩⟩

theorem hear_safe (v : Bool) (src : Addr) (f : Seen) (act : State → State) {s : State} (hkind : s.tli.kind = .points)
    (hact : ∀ t, t.tli.kind = .points → Safe t (act t)) : Safe s (hear v src f act s) := by
  have hheard : Safe s (watch src f (heard s)) := (setWatcher_safe _ _).after (heard_safe s)
  have hpoints : (watch src f (heard s)).tli.kind = .points := by simpa using hkind
  unfold hear
  refine .ite (fun _ => countMalformed_safe s) (fun _ => (hact _ ?_).after (Safe.after ?_ hheard))
  · split
    · simpa using hkind
    · exact hpoints
  · exact .ite (fun _ => addressClash_safe hpoints) (fun _ => .refl _)

theorem arrive_safe (src : Addr) (req : Request) {s : State} (hkind : s.tli.kind = .points) : Safe s (arrive src req s) :=
  hear_safe _ _ _ _ hkind fun t _ => .ite (fun _ => countMalformed_safe t)
    (fun _ => .ite (fun _ => .of_pa rfl rfl rfl) (fun _ => .of_pa rfl rfl rfl))

theorem deliver_safe (src : Addr) (req : Request) (act : State → State) {s : State} (hkind : s.tli.kind = .points)
    (hact : ∀ t, t.tli.kind = .points → Safe t (act t)) : Safe s (deliver src req act s) := by
  unfold deliver
  extract_lets t
  have harrived : Safe s t := .ite (fun _ => arrive_safe _ _ hkind) (fun _ => .refl s)
  have hpoints : t.tli.kind = .points := by
    dsimp only [t]
    split
    · simpa using hkind
    · exact hkind
  have htaken : Safe t (t.setTli { t.tli with inbound := t.tli.inbound.tail }) := .of_pa rfl rfl rfl
  exact .ite (fun _ => (hact (t.setTli { t.tli with inbound := t.tli.inbound.tail }) hpoints).after (htaken.after harrived))
    (fun _ => harrived)

/-- A command of the other personality does not occur. -/
theorem onKind_carriage_of_points {act : State → State} {s : State} (hkind : s.tli.kind = .points) :
    onKind .carriage act s = s := if_neg (by rw [hkind]; decide)

theorem foreign_safe {act : State → State} {s : State} (hkind : s.tli.kind = .points) : Safe s (onKind .carriage act s) := by
  rw [onKind_carriage_of_points hkind]
  exact .refl s

theorem onKind_points_of_points {act : State → State} {s : State} (hkind : s.tli.kind = .points) :
    onKind .points act s = act s := if_pos hkind

/-! ## Commands of a points node -/

theorem queueAsk_safe (e : AskEntry) (s : State) : Safe s (queueAsk e s) :=
  .ite (fun _ => .setPa s _ rfl rfl) (fun _ => .setPa s _ rfl rfl)

theorem answerAsk_safe (x : Addr) (pos : PointsPos) (cls oid : Nat) (s : State) : Safe s (answerAsk x pos cls oid s) := by
  unfold answerAsk
  split
  · exact .setPa s _ rfl rfl
  · exact (serveAfter_safe _ _).after ((answer_safe _ _ _).after
      (.ite (fun _ => queueAsk_safe _ s) (fun _ => dropAsk_safe x s)))

theorem takeAsk_safe (x : Addr) (pos : PointsPos) (cls oid : Nat) (s : State) : Safe s (takeAsk x pos cls oid s) :=
  (answerAsk_safe _ _ _ _ _).after (.ite (fun _ => freeGrant_safe s) (fun _ => .refl s))

theorem takeFree_safe (x : Addr) (s : State) : Safe s (takeFree x s) :=
  .ite (fun _ => freeGrant_safe s)
    (fun _ => .ite (fun _ => (serveAfter_safe _ _).after (dropAsk_safe x s)) (fun _ => .refl s))

theorem takePointsCommission_safe (src : Addr) (r : PointsComm) (s : State) : Safe s (takePointsCommission src r s) := by
  unfold takePointsCommission
  exact .ite (fun _ => report_safe ..) (fun _ => (queuePoints_safe _).after ((report_safe _ _ _ _ _).after
    (Safe.after (.setSv _ _) (.setPa s _ rfl rfl))))

theorem lockLost_safe (s : State) : Safe s (lockLost s) :=
  (queuePoints_safe _).after ((raisePoints_safe (by decide) _).after (pointsFail_safe s))

theorem clearMarks_safe (s : State) : Safe s (clearMarks s) := .setPa s _ rfl rfl

/-- CLEAR-FAULT locks FAILED points with the record cleared, and no grant is held on FAILED points. -/
theorem takePointsClear_safe (s : State) : Safe s (takePointsClear s) := by
  unfold takePointsClear
  extract_lets refuse accept
  split
  case isTrue => exact report_safe ..
  case isFalse =>
    split
    case h_1 => exact (report_safe _ _ _ _ _).after (clearMarks_safe s)
    case h_2 hfree =>
      split
      case h_1 => exact report_safe ..
      case h_2 p _ =>
        refine (serveAfter_safe _ _).after ((report_safe _ _ _ _ _).after ?_)
        refine ⟨fun ⟨_, hlocked, _⟩ => ⟨motorFits_lockedAt s.ts p, fun g hg => ?_, fun f hf => by cases hf⟩⟩
        rw [hlocked g hg, lockedPos_lockedAt] at hfree
        cases hfree

theorem motorFits_stateOfLocks (t : Throw) (normal reverse : Bool) :
    motorFits { t with state := stateOfLocks normal reverse, motor := .off, timer := none } := by
  unfold stateOfLocks
  split
  · exact motorFits_lockedAt t _
  · exact ⟨rfl, rfl⟩

theorem faultOfLocks_code {normal reverse : Bool} {g : Seg} {f : FaultRec} (h : faultOfLocks normal reverse g = some f) :
    f.code = .lockLost := by
  unfold faultOfLocks at h
  split at h
  · cases h
  · exact (Option.some.inj h) ▸ rfl

/-- A clash record gives way to what the lock inputs show (R101), so that none stands once the clash flag is clear; it stood
on FAILED points, which hold no grant. -/
theorem relock_ok {s : State} (hmotor : motorFits s.ts) (hlocked : ∀ g, s.pa.grant = some g → s.ts.state = lockedAt g.pos)
    (hrecord : ∀ f, s.pa.fault = some f → f.code = .addressClash → s.ts.state = .failed) : PointsOk (relock s) := by
  unfold relock
  split
  case isTrue hclash =>
    obtain ⟨f, hf, hcode⟩ : ∃ f, s.pa.fault = some f ∧ f.code = .addressClash := by
      simpa [Option.any_eq_true_iff_get, Option.eq_some_iff_get_eq] using hclash
    refine ⟨motorFits_stateOfLocks s.ts _ _, fun g hg => ?_, fun k hk hcode' => ?_⟩
    · exact absurd ((hlocked g hg).symm.trans (hrecord f hf hcode)) (lockedAt_ne_failed g.pos)
    · rw [faultOfLocks_code hk] at hcode'
      cases hcode'
  case isFalse hclash =>
    refine ⟨hmotor, hlocked, fun f hf hcode => absurd ?_ hclash⟩
    simp [hf, hcode]

theorem pointsReset_safe (s : State) : Safe s (pointsReset s) := by
  refine (queuePoints_safe _).after ⟨fun ⟨hmotor, hlocked, hrecord⟩ => relock_ok ?_ (fun g hg => ?_) (fun f hf hcode => ?_)⟩
  · simpa using hmotor
  · simp only [State.setPa_pa, State.setSv_pa, resetReport_pa, Option.map_eq_some_iff] at hg
    obtain ⟨k, hk, rfl⟩ := hg
    simpa using hlocked k hk
  · simp only [State.setPa_pa, State.setSv_pa, resetReport_pa] at hf
    simpa using (hrecord f hf hcode).2

theorem takePointsReset_safe (s : State) : Safe s (takePointsReset s) :=
  .ite (fun _ => report_safe ..) (fun _ => pointsReset_safe s)

/-! ## The line, and the commands of a carriage node -/

theorem settleRefresh_safe (s : State) : Safe s (settleRefresh s) := .of_pa (by simp) (by simp) (by simp)

theorem stopSending_safe (s : State) : Safe s (stopSending s) :=
  (settleRefresh_safe _).after (.of_pa rfl rfl (by simp [waitAgain]))

theorem departFrame_safe (e : TxEntry) (ack : Bool) (s : State) : Safe s (departFrame e ack s) := by
  unfold departFrame
  extract_lets t counters s1 s2 s3
  have hgone : Safe s s1 := .of_pa rfl rfl (by simp [s1, t])
  have hposition : Safe s s2 := by
    refine .ite (fun _ => ?_) (fun _ => hgone)
    split
    · exact (offer_safe _ _ _ _ _).after hgone
    · exact hgone
  have hpoints : Safe s s3 := by
    refine .ite (fun _ => ?_) (fun _ => hposition)
    split
    · exact (offer_safe _ _ _ _ _).after hposition
    · exact hposition
  exact (settleRefresh_safe _).after hpoints

theorem reportDeparture_safe (e : TxEntry) (ack : Bool) (s : State) : Safe s (reportDeparture e ack s) := by
  have habort (r : AbortReason) (g : Seg) (v : Addr) : Safe s (spanAbort r g v s) :=
    .of_pa (by simp) (by simp) (by simp)
  have hce (v : ClaimEngine) : Safe s (s.setCe v) := .of_pa rfl rfl rfl
  have hlate : Safe s (lateDeparture e ack s) := by
    unfold lateDeparture
    split
    · exact .of_pa (by simp) (by simp) (by simp)
    · exact .ite (fun _ => .of_pa (by simp) (by simp) (by simp)) (fun _ => .refl s)
    · exact .refl s
  unfold reportDeparture
  refine .ite (fun _ => hlate) (fun _ => ?_)
  split
  · exact .refl s
  · split
    · exact hce _
    · exact .ite (fun _ => hce _) (fun _ => habort ..)
    · exact .refl s

theorem takeQuery_safe (s : State) : Safe s (takeQuery s) := by
  unfold takeQuery
  split
  · exact .refl s
  · split <;> exact offer_safe ..

theorem clearHolder_safe (src h : Addr) {s : State} (hkind : s.tli.kind = .points) : Safe s (clearHolder src h s) := by
  unfold clearHolder
  rw [hkind]
  exact withdrawClaim_safe h s

theorem resumePoints_safe (s : State) : Safe s (resumePoints s) :=
  .ite (fun _ => .refl s) (fun _ => (serveAfter_safe _ _).after (.setPa s _ rfl rfl))

/-- The next state of an outcome is consistent when `s` is. -/
def GoesOnSafe (s : State) (o : Host.Outcome State Fault Refusal) : Prop := ∃ t, o = .next t ∧ Safe s t

theorem GoesOnSafe.next {s t : State} (h : Safe s t) : GoesOnSafe s (.next t) := ⟨t, rfl, h⟩

section PointsNode

variable {s : State} (hkind : s.tli.kind = .points)

include hkind

/-- A carriage node's command does not occur on a points node. -/
theorem GoesOnSafe.foreign {act : State → State} : GoesOnSafe s (.next (onKind .carriage act s)) :=
  .next (foreign_safe hkind)

theorem GoesOnSafe.event {act : State → State} (h : Safe s (act s)) : GoesOnSafe s (.next (onKind .points act s)) :=
  .next (onKind_points_of_points hkind ▸ h)

/-- A carriage node's request is answered WRONG_KIND. -/
theorem GoesOnSafe.refused {src : Addr} {req : Request} {b : Subject} {act : State → State} :
    GoesOnSafe s (.next (deliver src req (fun t =>
      match t.tli.kind with
      | .carriage => act t
      | .points => wrongKind b t) s)) :=
  .next (deliver_safe _ _ _ hkind fun t ht => by rw [ht]; exact report_safe ..)

theorem GoesOnSafe.request {src : Addr} {req : Request} {b : Subject} {act : State → State} (h : ∀ t, Safe t (act t)) :
    GoesOnSafe s (.next (deliver src req (fun t =>
      match t.tli.kind with
      | .carriage => wrongKind b t
      | .points => act t) s)) :=
  .next (deliver_safe _ _ _ hkind fun t ht => by rw [ht]; exact h t)

/-- A frame that a points node hears and does not use. -/
theorem GoesOnSafe.unused {v : Bool} {src : Addr} {f : Seen} {act : State → State} :
    GoesOnSafe s (.next (hear v src f (onKind .carriage act) s)) :=
  .next (hear_safe _ _ _ _ hkind fun _ ht => foreign_safe ht)

theorem execClearStale_safe (src : Addr) (broadcast : Bool) (holder : Addr) :
    GoesOnSafe s (execClearStale src broadcast holder s) := by
  refine .next (.ite (fun _ => hear_safe _ _ _ _ hkind fun t ht => ?_) (fun _ => deliver_safe _ _ _ hkind fun t ht => ?_))
  · exact .ite (fun _ => clearHolder_safe src holder ht) (fun _ => countMalformed_safe t)
  · exact (report_safe _ _ _ _ _).after (clearHolder_safe src holder ht)

theorem execResumeB_safe (src : Addr) (token : Nat) : GoesOnSafe s (execResumeB src token s) := by
  refine .next (hear_safe _ _ _ _ hkind fun t ht => .ite (fun _ => ?_) (fun _ => .refl t))
  rw [ht]
  exact resumePoints_safe t

omit hkind in
theorem execLineIdle_safe : GoesOnSafe s (execLineIdle s) := by
  have hline (v : Tli) (h : v.clash = s.tli.clash) : Safe s (s.setTli v) := .of_pa rfl rfl h
  refine .next (.ite (fun _ => .refl s) (fun _ => ?_))
  split
  · exact hline _ rfl
  · exact .ite (fun _ => hline _ rfl) (fun _ => hline _ rfl)

omit hkind in
theorem execArbitrationLost_safe (cls : Nat) (src : Addr) : GoesOnSafe s (execArbitrationLost cls src s) := by
  refine .next ?_
  split
  · exact .refl s
  · exact .ite (fun _ => stopSending_safe s) (fun _ => .refl s)

omit hkind in
theorem execBitError_safe (b : Bool) : GoesOnSafe s (execBitError b s) := by
  refine .next ?_
  split
  · exact .refl s
  · exact .ite (fun _ => (countMalformed_safe _).after (stopSending_safe s)) (fun _ => stopSending_safe s)

omit hkind in
theorem execFrameDeparture_safe (ack : Bool) : GoesOnSafe s (execFrameDeparture ack s) := by
  refine .next ?_
  split
  · exact .refl s
  · exact (reportDeparture_safe _ _ _).after (departFrame_safe _ _ s)

theorem execLineSilence_safe : GoesOnSafe s (execLineSilence s) := by
  refine .next (.ite (fun _ => .refl s) (fun _ => ?_))
  rw [hkind]
  exact .of_pa rfl rfl rfl

theorem execLockInputChange_safe (normal reverse : Bool) : GoesOnSafe s (execLockInputChange normal reverse s) := by
  refine .event hkind ?_
  have hinputs : Safe s (s.setTs { s.ts with normalLock := normal, reverseLock := reverse }) := ⟨id⟩
  split
  · exact .ite (fun _ => hinputs) (fun _ => (lockLost_safe _).after hinputs)
  · exact (lockArrives_safe s _).after hinputs

/-- A recovery begins with no grant held, from points that are not FAILED. -/
theorem execThrowTimeout_safe : GoesOnSafe s (execThrowTimeout s) := by
  refine .event hkind (.ite (fun hstate => (lockArrives_safe s _).after ⟨fun h => ?_⟩) (fun _ => .refl s))
  obtain ⟨hgrant, hrecord⟩ := h.moving (by rw [hstate]; rfl) (by rw [hstate]; decide)
  refine ⟨⟨rfl, rfl⟩, fun g hg => ?_, fun f hf hcode => absurd hcode (hrecord f hf)⟩
  rw [State.setTs_pa, hgrant] at hg
  cases hg

theorem execRecoveryTimeout_safe : GoesOnSafe s (execRecoveryTimeout s) :=
  .event hkind (.ite
    (fun _ => (queuePoints_safe _).after ((raisePoints_safe (by decide) _).after (pointsFail_safe s))) (fun _ => .refl s))

end PointsNode

/-- Every command but the two resets keeps a points node consistent. -/
theorem exec_safe (c : Instr) {s : State} (hkind : s.tli.kind = .points) (hp : ∀ p, c ≠ .powerOn p)
    (hr : ∀ p, c ≠ .resetLine p) : GoesOnSafe s (exec c s) := by
  cases c with
  | powerOn p => exact absurd rfl (hp p)
  | resetLine p => exact absurd rfl (hr p)
  | inboundRequestTaken src req => exact .next (arrive_safe src req hkind)
  | requestToOtherStation src target =>
    exact .next (.ite (fun _ => .refl s) (fun _ => hear_safe _ _ _ _ hkind fun t _ => .refl t))
  | replyHeard src target => exact .next (hear_safe _ _ _ _ hkind fun t _ => .refl t)
  | resumeA src token => exact .next (hear_safe _ _ _ _ hkind fun t _ => .refl t)
  | resumeB src token => exact execResumeB_safe hkind src token
  | order src o => exact .refused hkind
  | stop src c => exact .refused hkind
  | drop src => exact .refused hkind
  | locate src l => exact .refused hkind
  | commission src r l => exact .next (deliver_safe _ _ _ hkind fun _ ht => foreign_safe ht)
  | pointsCommission src r =>
    exact .next (deliver_safe _ _ _ hkind fun t ht => onKind_points_of_points ht ▸ takePointsCommission_safe src r t)
  | pointsClearFault src => exact .event hkind (deliver_safe _ _ _ hkind fun t _ => takePointsClear_safe t)
  | pointsStationReset src => exact .event hkind (deliver_safe _ _ _ hkind fun t _ => takePointsReset_safe t)
  | clearStale src broadcast holder => exact execClearStale_safe hkind src broadcast holder
  | query src => exact .next (deliver_safe _ _ _ hkind fun t _ => takeQuery_safe t)
  | pointsAsk src pos cls oid => exact .request hkind (takeAsk_safe src pos cls oid)
  | pointsFree src => exact .request hkind (takeFree_safe src)
  | pointsHalt src origin reason => exact .event hkind (hear_safe _ _ _ _ hkind fun t _ => .setPa t _ rfl rfl)
  | pointsNodeClaim src cls period items =>
    exact .event hkind (hear_safe _ _ _ _ hkind fun t _ => (afterView_safe t _).after (applySegClaims_safe src period items t))
  | pointsNodeRelease src segs =>
    exact .event hkind (hear_safe _ _ _ _ hkind fun t _ => .ite (fun _ => withdrawClaim_safe src t) (fun _ => .refl t))
  | object src target seg stated => exact .unused hkind
  | points src n => exact .unused hkind
  | position src n => exact .unused hkind
  | lineIdle => exact execLineIdle_safe
  | arbitrationLost cls src => exact execArbitrationLost_safe cls src
  | bitError b => exact execBitError_safe b
  | frameDeparture ack => exact execFrameDeparture_safe ack
  | segmentViewEntryStale holder => exact .event hkind ((afterView_safe s _).after (.setSv s _))
  | pointsListenInExpiry => exact .event hkind (.ite (fun _ => .refl s) (fun _ => (serveAfter_safe s _).after (.setSv s _)))
  | overflowHoldExpiry => exact .event hkind (.ite (fun _ => .refl s) (fun _ => (serveAfter_safe s _).after (.setSv s _)))
  | lineSilence => exact execLineSilence_safe hkind
  | resumeWindowExpiry => exact .next (setWatcher_safe none s)
  | pointsPeriodicNotice =>
    exact .event hkind (.ite (fun _ => .refl s) (fun _ => (offer_safe _ _ _ _ _).after (.setPa s _ rfl rfl)))
  | lockInputChange normal reverse => exact execLockInputChange_safe hkind normal reverse
  | throwTimeout => exact execThrowTimeout_safe hkind
  | recoveryTimeout => exact execRecoveryTimeout_safe hkind
  | frameCheckFailed bits => exact .next (.ite (fun _ => countMalformed_safe s) (fun _ => .refl s))
  | _ => exact .foreign hkind

theorem pointsInv_iff (s : State) : PointsInv s ↔ (s.tli.kind = .points → PointsOk s) := Iff.rfl

theorem exec_pointsInv (c : Instr) (s t : State) (hs : PointsInv s) (h : exec c s = .next t) : PointsInv t := by
  by_cases hp : ∃ p, c = .powerOn p
  · obtain ⟨p, rfl⟩ := hp
    obtain rfl := Host.Outcome.next.inj h
    exact powerUp_points_inv p s
  · by_cases hr : ∃ p, c = .resetLine p
    · obtain ⟨p, rfl⟩ := hr
      obtain rfl := Host.Outcome.next.inj h
      exact powerUp_points_inv p s
    · rw [not_exists] at hp hr
      intro hkind
      have hkind' : s.tli.kind = .points := (sound_of_exec (.any s) (.inl rfl) hp hr h).kind ▸ hkind
      obtain ⟨u, hu, hsafe⟩ := exec_safe c hkind' hp hr
      rw [hu] at h
      obtain rfl := Host.Outcome.next.inj h
      exact hsafe.keeps (hs hkind')

theorem motorFits_runTimer {t : Throw} (h : motorFits t) (top : Ms) : motorFits { t with timer := runTimer top t.timer } := by
  unfold motorFits at h ⊢
  cases hstate : t.state <;> simp_all [runTimer]

theorem tick_pointsInv (s : State) (hs : PointsInv s) : PointsInv (tick s) := by
  intro hkind
  have hkind' : s.tli.kind = .points := (tick_sound (fr := .none) s).kind ▸ hkind
  obtain ⟨hmotor, hlocked, hrecord⟩ := hs hkind'
  rw [tick_points hkind', tickedLine_eq]
  exact ⟨motorFits_runTimer hmotor _, hlocked, hrecord⟩

/-- Settles O7: each operation of the points node sets the motor, the timer, the grant and the record with the points state,
and no command of a carriage node reaches them. -/
theorem pointsInvKept : Obligations.PointsInvKept := fun _ _ hs h =>
  step_keeps (fun _ _ => id) exec_pointsInv tick_pointsInv hs h

end Sys2Proof.Machine
end

section
/-! Frames heard and frames counted: what hearing changes, malformed frames, the ack slot, and requests judged at their check bit
(R183 to R188). -/

namespace Sys2Proof.Machine

open Sys2Proof

/-- Equal states are equal outcomes. -/
theorem next_congr {s t : State} (h : s = t) : (.next s : Host.Outcome State Fault Refusal) = .next t := congrArg _ h

/-! ## Hearing -/

/-- Hearing a frame, field by field of the blocks it touches (R181, R185, R191). -/
theorem heard_carriage {s : State} (hkind : s.tli.kind = .carriage) : heard s =
    { s with tli := { s.tli with silence := 0, silent := false, idle := false },
             ov := { s.ov with listen := if s.tli.silent then some 0 else s.ov.listen } } := by
  unfold heard startListen
  cases hsilent : s.tli.silent with
  | false => rfl
  | true => simp [hkind, State.setTli, State.setOv]

theorem heard_points {s : State} (hkind : s.tli.kind = .points) : heard s =
    { s with tli := { s.tli with silence := 0, silent := false, idle := false },
             sv := { s.sv with listen := if s.tli.silent then some 0 else s.sv.listen } } := by
  unfold heard startListen
  cases hsilent : s.tli.silent with
  | false => rfl
  | true => simp [hkind, State.setTli, State.setSv]

theorem setWatcher_carriage {s : State} (w : Option Watcher) (hkind : s.tli.kind = .carriage) :
    setWatcher w s = s.setCs { s.cs with watcher := w } := by
  simp [setWatcher, hkind]

theorem setWatcher_points {s : State} (w : Option Watcher) (hkind : s.tli.kind = .points) :
    setWatcher w s = s.setPa { s.pa with watcher := w } := by
  simp [setWatcher, hkind]

theorem quiet_carriage {s : State} (hkind : s.tli.kind = .carriage) : quiet s =
    { s with tli := { s.tli with silence := 0, silent := false, idle := false },
             ov := { s.ov with listen := if s.tli.silent then some 0 else s.ov.listen },
             cs := { s.cs with watcher := none } } := by
  rw [quiet, heard_carriage hkind, setWatcher_carriage none (by exact hkind)]
  rfl

theorem quiet_points {s : State} (hkind : s.tli.kind = .points) : quiet s =
    { s with tli := { s.tli with silence := 0, silent := false, idle := false },
             sv := { s.sv with listen := if s.tli.silent then some 0 else s.sv.listen },
             pa := { s.pa with watcher := none } } := by
  rw [quiet, heard_points hkind, setWatcher_points none (by exact hkind)]
  rfl

theorem onKind_carriage_quiet {s : State} {act : State → State} (hkind : s.tli.kind = .points) :
    onKind .carriage act (quiet s) = quiet s := onKind_carriage_of_points (by simpa using hkind)

/-- The interface once a frame is heard: the silence ends and the line stands idle no more (R181, R191). -/
theorem quiet_tli (s : State) : (quiet s).tli = { s.tli with silence := 0, silent := false, idle := false } := by
  cases hkind : s.tli.kind with
  | carriage => rw [quiet_carriage hkind]
  | points => rw [quiet_points hkind]

@[simp] theorem quiet_tli_inbound (s : State) : (quiet s).tli.inbound = s.tli.inbound := by rw [quiet_tli]
@[simp] theorem quiet_tli_txq (s : State) : (quiet s).tli.txq = s.tli.txq := by rw [quiet_tli]
@[simp] theorem quiet_tli_kept (s : State) : (quiet s).tli.kept = s.tli.kept := by rw [quiet_tli]
@[simp] theorem quiet_tli_clash (s : State) : (quiet s).tli.clash = s.tli.clash := by rw [quiet_tli]
@[simp] theorem quiet_tli_silent (s : State) : (quiet s).tli.silent = false := by rw [quiet_tli]

/-- Of the supervisor, hearing disarms the watcher alone (R169). -/
theorem quiet_cs (s : State) : (quiet s).cs = { s.cs with watcher := (quiet s).cs.watcher } := by
  cases hkind : s.tli.kind with
  | carriage => rw [quiet_carriage hkind]
  | points => rw [quiet_points hkind]

/-- Of the arbiter, hearing disarms the watcher alone (R169). -/
theorem quiet_pa (s : State) : (quiet s).pa = { s.pa with watcher := (quiet s).pa.watcher } := by
  cases hkind : s.tli.kind with
  | carriage => rw [quiet_carriage hkind]
  | points => rw [quiet_points hkind]

@[simp] theorem quiet_cs_comm (s : State) : (quiet s).cs.comm = s.cs.comm := by rw [quiet_cs]
@[simp] theorem quiet_cs_latch (s : State) : (quiet s).cs.latch = s.cs.latch := by rw [quiet_cs]
@[simp] theorem quiet_cs_fault (s : State) : (quiet s).cs.fault = s.cs.fault := by rw [quiet_cs]
@[simp] theorem quiet_pa_comm (s : State) : (quiet s).pa.comm = s.pa.comm := by rw [quiet_pa]
@[simp] theorem quiet_pa_latch (s : State) : (quiet s).pa.latch = s.pa.latch := by rw [quiet_pa]
@[simp] theorem quiet_pa_fault (s : State) : (quiet s).pa.fault = s.pa.fault := by rw [quiet_pa]
@[simp] theorem quiet_ts (s : State) : (quiet s).ts = s.ts := by simp [quiet]

/-- Settles O14: hearing opens into its fields by personality, and the frames named reach no block. -/
theorem frameHeard : Obligations.FrameHeard := by
  refine ⟨fun s => ⟨quiet_carriage, quiet_points⟩, fun src target s hfrom htarget => ⟨fun hne => ⟨?_, ?_⟩, fun hkind => ?_⟩⟩
  · exact next_congr ((if_neg hne).trans (hear_of_fromOther id hfrom htarget))
  · have hvalid : (addrOk target && decide (target ≠ s.tli.addr)) = true := by simp [htarget, hne]
    refine next_congr ?_
    rw [Bool.and_assoc, hear_of_fromOther id hfrom hvalid]
    rfl
  · have hunused (act : State → State) : onKind .carriage act (quiet s) = quiet s :=
      onKind_carriage_of_points (by simpa using hkind)
    refine ⟨fun g st hg => next_congr ?_, fun n hn => next_congr ((hear_of_fromOther _ hfrom hn).trans (hunused _)),
      fun n hn => next_congr ((hear_of_fromOther _ hfrom hn).trans (hunused _))⟩
    have hvalid : (addrOk target && segOk g) = true := by simp [htarget, hg]
    rw [Bool.and_assoc, hear_of_fromOther _ hfrom hvalid]
    exact hunused _

/-! ## Malformed frames -/

/-- A frame malformed by its fields is counted and nothing else. -/
theorem hear_malformed {a b : Bool} {src : Addr} {f : Seen} {act : State → State} {s : State} (h : a = false ∨ b = false) :
    hear (a && b) src f act s = countMalformed s := by
  have : (a && b) = false := by rcases h with h | h <;> simp [h]
  rw [this]
  rfl

/-- A request malformed by its sender, its fields or its length is counted and nothing else. -/
theorem arrive_malformed {src : Addr} {req : Request} {s : State}
    (h : addrOk src = false ∨ req.wf = false ∨ fits s.tli.kind req = false) : arrive src req s = countMalformed s := by
  unfold arrive
  refine hear_malformed (.inl ?_)
  rcases h with h | h | h <;> simp [h]

/-! ## The ack slot -/

theorem noticeAcked_of_other {valid : Bool} {src : Addr} {s : State} (hfrom : fromOther src s = true) :
    noticeAcked (addrOk src && valid) src s = valid := by
  obtain ⟨haddr, hne⟩ := (fromOther_iff src s).mp hfrom
  simp [noticeAcked, haddr, hne]

/-- A well-formed request from another station is judged in the state that has heard it. -/
theorem arrive_of_fromOther {src : Addr} {req : Request} {s : State} (hfrom : fromOther src s = true) (hwf : req.wf = true)
    (hfits : fits s.tli.kind req = true) (haddr : s.tli.addr ≠ 0) :
    arrive src req s =
      if !senderOk src req (quiet s) then countMalformed (quiet s)
      else if s.tli.inbound.length < 2 then
        (quiet s).setTli { (quiet s).tli with inbound := s.tli.inbound ++ [{ src := src, req := req }] }
      else countOverflow (quiet s) := by
  have hvalid : (req.wf && fits s.tli.kind req && decide (s.tli.addr ≠ 0)) = true := by simp [hwf, hfits, haddr]
  unfold arrive
  rw [Bool.and_assoc, Bool.and_assoc, ← Bool.and_assoc req.wf, hear_of_fromOther _ hfrom hvalid]
  dsimp only
  rw [quiet_tli_inbound]
  rfl

theorem console_quiet (s : State) : console (quiet s) = console s := by
  unfold console
  simp

theorem commissioned_quiet (s : State) : commissioned (quiet s) = commissioned s := by
  simp [commissioned]

theorem senderOk_quiet (src : Addr) (req : Request) (s : State) : senderOk src req (quiet s) = senderOk src req s := by
  simp [senderOk, console_quiet, commissioned_quiet]

theorem countMalformed_eq (s : State) : countMalformed s = s.setTli { s.tli with
    idle := false, counters := { s.tli.counters with malformed := min (s.tli.counters.malformed + 1) 65535 } } := rfl

/-- The slot of a request is driven exactly when the request joins the inbound queue (R186, R187). -/
theorem ackDriven_request_iff {src : Addr} {req : Request} {s : State} (hclash : s.tli.clash = false)
    (hfrom : fromOther src s = true) (hwf : req.wf = true) (hfits : fits s.tli.kind req = true) (haddr : s.tli.addr ≠ 0) :
    ackDriven (.inboundRequestTaken src req) s = true ↔
      ∃ t, exec (.inboundRequestTaken src req) s = .next t ∧ t.tli.inbound = s.tli.inbound ++ [⟨src, req⟩] := by
  obtain ⟨hsrc, hne⟩ := (fromOther_iff src s).mp hfrom
  have hacked : ackDriven (.inboundRequestTaken src req) s =
      (senderOk src req s && decide (s.tli.inbound.length < 2)) := by
    simp [ackDriven, requestAcked, hclash, hsrc, hwf, hfits, haddr, hne, Config.inboundCap]
  have hnext (t : State) : exec (.inboundRequestTaken src req) s = .next t ↔ arrive src req s = t :=
    ⟨Host.Outcome.next.inj, next_congr⟩
  simp only [hacked, hnext, exists_eq_left', arrive_of_fromOther hfrom hwf hfits haddr, senderOk_quiet]
  cases senderOk src req s with
  | false => simp [countMalformed]
  | true =>
    by_cases hroom : s.tli.inbound.length < 2
    · simp [hroom]
    · simp [hroom, countOverflow]

/-- Settles O16: every malformed frame fails the test that `hear` makes first, and each ack slot is that same test. -/
theorem malformedAndAcked : Obligations.MalformedAndAcked := by
  refine ⟨fun src s => ?_, fun src target s => ?_⟩
  · refine ⟨fun req h => ?_, fun target hne h => ?_, fun target h => ?_, fun token h => ?_, fun h hbad => ?_,
      fun target g st h => ?_, fun n h => ?_, fun n h => ?_, fun hkind => ⟨fun o r h => ?_, fun c p items h => ?_, fun segs h => ?_⟩,
      fun hkind => ⟨fun o r h => ?_, fun c p items h => ?_, fun segs h => ?_⟩, fun bits => ⟨fun h => ?_, fun h => ?_⟩⟩
    · exact next_congr (arrive_malformed (h.imp_right .inl))
    · exact next_congr ((if_neg hne).trans (hear_malformed h))
    · refine next_congr ?_
      rw [Bool.and_assoc]
      exact hear_malformed (h.imp_right fun h => by rcases h with h | h <;> simp [h])
    · have hbad : addrOk src = false ∨ decide (token ≤ 65535) = false := h.imp_right fun h => by simpa using h
      exact ⟨next_congr (hear_malformed hbad), next_congr (hear_malformed hbad)⟩
    · exact next_congr ((if_pos rfl).trans (hear_malformed (hbad.imp_right fun h => by simpa using h)))
    · refine next_congr ?_
      rw [Bool.and_assoc]
      exact hear_malformed (h.imp_right fun h => by rcases h with h | h <;> simp [h])
    · exact next_congr (hear_malformed h)
    · exact next_congr (hear_malformed h)
    iterate 6 exact next_congr ((onKind_of_eq _ hkind).trans (hear_malformed h))
    · exact next_congr (if_pos (by simpa using h))
    · exact next_congr (if_neg (by simpa [Option.isSome_iff_ne_none] using h))
  · refine ⟨fun c hclash => by simp [ackDriven, hclash], by simp [ackDriven], by simp [ackDriven], fun hclash hfrom => ?_⟩
    have hslot (c : Instr) (v : Bool) (h : ackDriven c s = (!s.tli.clash && noticeAcked (addrOk src && v) src s)) :
        ackDriven c s = v := by
      rw [h, hclash, noticeAcked_of_other hfrom]
      rfl
    refine ⟨fun o r => ⟨hslot _ _ rfl, hslot _ _ rfl⟩, fun token => ⟨hslot _ _ rfl, hslot _ _ rfl⟩, fun h => hslot _ _ rfl,
      fun c p items => ⟨hslot _ _ rfl, hslot _ _ rfl⟩, fun segs => ⟨hslot _ _ rfl, hslot _ _ rfl⟩, fun g st => hslot _ _ ?_,
      fun n => hslot _ _ rfl, fun n => hslot _ _ rfl, fun req hwf hfits haddr => ?_⟩
    · simp only [ackDriven, Bool.and_assoc]
    · exact ackDriven_request_iff hclash hfrom hwf hfits haddr

/-! ## Requests judged -/

/-- A delivery of the other personality's COMMISSION, not at the front of the queue, is its arrival alone (assumption 9). -/
theorem deliver_misfit {src : Addr} {req : Request} {act : State → State} {s : State}
    (hmisfit : fits s.tli.kind req = false) (hfront : s.tli.inbound.head? ≠ some ⟨src, req⟩) :
    deliver src req act s = countMalformed s := by
  have harrive : arrive src req s = countMalformed s := arrive_malformed (.inr (.inr hmisfit))
  unfold deliver
  rw [if_pos (show (s.tli.inbound.isEmpty || !fits s.tli.kind req) = true by simp [hmisfit]), harrive]
  exact if_neg fun h => hfront h.1

/-- Settles O13: a well-formed request is judged in the state that has heard it, and a COMMISSION of the other personality has
the wrong length. -/
theorem requestJudged : Obligations.RequestJudged := by
  refine ⟨fun src req s hfrom hwf hfits haddr => ⟨fun hok => ⟨fun hroom => ?_, fun hfull => ?_⟩, fun hbad => ?_⟩,
    fun src s => ⟨fun hkind r l => ?_, fun hkind r => ?_⟩, fun src req s hkind => ?_, fun src req s hkind => ?_⟩
  · refine next_congr ?_
    rw [arrive_of_fromOther hfrom hwf hfits haddr, senderOk_quiet, hok, if_neg (by decide), if_pos hroom]
  · refine next_congr ?_
    rw [arrive_of_fromOther hfrom hwf hfits haddr, senderOk_quiet, hok, if_neg (by decide), if_neg (by omega), countOverflow,
      quiet_tli_counters]
    rfl
  · refine next_congr ?_
    rw [arrive_of_fromOther hfrom hwf hfits haddr, senderOk_quiet, hbad, ← countMalformed_quiet]
    rfl
  · have hmisfit : fits s.tli.kind (.commission r l) = false := by simp [fits, hkind]
    exact ⟨next_congr (arrive_malformed (.inr (.inr hmisfit))), fun h => next_congr (deliver_misfit hmisfit h)⟩
  · have hmisfit : fits s.tli.kind (.pointsCommission r) = false := by simp [fits, hkind]
    exact ⟨next_congr (arrive_malformed (.inr (.inr hmisfit))), fun h => next_congr (deliver_misfit hmisfit h)⟩
  · simp only [senderOk, commissioned, console_carriage hkind, hkind]
    refine ⟨fun h => by simp [h], fun h r l => by simp [h], fun h hcomm => ?_, fun h hc hp => ?_⟩
    · cases req <;> simp [h, hcomm]
    · cases req with
      | commission r l => exact absurd rfl (hc r l)
      | pointsCommission r => exact absurd rfl (hp r)
      | _ => simp [h]
  · simp only [senderOk, commissioned, console_points hkind, hkind]
    refine ⟨fun h => by simp [h], fun h r => by simp [h], fun pos cls oid => by simp, by simp, fun h hask hfree hcomm => ?_⟩
    cases req with
    | pointsAsk pos cls oid => exact absurd rfl (hask pos cls oid)
    | pointsFree => exact absurd rfl hfree
    | commission r l => simp [h, hcomm.resolve_right fun h => h.1 r l rfl]
    | pointsCommission r => simp [h, hcomm.resolve_right fun h => h.2 r rfl]
    | _ => simp [h]

end Sys2Proof.Machine
end

section
/-! The transmit queue (R190, R193): what becomes of a frame offered, row by row, and the order of the REPORTs that wait (O12). -/

namespace Sys2Proof.Machine

open Sys2Proof

/-! ## The rows of R190 -/

theorem offerTli_of_clash {e : TxEntry} {t : Tli} (h : t.clash = true) : offerTli e t = t := if_pos h

theorem waitsBehind_iff (e : TxEntry) (kept : List TxEntry) : waitsBehind e kept = true ↔ ∃ k ∈ kept, k.block = e.block := by
  simp [waitsBehind]

theorem any_and_eq_false {α : Type} {l : List α} {p q : α → Bool} (h : ∀ k ∈ l, p k = false) :
    ¬ (l.any fun k => p k && q k) = true := by
  simp only [List.any_eq_true, not_exists, not_and]
  intro k hk
  simp [h k hk]

/-- A frame with no like in the queue takes the last rows of R190. -/
theorem offerTli_of_no_like {e : TxEntry} {t : Tli} (hclash : t.clash = false)
    (hposition : isPosition e = true → ∀ k ∈ t.txq, isPosition k = false)
    (hpoints : isPeriodicPoints e = true → ∀ k ∈ t.txq, isPeriodicPoints k = false) : offerTli e t = offerPlain e t := by
  unfold offerTli
  rw [if_neg (by simp [hclash])]
  split
  case h_1 n hframe =>
    have hnone := hposition (by simp [isPosition, hframe])
    rw [if_neg (any_and_eq_false hnone), if_neg (by simpa using hnone)]
  case h_2 n hframe =>
    cases hperiodic : e.periodic with
    | false => rfl
    | true =>
      have hnone := hpoints (by simp [isPeriodicPoints, hframe, hperiodic])
      rw [Bool.true_and, Bool.true_and, if_neg (any_and_eq_false hnone), if_neg (by simpa using hnone)]
  case h_3 => rfl

theorem isPeriodicPoints_of_not_periodic {e : TxEntry} (h : e.periodic = false) : isPeriodicPoints e = false := by
  unfold isPeriodicPoints
  split <;> simp [h]

theorem offerTli_of_nonperiodic {e : TxEntry} {t : Tli} (hclash : t.clash = false) (hperiodic : e.periodic = false)
    (hposition : isPosition e = false) : offerTli e t = offerPlain e t :=
  offerTli_of_no_like hclash (fun h => by simp [hposition] at h)
    fun h => by simp [isPeriodicPoints_of_not_periodic hperiodic] at h

theorem offerPlain_periodic {e : TxEntry} {t : Tli} (h : e.periodic = true) : offerPlain e t =
    if t.txq.length < 10 then { t with txq := t.txq ++ [e] } else { t with counters := t.counters.displace } := by
  unfold offerPlain
  rw [if_pos h]
  rfl

section NonPeriodic

variable {e : TxEntry} {t : Tli} (hperiodic : e.periodic = false)

include hperiodic

theorem offerPlain_behind (h : ∃ k ∈ t.kept, k.block = e.block) : offerPlain e t = keepFrame e t := by
  unfold offerPlain
  rw [if_neg (by simp [hperiodic]), if_pos ((waitsBehind_iff e t.kept).mpr h)]

theorem offerPlain_room (h : ¬ ∃ k ∈ t.kept, k.block = e.block) (hroom : t.txq.length < 10) :
    offerPlain e t = { t with txq := t.txq ++ [e] } := by
  unfold offerPlain
  rw [if_neg (by simp [hperiodic]), if_neg (mt (waitsBehind_iff e t.kept).mp h)]
  exact if_pos hroom

theorem offerPlain_full (h : ¬ ∃ k ∈ t.kept, k.block = e.block) (hfull : 10 ≤ t.txq.length) : offerPlain e t =
    match t.txq.findIdx? (fun k => k.periodic && !k.sending) with
    | some i => { t with txq := t.txq.eraseIdx i ++ [e], counters := t.counters.displace }
    | none => keepFrame e t := by
  unfold offerPlain
  rw [if_neg (by simp [hperiodic]), if_neg (mt (waitsBehind_iff e t.kept).mp h)]
  exact if_neg (Nat.not_lt.mpr hfull)

/-- At 10 frames the earliest periodic frame not being sent gives way. -/
theorem offerPlain_displaces (h : ¬ ∃ k ∈ t.kept, k.block = e.block) (hfull : 10 ≤ t.txq.length) {i : Nat} {k : TxEntry}
    (hk : t.txq[i]? = some k) (hgives : k.periodic = true ∧ k.sending = false)
    (hfirst : ∀ (j : Nat) (l : TxEntry), j < i → t.txq[j]? = some l → l.periodic = false ∨ l.sending = true) :
    offerPlain e t = { t with txq := t.txq.eraseIdx i ++ [e], counters := t.counters.displace } := by
  obtain ⟨hi, rfl⟩ := List.getElem?_eq_some_iff.mp hk
  have hfound : t.txq.findIdx? (fun k => k.periodic && !k.sending) = some i := by
    refine List.findIdx?_eq_some_iff_getElem.mpr ⟨hi, by simp [hgives], fun j hj => ?_⟩
    rcases hfirst j t.txq[j] hj (List.getElem?_eq_getElem _) with h | h
    · rw [h, Bool.false_and]; decide
    · rw [h, Bool.not_true, Bool.and_false]; decide
  rw [offerPlain_full hperiodic h hfull, hfound]

theorem offerPlain_keeps (h : ¬ ∃ k ∈ t.kept, k.block = e.block) (hfull : 10 ≤ t.txq.length)
    (hnone : ∀ k ∈ t.txq, k.periodic = false ∨ k.sending = true) : offerPlain e t = keepFrame e t := by
  have hfound : t.txq.findIdx? (fun k => k.periodic && !k.sending) = none := by
    refine List.findIdx?_eq_none_iff.mpr fun k hk => ?_
    rcases hnone k hk with h | h <;> simp [h]
  rw [offerPlain_full hperiodic h hfull, hfound]

end NonPeriodic

/-! ## A newer POSITION or periodic POINTS notice -/

/-- The place of a waiting notice is taken by the newer one, all others as they were. -/
def replaceWaiting (like : TxEntry → Bool) (f : Frame) (q : List TxEntry) : List TxEntry :=
  q.map (fun k => if like k && !k.sending then { k with frame := f } else k)

theorem replaceWaiting_getElem {like : TxEntry → Bool} {f : Frame} {q : List TxEntry} {i : Nat} {k : TxEntry}
    (hk : q[i]? = some k) :
    (like k = true → k.sending = false → (replaceWaiting like f q)[i]? = some { k with frame := f }) ∧
      (like k = false ∨ k.sending = true → (replaceWaiting like f q)[i]? = some k) := by
  unfold replaceWaiting
  rw [List.getElem?_map, hk]
  refine ⟨fun hlike hwaits => by simp [hlike, hwaits], fun h => ?_⟩
  rcases h with h | h <;> simp [h]

section Notices

variable {e : TxEntry} {t : Tli} (hclash : t.clash = false)

theorem any_waiting_iff {like : TxEntry → Bool} {q : List TxEntry} :
    (q.any fun k => like k && !k.sending) = true ↔ ∃ k ∈ q, like k = true ∧ k.sending = false := by
  simp

theorem any_waiting_false {like : TxEntry → Bool} {q : List TxEntry} (h : ∀ k ∈ q, like k = true → k.sending = true) :
    ¬ (q.any fun k => like k && !k.sending) = true := by
  rw [any_waiting_iff]
  rintro ⟨k, hk, hlike, hwaits⟩
  rw [h k hk hlike] at hwaits
  cases hwaits

include hclash

theorem offerTli_position_replaces {n : PositionNotice} (hframe : e.frame = .position n)
    (h : ∃ k ∈ t.txq, isPosition k = true ∧ k.sending = false) :
    offerTli e t = { t with txq := replaceWaiting isPosition (.position n) t.txq } := by
  unfold offerTli
  rw [if_neg (by simp [hclash]), hframe]
  exact if_pos (any_waiting_iff.mpr h)

theorem offerTli_position_keeps {n : PositionNotice} (hframe : e.frame = .position n)
    (hsent : ∀ k ∈ t.txq, isPosition k = true → k.sending = true) (h : ∃ k ∈ t.txq, isPosition k = true) :
    offerTli e t = { t with keptPosition := some n } := by
  unfold offerTli
  rw [if_neg (by simp [hclash]), hframe]
  exact (if_neg (any_waiting_false hsent)).trans (if_pos (List.any_eq_true.mpr h))

theorem offerTli_points_replaces {n : PointsNotice} (hframe : e.frame = .points n) (hperiodic : e.periodic = true)
    (h : ∃ k ∈ t.txq, isPeriodicPoints k = true ∧ k.sending = false) :
    offerTli e t = { t with txq := replaceWaiting isPeriodicPoints (.points n) t.txq } := by
  unfold offerTli
  rw [if_neg (by simp [hclash]), hframe]
  exact if_pos (by rw [hperiodic, Bool.true_and]; exact any_waiting_iff.mpr h)

theorem offerTli_points_keeps {n : PointsNotice} (hframe : e.frame = .points n) (hperiodic : e.periodic = true)
    (hsent : ∀ k ∈ t.txq, isPeriodicPoints k = true → k.sending = true) (h : ∃ k ∈ t.txq, isPeriodicPoints k = true) :
    offerTli e t = { t with keptPoints := some n } := by
  unfold offerTli
  rw [if_neg (by simp [hclash]), hframe]
  refine (if_neg ?_).trans (if_pos ?_)
  · rw [hperiodic, Bool.true_and]; exact any_waiting_false hsent
  · rw [hperiodic, Bool.true_and]; exact List.any_eq_true.mpr h

end Notices

/-! ## The REPORTs that wait -/

theorem reports_eq (t : Tli) : reports t = t.txq.filter (fun e => isReport e && !e.periodic) ++
    t.kept.filter (fun e => isReport e && !e.periodic) := by
  simp [reports]

theorem reports_replaceWaiting {like : TxEntry → Bool} {f : Frame} {t : Tli}
    (hf : ∀ k : TxEntry, like k = true → isReport k = false ∧ isReport { k with frame := f } = false) :
    reports { t with txq := replaceWaiting like f t.txq } = reports t := by
  rw [reports_eq, reports_eq]
  congr 1
  refine filter_map_of_fixed _ _ _ fun k _ => ?_
  split
  case isTrue h =>
    obtain ⟨hlike, -⟩ := Bool.and_eq_true_iff.mp h
    obtain ⟨hold, hnew⟩ := hf k hlike
    simp [Option.filter, hold, hnew]
  case isFalse => rfl

theorem isReport_of_isPosition {k : TxEntry} {n : PositionNotice} (h : isPosition k = true) :
    isReport k = false ∧ isReport { k with frame := .position n } = false := by
  refine ⟨?_, rfl⟩
  unfold isPosition at h
  unfold isReport
  cases hframe : k.frame <;> simp [hframe] at h ⊢

theorem isReport_of_isPeriodicPoints {k : TxEntry} {n : PointsNotice} (h : isPeriodicPoints k = true) :
    isReport k = false ∧ isReport { k with frame := .points n } = false := by
  refine ⟨?_, rfl⟩
  unfold isPeriodicPoints at h
  unfold isReport
  cases hframe : k.frame <;> simp [hframe] at h ⊢

/-- The frame displaced is a periodic one, and so no REPORT that waits. -/
theorem reports_displaced {e : TxEntry} {t : Tli} {i : Nat} {c : Counters}
    (hfound : t.txq.findIdx? (fun k => k.periodic && !k.sending) = some i) :
    reports { t with txq := t.txq.eraseIdx i ++ [e], counters := c } =
      t.txq.filter (fun e => isReport e && !e.periodic) ++ (if isReport e && !e.periodic then [e] else []) ++
        t.kept.filter (fun e => isReport e && !e.periodic) := by
  obtain ⟨hi, hgives, -⟩ := List.findIdx?_eq_some_iff_getElem.mp hfound
  obtain ⟨hperiodic, -⟩ := Bool.and_eq_true_iff.mp hgives
  have hgone : (t.txq.eraseIdx i).filter (fun e => isReport e && !e.periodic) =
      t.txq.filter (fun e => isReport e && !e.periodic) := by
    refine filter_eraseIdx _ _ _ fun x hx => ?_
    obtain ⟨_, rfl⟩ := List.getElem?_eq_some_iff.mp hx
    simp [hperiodic]
  simp only [reports_eq, List.filter_append, hgone, List.filter_singleton, Bool.cond_eq_ite]

theorem reports_offerPlain_of_not_report {e : TxEntry} {t : Tli} (h : isReport e = false) :
    reports (offerPlain e t) = reports t := by
  have hkeep : reports (keepFrame e t) = reports t := by simp [reports, keepFrame, h]
  have happend : reports { t with txq := t.txq ++ [e] } = reports t := by simp [reports, h]
  cases hperiodic : e.periodic with
  | true =>
    rw [offerPlain_periodic hperiodic]
    split
    · exact happend
    · rfl
  | false =>
    by_cases hbehind : ∃ k ∈ t.kept, k.block = e.block
    · rw [offerPlain_behind hperiodic hbehind, hkeep]
    · by_cases hroom : t.txq.length < 10
      · rw [offerPlain_room hperiodic hbehind hroom, happend]
      · rw [offerPlain_full hperiodic hbehind (by omega)]
        split
        case h_1 hfound => simp [reports_displaced hfound, reports_eq, h]
        case h_2 => exact hkeep

/-- A frame that is no REPORT moves none. -/
theorem reports_offerTli_of_not_report {e : TxEntry} {t : Tli} (hclash : t.clash = false) (h : isReport e = false) :
    reports (offerTli e t) = reports t := by
  unfold offerTli
  rw [if_neg (by simp [hclash])]
  split
  · split
    · exact reports_replaceWaiting fun k hk => isReport_of_isPosition hk
    · split
      · rfl
      · exact reports_offerPlain_of_not_report h
  · split
    · exact reports_replaceWaiting fun k hk => isReport_of_isPeriodicPoints hk
    · split
      · rfl
      · exact reports_offerPlain_of_not_report h
  · exact reports_offerPlain_of_not_report h

/-- A further REPORT goes behind those that wait, but where it displaces a periodic frame while another block keeps one
(R190; assumption 79). -/
theorem reports_offerPlain_report {e : TxEntry} {t : Tli} (hline : OfferLineInv t) (hreport : isReport e = true)
    (hperiodic : e.periodic = false)
    (h : (∃ k ∈ t.kept, k.block = e.block) ∨ ¬ (10 ≤ t.txq.length ∧ ∃ k ∈ t.txq, k.periodic = true ∧ k.sending = false) ∨
      ∀ k ∈ t.kept, isReport k = false) : reports (offerPlain e t) = reports t ++ [e] := by
  have hkept : reports (keepFrame e t) = reports t ++ [e] := by simp [reports, keepFrame, hreport, hperiodic]
  by_cases hbehind : ∃ k ∈ t.kept, k.block = e.block
  · rw [offerPlain_behind hperiodic hbehind, hkept]
  · by_cases hroom : t.txq.length < 10
    · have hnone : t.kept = [] := by
        by_contra hkept
        exact absurd (hline.2 hkept) (by omega)
      rw [offerPlain_room hperiodic hbehind hroom]
      simp [reports, hnone, hreport, hperiodic]
    · have hfull : 10 ≤ t.txq.length := by omega
      rw [offerPlain_full hperiodic hbehind hfull]
      split
      case h_2 => exact hkept
      case h_1 i hfound =>
        obtain ⟨hi, hgives, -⟩ := List.findIdx?_eq_some_iff_getElem.mp hfound
        simp only [Bool.and_eq_true, Bool.not_eq_true'] at hgives
        have hnone : ∀ k ∈ t.kept, isReport k = false :=
          (h.resolve_left hbehind).resolve_left fun hno => hno ⟨hfull, t.txq[i], List.getElem_mem hi, hgives⟩
        have hkeptNone : t.kept.filter (fun e => isReport e && !e.periodic) = [] :=
          List.filter_eq_nil_iff.mpr fun k hk => by simp [hnone k hk]
        simp [reports_displaced hfound, reports_eq, hkeptNone, hreport, hperiodic]

/-! ## What queueing a REPORT leaves alone -/

theorem lineOnly_settleRefresh_setTli (s : State) (v : Tli) : lineOnly s (settleRefresh (s.setTli v)) := by
  rw [settleRefresh_eq]
  unfold refreshSettled
  split <;> rfl

theorem lineOnly_offer (b : Block) (p : Bool) (g : TxTag) (f : Frame) (s : State) : lineOnly s (offer b p g f s) :=
  lineOnly_settleRefresh_setTli s _

/-- A frame offered that is not periodic displaces only periodic ones. -/
theorem mem_offerTli_of_nonperiodic {e k : TxEntry} {t : Tli} (hclash : t.clash = false) (hperiodic : e.periodic = false)
    (hposition : isPosition e = false) (hk : k ∈ t.txq ++ t.kept) (hstays : k.periodic = false) :
    k ∈ (offerTli e t).txq ++ (offerTli e t).kept := by
  have hkeep : k ∈ (keepFrame e t).txq ++ (keepFrame e t).kept := by
    rw [keepFrame, ← List.append_assoc]
    exact List.mem_append_left _ hk
  rw [offerTli_of_nonperiodic hclash hperiodic hposition]
  by_cases hbehind : ∃ k ∈ t.kept, k.block = e.block
  · rwa [offerPlain_behind hperiodic hbehind]
  · by_cases hroom : t.txq.length < 10
    · rw [offerPlain_room hperiodic hbehind hroom]
      rcases List.mem_append.mp hk with h | h
      · exact List.mem_append_left _ (List.mem_append_left _ h)
      · exact List.mem_append_right _ h
    · rw [offerPlain_full hperiodic hbehind (by omega)]
      split
      case h_2 => exact hkeep
      case h_1 i hfound =>
        obtain ⟨hi, hgives, -⟩ := List.findIdx?_eq_some_iff_getElem.mp hfound
        rcases List.mem_append.mp hk with h | h
        · have hne : k ≠ t.txq[i] := by
            rintro rfl
            simp [hstays] at hgives
          have hperm := List.getElem_cons_eraseIdx_perm hi
          exact List.mem_append_left _ (List.mem_append_left _ ((List.mem_cons.mp (hperm.mem_iff.mpr h)).resolve_left hne))
        · exact List.mem_append_right _ h

/-- Settles O12: the rows of R190 one by one, the laws of the offer line, and the REPORTs kept in order by each of them. -/
theorem frameOffered : Obligations.FrameOffered := by
  refine ⟨fun e t => ⟨offerTli_of_clash, fun hclash hperiodic hposition => ?_,
      fun hline => ⟨offerTli_line e t hline, waitAgain_line t hline⟩,
      fun segs => ⟨editClaims_line segs t, withdrawSpanFrames_line segs t⟩, fun u hline hfill => ?_,
      fun hclash hline => ⟨fun hreport hperiodic h => ?_, reports_offerTli_of_not_report hclash⟩,
      fun hclash hperiodic hposition hpoints => ?_, fun hclash n hframe => ⟨fun h => ?_, offerTli_position_keeps hclash hframe⟩,
      fun hclash n hframe hperiodic => ⟨fun h => ?_, offerTli_points_keeps hclash hframe hperiodic⟩⟩,
    fun b sub out oid s => ⟨fun hnone => ?_, fun c hc => ?_⟩⟩
  · rw [offerTli_of_nonperiodic hclash hperiodic hposition]
    exact ⟨offerPlain_behind hperiodic, fun hbehind => ⟨offerPlain_room hperiodic hbehind, fun hfull =>
      ⟨fun i k hk hp hs hfirst => offerPlain_displaces hperiodic hbehind hfull hk ⟨hp, hs⟩ hfirst,
        offerPlain_keeps hperiodic hbehind hfull⟩⟩⟩
  · obtain rfl := (refilled_iff t u).mp hfill
    obtain ⟨hinv, hlist⟩ := fill_line t hline
    exact ⟨hinv, hlist, by rw [reports, reports, hlist]⟩
  · have hposition : isPosition e = false := by
      unfold isReport at hreport
      unfold isPosition
      cases hframe : e.frame <;> simp [hframe] at hreport ⊢
    rw [offerTli_of_nonperiodic hclash hperiodic hposition]
    exact reports_offerPlain_report hline hreport hperiodic h
  · rw [offerTli_of_no_like hclash hposition hpoints, offerPlain_periodic hperiodic]
    exact ⟨fun h => if_pos h, fun h => if_neg (Nat.not_lt.mpr h)⟩
  · exact ⟨_, offerTli_position_replaces hclash hframe h, List.length_map _, fun i k hk => replaceWaiting_getElem hk⟩
  · exact ⟨_, offerTli_points_replaces hclash hframe hperiodic h, List.length_map _, fun i k hk => replaceWaiting_getElem hk⟩
  · simp [report, hnone]
  · have heq : report b sub out oid s =
        offer b false .plain (.report c { subject := sub, outcome := out, oid := oid }) s := by simp [report, hc]
    refine ⟨heq ▸ lineOnly_offer .., fun hclash => ⟨queued_report b sub out oid hclash hc, fun e he hstays => ?_⟩⟩
    rw [heq, offer, settleRefresh_tli]
    exact mem_offerTli_of_nonperiodic hclash rfl rfl he hstays

end Sys2Proof.Machine
end


section
/-! The sending of frames (R181 to R183, R186, R189): arbitration, the frame begun at an idle line, the end of a sending, and
a frame that departs. -/

namespace Sys2Proof.Machine

open Sys2Proof

/-! ## Arbitration -/

/-- Where the first bits spell different numbers, the greater of them loses. -/
theorem arbLoses_toBits (n a b : Nat) (l m : Bits) : arbLoses (toBits n a ++ l) (toBits n b ++ m) =
    if a % 2 ^ n = b % 2 ^ n then arbLoses l m else decide (b % 2 ^ n < a % 2 ^ n) := by
  induction n with
  | zero => simp [toBits, Nat.mod_one]
  | succ n ih =>
    have ha := Nat.mod_lt a (Nat.two_pow_pos n)
    have hb := Nat.mod_lt b (Nat.two_pow_pos n)
    rw [Nat.mod_pow_succ, Nat.mod_pow_succ]
    simp only [toBits, List.cons_append, arbLoses, ih, Nat.testBit_eq_decide_div_mod_eq]
    rcases Nat.mod_two_eq_zero_or_one (a / 2 ^ n) with hx | hx <;>
      rcases Nat.mod_two_eq_zero_or_one (b / 2 ^ n) with hy | hy
    · simp [hx, hy]
    · rw [hx, hy, if_neg (by decide), if_neg (by omega)]
      exact decide_eq_decide.mpr (by omega)
    · rw [hx, hy, if_neg (by decide), if_neg (by omega)]
      exact decide_eq_decide.mpr (by omega)
    · simp [hx, hy]

/-- R182: the lower class wins, and between equal classes the lower sender. -/
theorem arbLoses_arbBits_iff {c₁ c₂ a₁ a₂ : Nat} (hc₁ : c₁ ≤ 7) (hc₂ : c₂ ≤ 7) (ha₁ : a₁ ≤ 63) (ha₂ : a₂ ≤ 63) :
    arbLoses (arbBits c₁ a₁) (arbBits c₂ a₂) = true ↔ c₂ < c₁ ∨ (c₂ = c₁ ∧ a₂ < a₁) := by
  have hsender : arbLoses (toBits 6 a₁) (toBits 6 a₂) = decide (a₂ < a₁) := by
    have h := arbLoses_toBits 6 a₁ a₂ [] []
    rw [List.append_nil, List.append_nil, Nat.mod_eq_of_lt (by omega), Nat.mod_eq_of_lt (by omega)] at h
    rw [h]
    split
    · subst a₁
      simp [arbLoses]
    · rfl
  unfold arbBits
  rw [arbLoses_toBits, hsender, Nat.mod_eq_of_lt (by omega), Nat.mod_eq_of_lt (by omega)]
  split
  · simp; omega
  · simp; omega

/-! ## The frame begun at an idle line (R189, R198) -/

theorem frameClass_lt (f : Frame) : frameClass f < 8 := by cases f <;> simp [frameClass]

/-- The fold of `classIdx` finds the least class of the queue. -/
theorem foldl_min_frameClass (q : List TxEntry) (m : Nat) :
    (∀ e ∈ q, q.foldl (fun m e => min m (frameClass e.frame)) m ≤ frameClass e.frame) ∧
      q.foldl (fun m e => min m (frameClass e.frame)) m ≤ m ∧
      (q.foldl (fun m e => min m (frameClass e.frame)) m = m ∨
        ∃ e ∈ q, frameClass e.frame = q.foldl (fun m e => min m (frameClass e.frame)) m) := by
  induction q generalizing m with
  | nil => simp
  | cons a q ih =>
    obtain ⟨hle, htop, hreached⟩ := ih (min m (frameClass a.frame))
    rw [List.foldl_cons]
    refine ⟨fun e he => ?_, by omega, ?_⟩
    · rcases List.mem_cons.mp he with rfl | he
      · omega
      · exact hle e he
    · rcases hreached with h | ⟨e, he, h⟩
      · rcases Nat.le_total m (frameClass a.frame) with hm | hm
        · exact .inl (by omega)
        · exact .inr ⟨a, List.mem_cons_self, by omega⟩
      · exact .inr ⟨e, List.mem_cons_of_mem _ he, h⟩

/-- Queue order: the lowest class, and within it the oldest. -/
theorem classIdx_spec {q : List TxEntry} (hq : q ≠ []) : ∃ i e, classIdx q = some i ∧ q[i]? = some e ∧
    ∀ (j : Nat) (f : TxEntry), q[j]? = some f →
      frameClass e.frame < frameClass f.frame ∨ (frameClass e.frame = frameClass f.frame ∧ i ≤ j) := by
  obtain ⟨hle, -, hreached⟩ := foldl_min_frameClass q 8
  have hex : ∃ e ∈ q, frameClass e.frame = q.foldl (fun m e => min m (frameClass e.frame)) 8 := by
    refine hreached.resolve_left fun h => ?_
    obtain ⟨a, ha⟩ := List.exists_mem_of_ne_nil q hq
    have := hle a ha
    have := frameClass_lt a.frame
    omega
  unfold classIdx
  dsimp only
  cases hfound : q.findIdx? (fun e => decide (frameClass e.frame = q.foldl (fun m e => min m (frameClass e.frame)) 8)) with
  | none =>
    obtain ⟨e, he, h⟩ := hex
    simpa [h] using List.findIdx?_eq_none_iff.mp hfound e he
  | some i =>
    obtain ⟨hi, hclass, hfirst⟩ := List.findIdx?_eq_some_iff_getElem.mp hfound
    have hclass := of_decide_eq_true hclass
    refine ⟨i, q[i], rfl, by simp [hi], fun j f hf => ?_⟩
    obtain ⟨hj, rfl⟩ := List.getElem?_eq_some_iff.mp hf
    have hmin := hle q[j] (List.getElem_mem hj)
    rcases Nat.lt_or_ge j i with hji | hij
    · have := hfirst j hji
      simp only [Bool.not_eq_true, decide_eq_false_iff_not] at this
      exact .inl (by omega)
    · exact (Nat.lt_or_ge (frameClass q[i].frame) (frameClass q[j].frame)).imp_right fun h => ⟨by omega, hij⟩

/-- The frame sent next: the oldest that must be the first after an address clash, and where none waits the first in queue
order. -/
theorem nextIdx_spec {q : List TxEntry} (hq : q ≠ []) : ∃ i e, nextIdx q = some i ∧ q[i]? = some e ∧
    ∀ (j : Nat) (f : TxEntry), q[j]? = some f →
      (e.tag = .first ∧ (f.tag = .first → i ≤ j)) ∨
      (e.tag ≠ .first ∧ f.tag ≠ .first ∧
        (frameClass e.frame < frameClass f.frame ∨ (frameClass e.frame = frameClass f.frame ∧ i ≤ j))) := by
  cases hfound : q.findIdx? (fun e => decide (e.tag = .first)) with
  | some i =>
    obtain ⟨hi, htag, hbefore⟩ := List.findIdx?_eq_some_iff_getElem.mp hfound
    refine ⟨i, q[i], by simp [nextIdx, hfound], by simp [hi], fun j f hf => .inl ⟨of_decide_eq_true htag, fun hfirst => ?_⟩⟩
    obtain ⟨hj, rfl⟩ := List.getElem?_eq_some_iff.mp hf
    by_contra hlt
    simpa [hfirst] using hbefore j (by omega)
  | none =>
    have hplain : ∀ e ∈ q, e.tag ≠ .first := fun e he => by simpa using List.findIdx?_eq_none_iff.mp hfound e he
    obtain ⟨i, e, hi, he, horder⟩ := classIdx_spec hq
    exact ⟨i, e, (nextIdx_of_plain hplain).trans hi, he, fun j f hf =>
      .inr ⟨hplain e (List.mem_of_getElem? he), hplain f (List.mem_of_getElem? hf), horder j f hf⟩⟩

theorem sendingEntry_isSome_iff (t : Tli) : (sendingEntry t).isSome = true ↔ ∃ e ∈ t.txq, e.sending = true := by
  simp [sendingEntry]

theorem nextIdx_nil : nextIdx [] = none := rfl

/-- While a frame is being sent the line does not fall idle for this station (assumption 15). -/
theorem exec_lineIdle_of_sending {s : State} (h : ∃ e ∈ s.tli.txq, e.sending = true) : exec .lineIdle s = .next s :=
  next_congr (if_pos ((sendingEntry_isSome_iff s.tli).mpr h))

theorem exec_lineIdle_stands {s : State} (hfree : ∀ e ∈ s.tli.txq, e.sending = false) (h : s.tli.clash = true ∨ s.tli.txq = []) :
    exec .lineIdle s = .next (s.setTli { s.tli with idle := true }) := by
  have hnone : ¬ (sendingEntry s.tli).isSome = true := by simpa [sendingEntry_isSome_iff] using hfree
  refine next_congr ((if_neg hnone).trans ?_)
  split
  · rfl
  · rename_i i hi
    have hclash : s.tli.clash = true := h.resolve_right fun hq => by simp [hq, nextIdx_nil] at hi
    exact if_pos hclash

theorem exec_lineIdle_begins {s : State} {i : Nat} {e : TxEntry} (hclash : s.tli.clash = false)
    (hfree : ∀ e ∈ s.tli.txq, e.sending = false) (hi : nextIdx s.tli.txq = some i) (he : s.tli.txq[i]? = some e) :
    exec .lineIdle s = .next (s.setTli
      { s.tli with idle := false, txq := s.tli.txq.set i { e with sending := true } }) := by
  have hnone : ¬ (sendingEntry s.tli).isSome = true := by simpa [sendingEntry_isSome_iff] using hfree
  refine next_congr ((if_neg hnone).trans ?_)
  obtain ⟨hlt, rfl⟩ := List.getElem?_eq_some_iff.mp he
  simp [hi, hclash, List.modify_eq_set_getElem?, hlt]

/-- A frame that waits at an idle line makes an event due. -/
theorem dueEvent_of_frame_waiting {s : State} (hidle : s.tli.idle = true) (hclash : s.tli.clash = false)
    (hfree : ∀ e ∈ s.tli.txq, e.sending = false) (hq : s.tli.txq ≠ []) : ∃ c, dueEvent s = some c := by
  have hnone : sendingEntry s.tli = none := by
    simpa [← Option.not_isSome_iff_eq_none, sendingEntry_isSome_iff] using hfree
  have hsend : dueIf (dueSend s) .lineIdle = some .lineIdle := by simp [dueIf, dueSend, hidle, hclash, hnone, hq]
  refine Option.isSome_iff_exists.mp (List.findSome?_isSome_iff.mpr ⟨some .lineIdle, ?_, rfl⟩)
  simp [hsend]

/-! ## The end of a sending (R182, R183) -/

theorem stopSending_eq {s : State} {ls : List (List TxEntry)} {u : Tli} (hls : List.Forall₂ (waitsAs s.tli) s.tli.txq ls)
    (hu : Refilled { s.tli with
        txq := ls.flatten,
        keptPosition := if ∃ k ∈ s.tli.txq, k.sending = true ∧ isPosition k = true then none else s.tli.keptPosition,
        keptPoints := if ∃ k ∈ s.tli.txq, k.sending = true ∧ isPeriodicPoints k = true then none
                      else s.tli.keptPoints } u) :
    stopSending s = (s.setTli u).setCe (refreshSettled u.txq s.ce) := by
  rw [stopSending, waitAgain_eq s.tli ls hls, ← (refilled_iff _ _).mp hu, settleRefresh_eq]
  rfl

theorem exec_arbitrationLost {s : State} {e : TxEntry} {cls : Nat} {src : Addr} (he : sendingEntry s.tli = some e) :
    exec (.arbitrationLost cls src) s =
      .next (if arbLoses (arbBits (frameClass e.frame) s.tli.addr) (arbBits cls src) then stopSending s else s) := by
  show execArbitrationLost cls src s = _
  unfold execArbitrationLost
  rw [he]

theorem exec_bitError {s : State} {e : TxEntry} (b : Bool) (he : sendingEntry s.tli = some e) :
    exec (.bitError b) s = .next (if b then countMalformed (stopSending s) else stopSending s) := by
  show execBitError b s = _
  unfold execBitError
  rw [he]

/-- Settles O17: arbitration over the 9 bits, the frame begun at an idle line, and the queue as a sending ends. -/
theorem sendingRuns : Obligations.SendingRuns := by
  refine ⟨fun c₁ c₂ a₁ a₂ => arbLoses_arbBits_iff, fun s => ⟨exec_lineIdle_of_sending, exec_lineIdle_stands,
    fun hclash hfree hq => ⟨fun hidle => dueEvent_of_frame_waiting hidle hclash hfree hq, ?_⟩⟩,
    fun e cls src s ls u he hls hu => ?_⟩
  · obtain ⟨i, e, hi, he, hfirst⟩ := nextIdx_spec hq
    exact ⟨i, e, he, hfirst, exec_lineIdle_begins hclash hfree hi he⟩
  · have hstop := stopSending_eq hls hu
    refine ⟨fun hlost => ?_, fun hwon => ?_, ?_, ?_⟩
    · rw [exec_arbitrationLost he, if_pos hlost, hstop]
    · rw [exec_arbitrationLost he, if_neg (by simp [hwon])]
    · exact (exec_bitError false he).trans (congrArg _ hstop)
    · have hcounters : u.counters = s.tli.counters := by rw [(refilled_iff _ _).mp hu, fill_counters]
      rw [exec_bitError true he, if_pos rfl, hstop, countMalformed_eq, ← hcounters]
      rfl

/-! ## A frame departs (R186, R190) -/

theorem refreshSettled_idem (q : List TxEntry) (c : ClaimEngine) :
    refreshSettled q (refreshSettled q c) = refreshSettled q c := by
  unfold refreshSettled
  by_cases h : c.refreshOut = true ∧ ∀ k ∈ q, k.tag ≠ .refresh
  · simp [if_pos h]
  · rw [if_neg h, if_neg h]

theorem settleRefresh_settleRefresh (s : State) : settleRefresh (settleRefresh s) = settleRefresh s := by
  simp only [settleRefresh_eq, State.setCe_tli, State.setCe_ce, refreshSettled_idem]
  rfl

/-- No frame is both a POSITION and a POINTS notice. -/
theorem isPeriodicPoints_of_isPosition {e : TxEntry} (h : isPosition e = true) : isPeriodicPoints e = false := by
  unfold isPosition at h
  unfold isPeriodicPoints
  cases hframe : e.frame <;> simp [hframe] at h ⊢

section Departed

variable {e : TxEntry} {ack : Bool} {s : State} {u : Tli}
  (hu : Refilled { s.tli with
      txq := s.tli.txq.filter (fun k => !k.sending),
      keptPosition := if isPosition e then none else s.tli.keptPosition,
      keptPoints := if isPeriodicPoints e then none else s.tli.keptPoints,
      counters := { s.tli.counters with
        unacked := if ack then s.tli.counters.unacked else min (s.tli.counters.unacked + 1) 65535 } } u)

include hu

theorem departed_line_eq : fill
    { s.tli with txq := s.tli.txq.filter (fun k => !k.sending),
                 counters := if ack then s.tli.counters
                             else { s.tli.counters with unacked := satInc s.tli.counters.unacked },
                 keptPosition := if isPosition e then none else s.tli.keptPosition,
                 keptPoints := if isPeriodicPoints e then none else s.tli.keptPoints } = u := by
  rw [(refilled_iff _ _).mp hu]
  cases ack <;> rfl

theorem departFrame_plain (hposition : isPosition e = true → s.tli.keptPosition = none)
    (hpoints : isPeriodicPoints e = true → s.tli.keptPoints = none) :
    departFrame e ack s = (s.setTli u).setCe (refreshSettled u.txq s.ce) := by
  unfold departFrame
  dsimp only
  rw [departed_line_eq hu]
  have hsettled : settleRefresh (s.setTli u) = (s.setTli u).setCe (refreshSettled u.txq s.ce) := settleRefresh_eq _
  cases hpos : isPosition e <;> cases hpts : isPeriodicPoints e <;> simp_all

theorem departFrame_position {n : PositionNotice} (hposition : isPosition e = true) (hkept : s.tli.keptPosition = some n) :
    departFrame e ack s = settleRefresh (s.setTli (offerTli
      { frame := .position n, block := .pu, periodic := true, tag := .plain, sending := false, cut := [], withdrawn := false }
      u)) := by
  unfold departFrame
  dsimp only
  rw [departed_line_eq hu]
  simp only [hposition, hkept, isPeriodicPoints_of_isPosition hposition, if_true, Bool.false_eq_true, if_false, offer,
    settleRefresh_settleRefresh, State.setTli_tli]
  rfl

theorem departFrame_points {n : PointsNotice} (hpoints : isPeriodicPoints e = true) (hkept : s.tli.keptPoints = some n) :
    departFrame e ack s = settleRefresh (s.setTli (offerTli
      { frame := .points n, block := .pa, periodic := true, tag := .plain, sending := false, cut := [], withdrawn := false }
      u)) := by
  have hposition : isPosition e = false := by
    by_contra h
    simp [isPeriodicPoints_of_isPosition (by simpa using h)] at hpoints
  unfold departFrame
  dsimp only
  rw [departed_line_eq hu]
  simp only [hpoints, hkept, hposition, if_true, Bool.false_eq_true, if_false, offer,
    settleRefresh_settleRefresh, State.setTli_tli]
  rfl

end Departed

/-! ## What the Claim Engine makes of a departure (R47, R51, R57) -/

theorem lineOnly_iff {s t : State} : lineOnly s t ↔
    ∃ v r out, t = (s.setTli v).setCe { s.ce with refresh := r, refreshOut := out } := by
  constructor
  · exact fun h => ⟨_, _, _, h⟩
  · rintro ⟨v, r, out, rfl⟩
    rfl

theorem lineOnly_trans {s t u : State} (h : lineOnly s t) (h' : lineOnly t u) : lineOnly s u := by
  obtain ⟨v, r, out, rfl⟩ := lineOnly_iff.mp h
  obtain ⟨v', r', out', rfl⟩ := lineOnly_iff.mp h'
  exact lineOnly_iff.mpr ⟨v', r', out', rfl⟩

theorem lineOnly_queueReleases (ids : List Seg) (s : State) : lineOnly s (queueReleases ids s) :=
  queueReleases_keeps (lineOnly s) (fun _ _ h => lineOnly_trans h (lineOnly_offer ..)) ids s rfl

theorem lineOnly_queueFrees (nodes : List Addr) (s : State) : lineOnly s (queueFrees nodes s) :=
  queueFrees_keeps (lineOnly s) (fun _ _ h => lineOnly_trans h (lineOnly_offer ..)) nodes s rfl

theorem mem_chunk4 {α : Type} {l : List α} {a : α} (h : a ∈ l) : ∃ ids ∈ chunk4 l, a ∈ ids := by
  induction l using chunk4.induct with
  | case1 b c d e rest ih =>
    simp only [chunk4, List.mem_cons] at h ⊢
    rcases h with rfl | rfl | rfl | rfl | h
    · exact ⟨_, .inl rfl, by simp⟩
    · exact ⟨_, .inl rfl, by simp⟩
    · exact ⟨_, .inl rfl, by simp⟩
    · exact ⟨_, .inl rfl, by simp⟩
    · obtain ⟨ids, hids, ha⟩ := ih h
      exact ⟨ids, .inr hids, ha⟩
  | case2 => simp at h
  | case3 l h1 h2 => exact ⟨l, by simp [chunk4], h⟩

theorem queued_queueReleases {ids : List Seg} {g : Seg} {s : State} (hclash : s.tli.clash = false) (hg : g ∈ ids) :
    ∃ named, g ∈ named ∧ queued (.release named) (queueReleases ids s) := by
  obtain ⟨named, hnamed, hmem⟩ := mem_chunk4 hg
  refine ⟨named, hmem, queued_of_mem_waiting (b := .ce) ?_⟩
  rw [queueReleases, waiting_foldl_offer Frame.release _ _ hclash fun _ => rfl]
  exact List.mem_append_right _ (List.mem_map_of_mem hnamed)

theorem queued_queueFrees {node : Addr} {s : State} (hclash : s.tli.clash = false) :
    queued (.pointsFree node) (queueFrees [node] s) := by
  refine queued_of_mem_waiting (b := .ce) ?_
  rw [queueFrees, waiting_foldl_offer Frame.pointsFree _ _ hclash fun _ => rfl]
  exact List.mem_append_right _ (List.mem_map_of_mem (((nub_spec [node]).2 node).mpr List.mem_cons_self))

theorem reportDeparture_of_other {e : TxEntry} {ack : Bool} {s : State}
    (h : e.tag = .plain ∨ e.tag = .refresh ∨ e.tag = .first ∨ (e.withdrawn = false ∧ s.ce.span = none)) :
    reportDeparture e ack s = s := by
  unfold reportDeparture lateDeparture
  rcases h with h | h | h | ⟨hw, hspan⟩
  · simp only [h]; split <;> [rfl; (split <;> rfl)]
  · simp only [h]; split <;> [rfl; (split <;> rfl)]
  · simp only [h]; split <;> [rfl; (split <;> rfl)]
  · simp [hw, hspan]

theorem reportDeparture_announcement {e : TxEntry} {ack : Bool} {s : State} {sp : Span} (hw : e.withdrawn = false)
    (hspan : s.ce.span = some sp) (htag : e.tag = .announcement) :
    reportDeparture e ack s = s.setCe { s.ce with
      span := some { sp with announced := true, window := some 0,
                             pointsWait := if s.ce.own.any (fun o => inSpan sp o && o.points.isSome) then some 0
                                           else none } } := by
  simp [reportDeparture, hw, hspan, htag]

theorem reportDeparture_ask {e : TxEntry} {ack : Bool} {s : State} {sp : Span} {node : Addr} {g : Seg}
    (hw : e.withdrawn = false) (hspan : s.ce.span = some sp) (htag : e.tag = .ask node g) :
    reportDeparture e ack s = if ack then s.setCe { s.ce with span := some { sp with acked := sp.acked ++ [node] } }
      else spanAbort .pointsNoAck g node s := by
  simp [reportDeparture, hw, hspan, htag]

theorem reportDeparture_withdrawn {e : TxEntry} {ack : Bool} {s : State} (hw : e.withdrawn = true) :
    reportDeparture e ack s = lateDeparture e ack s := if_pos hw

theorem exec_frameDeparture {s : State} {e : TxEntry} (ack : Bool) (he : sendingEntry s.tli = some e) :
    exec (.frameDeparture ack) s = .next (reportDeparture e ack (departFrame e ack s)) := by
  show execFrameDeparture ack s = _
  unfold execFrameDeparture
  rw [he]

/-- Settles O18: the three ways a frame departs, each followed by what the Claim Engine makes of it. -/
theorem frameDeparts : Obligations.FrameDeparts := by
  intro e ack s u he hu settled notice displaced departs
  have hclash : u.clash = s.tli.clash := by rw [(refilled_iff _ _).mp hu, fill_clash]
  have hdeparts (v : Tli) (hv : v.clash = s.tli.clash) (hgone : departFrame e ack s = settled v) : departs (settled v) := by
    have hexec := exec_frameDeparture ack he
    rw [hgone] at hexec
    have hspan : (settled v).ce.span = s.ce.span := by
      rw [← hgone, departFrame_ce_span]
    have hown : (settled v).ce.own = s.ce.own := by
      show (refreshSettled v.txq s.ce).own = _
      unfold refreshSettled
      split <;> rfl
    refine ⟨fun h => ?_, fun sp hw hsp => ⟨fun htag => ?_, fun node g htag => ?_⟩,
      fun hw => ⟨fun cls period items htag hframe => ?_, fun node g htag => ?_⟩⟩
    · rw [hexec, reportDeparture_of_other (by rwa [hspan])]
    · rw [hexec, reportDeparture_announcement hw (hspan.trans hsp) htag, hown]
    · rw [hexec, reportDeparture_ask hw (hspan.trans hsp) htag]
    · refine ⟨_, hexec, ?_⟩
      rw [reportDeparture_withdrawn hw, lateDeparture, htag, hframe]
      exact ⟨lineOnly_queueReleases .., fun hc i hi => queued_queueReleases (hv.trans hc) (List.mem_map_of_mem hi)⟩
    · refine ⟨_, hexec, ?_⟩
      rw [reportDeparture_withdrawn hw, lateDeparture, htag]
      cases ack with
      | false => exact ⟨rfl, fun _ => rfl, nofun⟩
      | true => exact ⟨lineOnly_queueFrees .., nofun, fun _ hc => queued_queueFrees (hv.trans hc)⟩
  refine ⟨fun hposition hpoints => hdeparts u hclash (departFrame_plain hu hposition hpoints),
    fun n hposition hkept => ⟨?_, fun hc hnone => ?_⟩, fun n hpoints hkept => ⟨?_, fun hc hnone => ?_⟩⟩
  · refine hdeparts _ (by rw [offerTli_clash, hclash]) ((departFrame_position hu hposition hkept).trans ?_)
    exact settleRefresh_eq _
  · rw [offerTli_of_no_like (hclash.trans hc) (fun _ => hnone) fun h => absurd h (by simp [notice, isPeriodicPoints]), offerPlain_periodic rfl]
    exact ⟨fun h => if_pos h, fun h => if_neg (Nat.not_lt.mpr h)⟩
  · refine hdeparts _ (by rw [offerTli_clash, hclash]) ((departFrame_points hu hpoints hkept).trans ?_)
    exact settleRefresh_eq _
  · rw [offerTli_of_no_like (hclash.trans hc) (fun h => absurd h (by simp [notice, isPosition])) fun _ => hnone, offerPlain_periodic rfl]
    exact ⟨fun h => if_pos h, fun h => if_neg (Nat.not_lt.mpr h)⟩

end Sys2Proof.Machine
end


section
/-! Frames at bit level: fields read back from their bits, bit insertion undone, the payloads of R200 read back, and a frame
driven passing the frame check (R181, R184, R199, R200). -/

namespace Sys2Proof.Machine

open Sys2Proof

/-! ## Fields and words -/

@[simp] theorem length_toBits (n v : Nat) : (toBits n v).length = n := by
  induction n with
  | zero => rfl
  | succ n ih => simp [toBits, ih]

theorem ofBitsFrom_toBits (n v acc : Nat) : ofBitsFrom acc (toBits n v) = acc * 2 ^ n + v % 2 ^ n := by
  induction n generalizing acc with
  | zero => simp [toBits, ofBitsFrom, Nat.mod_one]
  | succ n ih =>
    have hbit : (v.testBit n).toNat = v / 2 ^ n % 2 := by
      rw [Nat.testBit_eq_decide_div_mod_eq]
      rcases Nat.mod_two_eq_zero_or_one (v / 2 ^ n) with h | h <;> simp [h]
    rw [toBits, ofBitsFrom, ih, hbit, Nat.mod_pow_succ]
    ring

/-- A field that fits its bits is read back. -/
theorem ofBits_toBits {n v : Nat} (h : v < 2 ^ n) : ofBits (toBits n v) = v := by
  rw [ofBits, ofBitsFrom_toBits, Nat.mod_eq_of_lt h, Nat.zero_mul, Nat.zero_add]

/-- Fill bits read as 0. -/
theorem ofBits_fill (n : Nat) : ofBits (toBits n 0) = 0 := ofBits_toBits (Nat.two_pow_pos n)

@[simp] theorem ofBits_false : ofBits [false] = 0 := rfl
@[simp] theorem ofBits_false_false : ofBits [false, false] = 0 := rfl

theorem take_toBits_append (n v : Nat) (l : Bits) : (toBits n v ++ l).take n = toBits n v :=
  List.take_left' (length_toBits n v)

theorem drop_toBits_append (n v : Nat) (l : Bits) : (toBits n v ++ l).drop n = l :=
  List.drop_left' (length_toBits n v)

theorem toBits_one_append (v : Nat) (l : Bits) : toBits 1 v ++ l = v.testBit 0 :: l := rfl

/-- Words of 16 bits are read back one by one. -/
theorem words_flatMap {α : Type} {f : α → Bits} (hf : ∀ a, (f a).length = 16) {n : Nat} {l : List α} (hl : l.length ≤ n) :
    words n (l.flatMap f) = l.map f := by
  induction n generalizing l with
  | zero => simp [List.length_eq_zero_iff.mp (Nat.le_zero.mp hl), words]
  | succ n ih =>
    cases l with
    | nil => simp [words]
    | cons a l =>
      have hne : (f a ++ l.flatMap f).isEmpty = false := by
        have := hf a
        cases h : f a with
        | nil => simp [h] at this
        | cons b t => rfl
      rw [List.flatMap_cons, words, hne, List.take_left' (hf a), List.drop_left' (hf a),
        ih (by simpa using hl)]
      rfl

theorem length_flatMap_word {α : Type} {f : α → Bits} (hf : ∀ a, (f a).length = 16) (l : List α) :
    (l.flatMap f).length = 16 * l.length := by
  induction l with
  | nil => rfl
  | cons a l ih => simp [hf, ih]; omega

/-! ## Bit insertion (R181) -/

theorem unstuffFrom_stuffFrom (l : Bits) (last : Bool) (run : Nat) :
    unstuffFrom last run (stuffFrom last run l) = some l := by
  induction l generalizing last run with
  | nil =>
    unfold stuffFrom
    split
    · simp [unstuffFrom, *]
    · rfl
  | cons b rest ih =>
    unfold stuffFrom
    split
    · rename_i hrun
      subst hrun
      by_cases hb : b = !last
      · simp [unstuffFrom, hb, ih]
      · simp [unstuffFrom, hb, ih]
    · rename_i hrun
      by_cases hb : b = last
      · simp [unstuffFrom, hrun, hb, ih]
      · simp [unstuffFrom, hrun, hb, ih]

theorem unstuff_stuff (l : Bits) : unstuff (stuff l) = some l := by
  cases l with
  | nil => rfl
  | cons b rest => simp [stuff, unstuff, unstuffFrom_stuffFrom]

/-! ## Codes read back -/

@[simp] theorem dirOfBit_dirBit (d : Dir) : dirOfBit (decide (dirBit d % 2 = 1)) = d := by cases d <;> rfl
@[simp] theorem posOfBit_posBit (p : PointsPos) : posOfBit (decide (posBit p % 2 = 1)) = p := by cases p <;> rfl
@[simp] theorem claimOfCode_stateCode (st : ClaimState) : claimOfCode (stateCode st) = some st := by cases st <;> rfl
@[simp] theorem carOfCode_carCode (st : CarState) : carOfCode (carCode st) = some st := by cases st <;> rfl
@[simp] theorem pointsOfCode_pointsCode (st : PointsState) : pointsOfCode (pointsCode st) = some st := by cases st <;> rfl
@[simp] theorem answerOfCode_answerCode (c : AnswerCode) : answerOfCode (answerCode c) = some c := by cases c <;> rfl

theorem stateCode_lt (st : ClaimState) : stateCode st < 2 ^ 2 := by cases st <;> decide
theorem carCode_lt (st : CarState) : carCode st < 2 ^ 4 := by cases st <;> decide
theorem pointsCode_lt (st : PointsState) : pointsCode st < 2 ^ 3 := by cases st <;> decide
theorem answerCode_lt (c : AnswerCode) : answerCode c < 2 ^ 3 := by cases c <;> decide

theorem seg_of_segOk {g : Nat} (h : segOk g = true) : g ≠ 0 ∧ g < 2 ^ 10 := by
  obtain ⟨hlow, htop⟩ : 1 ≤ g ∧ g ≤ 1023 := by simpa [segOk] using h
  omega

theorem addr_of_addrOk {a : Nat} (h : addrOk a = true) : a ≠ 0 ∧ a < 2 ^ 6 := by
  obtain ⟨hlow, htop⟩ : 1 ≤ a ∧ a ≤ 63 := by simpa [addrOk] using h
  omega

/-! ## The payloads of R200 -/

@[simp] theorem length_itemBits (i : ClaimItem) : (itemBits i).length = 16 := by simp [itemBits]

section Item

variable {i : ClaimItem} (hseg : segOk i.seg = true)
include hseg

theorem itemOfWord_itemBits : itemOfWord (itemBits i) = some i := by
  obtain ⟨-, hg⟩ := seg_of_segOk hseg
  simp [itemOfWord, itemBits, List.drop_append, List.drop_of_length_le,
    toBits_one_append, ofBits_toBits hg, ofBits_toBits (stateCode_lt i.st)]

theorem itemWordOk_itemBits : itemWordOk (itemBits i) = true := by
  obtain ⟨hpos, hg⟩ := seg_of_segOk hseg
  simp [itemWordOk, itemBits, List.drop_append, List.drop_of_length_le,
    toBits_one_append, ofBits_toBits hg, ofBits_toBits (stateCode_lt i.st), hpos]

end Item

/-- The 16 bits before the entries of a CLAIM. -/
def claimHead (cls period n : Nat) : Bits := toBits 2 cls ++ (toBits 2 (n - 1) ++ (toBits 2 0 ++ toBits 10 period))

theorem length_claimHead (cls period n : Nat) : (claimHead cls period n).length = 16 := by simp [claimHead]

theorem claimBits_eq (cls period : Nat) (items : List ClaimItem) :
    claimBits cls period items = claimHead cls period items.length ++ items.flatMap itemBits := by
  simp [claimBits, claimHead]

theorem drop_claimBits (cls period : Nat) (items : List ClaimItem) :
    (claimBits cls period items).drop 16 = items.flatMap itemBits := by
  rw [claimBits_eq, List.drop_left' (length_claimHead ..)]

theorem length_claimBits (cls period : Nat) (items : List ClaimItem) :
    (claimBits cls period items).length = 16 + 16 * items.length := by
  rw [claimBits_eq, List.length_append, length_claimHead, length_flatMap_word length_itemBits]

theorem claimWf_iff {cls period : Nat} {items : List ClaimItem} : claimWf cls period items = true ↔
    cls ≤ 3 ∧ period ≤ 1023 ∧ 1 ≤ items.length ∧ items.length ≤ 4 ∧ ∀ i ∈ items, segOk i.seg = true := by
  simp [claimWf, and_assoc]

theorem claimPayloadOk_claimBits {cls period : Nat} {items : List ClaimItem} (h : claimWf cls period items = true) :
    claimPayloadOk (claimBits cls period items) = true := by
  obtain ⟨hcls, hperiod, hsome, hfour, hsegs⟩ := claimWf_iff.mp h
  have hcount : ofBits (((claimBits cls period items).drop 2).take 2) = items.length - 1 := by
    rw [claimBits_eq, claimHead, List.append_assoc, drop_toBits_append, List.append_assoc, take_toBits_append,
      ofBits_toBits (by omega)]
  have hfill : ofBits (((claimBits cls period items).drop 4).take 2) = 0 := by
    rw [claimBits_eq, claimHead]
    simp [List.drop_append, List.drop_of_length_le, ofBits_fill]
  have hwords : words 4 ((claimBits cls period items).drop 16) = items.map itemBits := by
    rw [drop_claimBits, words_flatMap length_itemBits hfour]
  simp only [claimPayloadOk, hcount, hfill, hwords, length_claimBits, Bool.and_eq_true, decide_eq_true_eq, List.all_eq_true,
    List.mem_map]
  refine ⟨⟨by omega, trivial⟩, ?_⟩
  rintro _ ⟨i, hi, rfl⟩
  exact itemWordOk_itemBits (hsegs i hi)

theorem filterMap_itemOfWord {items : List ClaimItem} (hsegs : ∀ i ∈ items, segOk i.seg = true) :
    (items.map itemBits).filterMap itemOfWord = items := by
  rw [List.filterMap_map]
  induction items with
  | nil => rfl
  | cons i items ih =>
    rw [List.filterMap_cons, Function.comp_apply, itemOfWord_itemBits (hsegs i List.mem_cons_self),
      ih fun j hj => hsegs j (List.mem_cons_of_mem _ hj)]

theorem claimOfBits_claimBits {cls period : Nat} {items : List ClaimItem} (h : claimWf cls period items = true) :
    claimOfBits (claimBits cls period items) = some (cls, period, items) := by
  obtain ⟨hcls, hperiod, hsome, hfour, hsegs⟩ := claimWf_iff.mp h
  have hclass : ofBits ((claimBits cls period items).take 2) = cls := by
    rw [claimBits_eq, claimHead, List.append_assoc, take_toBits_append, ofBits_toBits (by omega)]
  have hperiod' : ofBits (((claimBits cls period items).drop 6).take 10) = period := by
    rw [claimBits_eq, claimHead]
    simp [List.drop_append, List.drop_of_length_le, ofBits_toBits (show period < 2 ^ 10 by omega)]
  rw [claimOfBits, if_pos (claimPayloadOk_claimBits h), hclass, hperiod', drop_claimBits,
    words_flatMap length_itemBits hfour, filterMap_itemOfWord hsegs]

/-! ### RELEASE -/

/-- The word of a segment id. -/
def segWord (g : Seg) : Bits := toBits 10 g ++ toBits 6 0

theorem length_segWord (g : Seg) : (segWord g).length = 16 := by simp [segWord]

theorem releaseWf_iff {segs : List Seg} :
    releaseWf segs = true ↔ 1 ≤ segs.length ∧ segs.length ≤ 4 ∧ ∀ g ∈ segs, segOk g = true := by
  simp [releaseWf, and_assoc]

theorem length_releaseBits (segs : List Seg) : (releaseBits segs).length = 16 * segs.length :=
  length_flatMap_word length_segWord segs

theorem words_releaseBits {segs : List Seg} (h : segs.length ≤ 4) : words 4 (releaseBits segs) = segs.map segWord :=
  words_flatMap length_segWord h

theorem ofBits_take_segWord {g : Seg} (h : segOk g = true) : ofBits ((segWord g).take 10) = g := by
  rw [segWord, take_toBits_append, ofBits_toBits (seg_of_segOk h).2]

theorem ofBits_drop_segWord (g : Seg) : ofBits ((segWord g).drop 10) = 0 := by
  rw [segWord, drop_toBits_append]
  rfl

theorem releasePayloadOk_releaseBits {segs : List Seg} (h : releaseWf segs = true) :
    releasePayloadOk (releaseBits segs) = true := by
  obtain ⟨-, hfour, hsegs⟩ := releaseWf_iff.mp h
  rw [releasePayloadOk, words_releaseBits hfour]
  simp only [List.all_eq_true, List.mem_map, Bool.and_eq_true, decide_eq_true_eq]
  rintro _ ⟨g, hg, rfl⟩
  rw [ofBits_take_segWord (hsegs g hg), ofBits_drop_segWord]
  exact ⟨(seg_of_segOk (hsegs g hg)).1, rfl⟩

theorem releaseOfBits_releaseBits {segs : List Seg} (h : releaseWf segs = true) : releaseOfBits (releaseBits segs) = some segs := by
  obtain ⟨-, hfour, hsegs⟩ := releaseWf_iff.mp h
  rw [releaseOfBits, if_pos (releasePayloadOk_releaseBits h), words_releaseBits hfour, List.map_map]
  exact congrArg some ((List.map_congr_left fun g hg => ofBits_take_segWord (hsegs g hg)).trans (List.map_id segs))

/-! ### POSITION and POINTS -/

theorem positionWf_bounds {n : PositionNotice} (h : n.wf = true) :
    (n.headSeg < 2 ^ 10 ∧ n.headOff < 2 ^ 20) ∧ (n.tailSeg < 2 ^ 10 ∧ n.tailOff < 2 ^ 20) ∧
      (n.speed < 2 ^ 12 ∧ min n.speed 4095 = n.speed) ∧ n.period < 2 ^ 12 ∧
      (n.state.carriesPosition = false ∨ n.headSeg ≠ 0 ∧ n.tailSeg ≠ 0) := by
  simp only [PositionNotice.wf, Bool.and_eq_true, Bool.or_eq_true, Bool.not_eq_true', decide_eq_true_eq] at h
  obtain ⟨⟨⟨⟨⟨⟨hhead, htail⟩, hho⟩, hto⟩, hspeed⟩, hperiod⟩, hcarries⟩ := h
  exact ⟨⟨Nat.lt_succ_of_le hhead, Nat.lt_succ_of_le hho⟩, ⟨Nat.lt_succ_of_le htail, Nat.lt_succ_of_le hto⟩,
    ⟨Nat.lt_succ_of_le hspeed, Nat.min_eq_left hspeed⟩, Nat.lt_succ_of_le hperiod,
    hcarries.imp_right fun ⟨h1, h2⟩ => ⟨Nat.ne_of_gt h1, Nat.ne_of_gt h2⟩⟩

section Position

variable {n : PositionNotice} (h : n.wf = true)
include h

theorem positionPayloadOk_positionBits : positionPayloadOk (positionBits n) = true := by
  obtain ⟨⟨hhead, -⟩, ⟨htail, -⟩, -, -, hcarries⟩ := positionWf_bounds h
  have hcode := ofBits_toBits (carCode_lt n.state)
  simpa [positionPayloadOk, positionBits, List.drop_append, List.drop_of_length_le, toBits_one_append, ofBits_toBits hhead,
    ofBits_toBits htail, hcode, ofBits_fill] using hcarries

theorem positionOfBits_positionBits : positionOfBits (positionBits n) = some n := by
  obtain ⟨⟨hhead, hho⟩, ⟨htail, hto⟩, ⟨hspeed, htop⟩, hperiod, -⟩ := positionWf_bounds h
  have hcode := ofBits_toBits (carCode_lt n.state)
  rw [positionOfBits, if_pos (positionPayloadOk_positionBits h)]
  simp [positionBits, List.drop_append, List.drop_of_length_le, toBits_one_append, ofBits_toBits hhead,
    ofBits_toBits htail, ofBits_toBits hho, ofBits_toBits hto, htop, ofBits_toBits hspeed, ofBits_toBits hperiod, hcode]

end Position

theorem pointsWf_bounds {n : PointsNotice} (h : n.wf = true) :
    n.seg < 2 ^ 10 ∧ (n.qlen < 2 ^ 3 ∧ n.qlen ≠ 7) ∧ n.holder < 2 ^ 6 ∧ n.requester < 2 ^ 6 := by
  simp only [PointsNotice.wf, Bool.and_eq_true, decide_eq_true_eq] at h
  obtain ⟨⟨⟨hseg, hq⟩, hholder⟩, hreq⟩ := h
  exact ⟨Nat.lt_succ_of_le hseg, ⟨by omega, by omega⟩, Nat.lt_succ_of_le hholder, Nat.lt_succ_of_le hreq⟩

section Points

variable {n : PointsNotice} (h : n.wf = true)
include h

theorem pointsPayloadOk_pointsBits : pointsPayloadOk (pointsBits n) = true := by
  obtain ⟨-, ⟨hq, hne⟩, -, -⟩ := pointsWf_bounds h
  have hstate := ofBits_toBits (pointsCode_lt n.state)
  have hcode := ofBits_toBits (answerCode_lt n.code)
  simp [pointsPayloadOk, pointsBits, List.drop_append, List.drop_of_length_le, toBits_one_append,
    ofBits_toBits hq, hstate, hcode, ofBits_fill, hne]

theorem pointsOfBits_pointsBits : pointsOfBits (pointsBits n) = some n := by
  obtain ⟨hseg, ⟨hq, -⟩, hholder, hreq⟩ := pointsWf_bounds h
  have hstate := ofBits_toBits (pointsCode_lt n.state)
  have hcode := ofBits_toBits (answerCode_lt n.code)
  rw [pointsOfBits, if_pos (pointsPayloadOk_pointsBits h)]
  simp [pointsBits, List.drop_append, List.drop_of_length_le, toBits_one_append, ofBits_toBits hseg,
    ofBits_toBits hq, ofBits_toBits hholder, ofBits_toBits hreq, hstate, hcode]

end Points

/-- Settles O9: each of the four payloads of R200 is read back field by field. -/
theorem payloadRoundTrip : Obligations.PayloadRoundTrip :=
  ⟨fun _ _ _ => claimOfBits_claimBits, fun _ => releaseOfBits_releaseBits, fun _ => positionOfBits_positionBits,
    fun _ => pointsOfBits_pointsBits⟩

/-! ## A frame driven and read (R184, R199) -/

theorem length_bodyBits (cls sender kind target : Nat) (p : Bits) :
    (bodyBits cls sender kind target p).length = 28 + p.length := by
  simp [bodyBits]
  omega

/-- The fields of a frame are read as they were sent, and its check agrees. -/
theorem readFrame_bodyBits {cls sender kind target m : Nat} {p : Bits} (hcls : cls < 2 ^ 3) (hsender : sender < 2 ^ 6)
    (hkind : kind < 2 ^ 5) (htarget : target < 2 ^ 6) (hp : p.length = 8 * m) (hm : m < 2 ^ 8) :
    readFrame (false :: (bodyBits cls sender kind target p ++
      toBits 16 (crc16 (bodyBits cls sender kind target p)).toNat)) =
        some { cls := cls, sender := sender, kind := kind, target := target, payload := p } := by
  have hbytes : p.length / 8 = m := by omega
  have hlength : (bodyBits cls sender kind target p).length = 28 + 8 * m := by rw [length_bodyBits, hp]
  have hlen (check : Bits) : ofBits (((bodyBits cls sender kind target p ++ check).drop 20).take 8) = m := by
    simp [bodyBits, List.drop_append, List.drop_of_length_le, hbytes, ofBits_toBits hm]
  have hcrc : ofBits (toBits 16 (crc16 (bodyBits cls sender kind target p)).toNat) =
      (crc16 (bodyBits cls sender kind target p)).toNat := ofBits_toBits (BitVec.isLt _)
  simp only [readFrame, hlen, ← hlength, List.take_left, List.drop_left, hcrc, List.length_append, length_toBits, ne_eq,
    not_true_eq_false, if_false, Option.some.injEq, RawFrame.mk.injEq]
  simp [bodyBits, List.drop_append, List.drop_of_length_le, ofBits_toBits hcls, ofBits_toBits hsender, ofBits_toBits hkind,
    ofBits_toBits htarget]

theorem frameCheck_wireBits {own : Addr} {k : Kind} {sender : Addr} {f : Frame} {m : Nat} (hsender : sender < 2 ^ 6)
    (htarget : targetOf f < 2 ^ 6) (hp : (payloadBits f).length = 8 * m) (hm : m < 2 ^ 8) :
    frameCheck own k (wireBits sender f) =
      (some { cls := frameClass f, sender := sender, kind := kindCode f, target := targetOf f,
              payload := payloadBits f }).filter (fieldsOk own k) := by
  have hkind : kindCode f < 2 ^ 5 := by cases f <;> simp [kindCode]
  have hread := readFrame_bodyBits (frameClass_lt f) hsender hkind htarget hp hm
  rw [frameCheck, wireBits, unstuff_stuff]
  exact congrArg (fun r => r.filter (fieldsOk own k)) hread

/-! ### The payloads whose bits are free values (assumption 39) -/

theorem haltPayloadOk_sent {o : Addr} (r : HaltReason) (h : addrOk o = true) :
    haltPayloadOk (toBits 16 (Config.haltPayload o r).toNat) = true := by
  obtain ⟨-, ho⟩ := addr_of_addrOk h
  refine List.any_eq_true.mpr ⟨o, List.mem_range.mpr ho, ?_⟩
  cases r <;> simp [h]

theorem objectPayloadOk_sent {t : Addr} {g : Seg} (st : ClaimState) (h : addrOk t = true) (hg : segOk g = true) :
    objectPayloadOk (toBits 24 (Config.objectPayload t g st).toNat) = true := by
  obtain ⟨-, ht⟩ := addr_of_addrOk h
  obtain ⟨-, hseg⟩ := seg_of_segOk hg
  refine List.any_eq_true.mpr ⟨t, List.mem_range.mpr ht, ?_⟩
  rw [h, Bool.true_and]
  refine List.any_eq_true.mpr ⟨g, List.mem_range.mpr hseg, ?_⟩
  rw [hg, Bool.true_and]
  exact List.any_eq_true.mpr ⟨st, by cases st <;> simp, decide_eq_true rfl⟩

theorem askPayloadOk_sent {cls oid : Nat} (pos : PointsPos) (hcls : cls ≤ 3) (hoid : oid ≤ 255) :
    askPayloadOk (toBits 16 (Config.askPayload pos cls oid).toNat) = true := by
  refine List.any_eq_true.mpr ⟨cls, List.mem_range.mpr (by omega), ?_⟩
  refine List.any_eq_true.mpr ⟨oid, List.mem_range.mpr (by omega), ?_⟩
  cases pos <;> simp

/-- The bytes of a frame's payload (R192). -/
def payloadBytes : Frame → Nat
  | .halt _ _ | .pointsAsk _ _ _ _ => 2
  | .object _ _ _ => 3
  | .release segs => 2 * segs.length
  | .claim _ _ items => 2 + 2 * items.length
  | .points _ => 5
  | .pointsFree _ => 0
  | .position _ => 12
  | .carriageStatus _ _ => 72
  | .pointsStatus _ _ => 40
  | .report _ _ => 6

theorem length_payloadBits (f : Frame) : (payloadBits f).length = 8 * payloadBytes f := by
  cases f with
  | release segs => rw [payloadBits, length_releaseBits, payloadBytes]; omega
  | claim cls p items => rw [payloadBits, length_claimBits, payloadBytes]; omega
  | position n => simp [payloadBits, positionBits, payloadBytes]
  | points n => simp [payloadBits, pointsBits, payloadBytes]
  | _ => simp [payloadBits, payloadBytes]

theorem payloadBytes_le {f : Frame} (h : f.wf = true) : payloadBytes f ≤ 72 := by
  cases f with
  | release segs => obtain ⟨-, hfour, -⟩ := releaseWf_iff.mp h; simp only [payloadBytes]; omega
  | claim cls p items => obtain ⟨-, -, -, hfour, -⟩ := claimWf_iff.mp h; simp only [payloadBytes]; omega
  | _ => simp [payloadBytes]

theorem lengthOk_payloadBytes {f : Frame} (k : Kind) (h : f.wf = true) : lengthOk k (kindCode f) (payloadBytes f) = true := by
  cases f with
  | release segs =>
    obtain ⟨hsome, hfour, -⟩ := releaseWf_iff.mp h
    exact decide_eq_true (by simp only [payloadBytes]; omega)
  | claim cls p items =>
    obtain ⟨-, -, hsome, hfour, -⟩ := claimWf_iff.mp h
    exact decide_eq_true (by simp only [payloadBytes]; omega)
  | _ => simp [payloadBytes, kindCode, lengthOk]

theorem targetOk_sent {f : Frame} (h : f.wf = true) : targetOk (kindCode f) (targetOf f) = true := by
  cases f with
  | pointsAsk t p cls oid =>
    simp only [Frame.wf, Bool.and_eq_true] at h
    exact decide_eq_true (addr_of_addrOk h.1.1).1
  | pointsFree t => exact decide_eq_true (addr_of_addrOk h).1
  | carriageStatus t st => exact decide_eq_true (addr_of_addrOk h).1
  | pointsStatus t st => exact decide_eq_true (addr_of_addrOk h).1
  | report t r => exact decide_eq_true (addr_of_addrOk h).1
  | _ => rfl

theorem targetOf_lt {f : Frame} (h : f.wf = true) : targetOf f < 2 ^ 6 := by
  cases f with
  | pointsAsk t p cls oid =>
    simp only [Frame.wf, Bool.and_eq_true] at h
    exact (addr_of_addrOk h.1.1).2
  | pointsFree t => exact (addr_of_addrOk h).2
  | carriageStatus t st => exact (addr_of_addrOk h).2
  | pointsStatus t st => exact (addr_of_addrOk h).2
  | report t r => exact (addr_of_addrOk h).2
  | _ => simp [targetOf]

theorem payloadOk_sent {f : Frame} (k : Kind) (h : f.wf = true) : payloadOk k (kindCode f) (payloadBits f) =
    (!isReply f || Config.payloadCoded (kindCode f) (payloadBits f)) := by
  cases f with
  | halt o r => simpa [payloadOk, kindCode, isReply, payloadBits] using haltPayloadOk_sent r h
  | object t g st =>
    obtain ⟨ht, hg⟩ := Bool.and_eq_true_iff.mp h
    simpa [payloadOk, kindCode, isReply, payloadBits] using objectPayloadOk_sent st ht hg
  | release segs => simpa [payloadOk, kindCode, isReply, payloadBits] using releasePayloadOk_releaseBits h
  | claim cls p items => simpa [payloadOk, kindCode, isReply, payloadBits] using claimPayloadOk_claimBits h
  | points n => simpa [payloadOk, kindCode, isReply, payloadBits] using pointsPayloadOk_pointsBits h
  | pointsAsk t pos cls oid =>
    simp only [Frame.wf, Bool.and_eq_true, decide_eq_true_eq] at h
    obtain ⟨⟨-, hcls⟩, hoid⟩ := h
    simpa [payloadOk, kindCode, isReply, payloadBits] using askPayloadOk_sent pos hcls hoid
  | position n => simpa [payloadOk, kindCode, isReply, payloadBits] using positionPayloadOk_positionBits h
  | _ => simp [payloadOk, kindCode, isReply]

theorem frameClass_le (f : Frame) : frameClass f ≤ 5 := by cases f <;> simp [frameClass]

theorem isReply_iff_kindCode (f : Frame) : isReply f = true ↔ kindCode f = 19 ∨ kindCode f = 20 := by
  cases f <;> simp [isReply, kindCode]

/-- Settles O10: the bits inserted are removed, the fields are read as sent, and each condition of R184 holds of them. -/
theorem sentFramePasses : Obligations.SentFramePasses := by
  intro sender own k f hsender hwf hreply
  obtain ⟨hne, hlt⟩ := addr_of_addrOk hsender
  have hbytes := payloadBytes_le hwf
  have hlength := length_payloadBits f
  rw [frameCheck_wireBits hlt (targetOf_lt hwf) hlength (by omega)]
  have hfields : fieldsOk own k
      { cls := frameClass f, sender := sender, kind := kindCode f, target := targetOf f, payload := payloadBits f } = (!isReply f || Config.payloadCoded (kindCode f) (payloadBits f)) := by
    have hown : ¬ (targetOf f = own ∧ (kindCode f = 19 ∨ kindCode f = 20)) := fun ⟨ht, hk⟩ =>
      hreply ((isReply_iff_kindCode f).mpr hk) ht
    have hdiv : 8 * payloadBytes f / 8 = payloadBytes f := by omega
    have htop : 8 * payloadBytes f ≤ 8 * 136 := by omega
    simp only [fieldsOk, hlength, hdiv, htop, frameClass_le, hne, ne_eq, not_false_eq_true, decide_true, Bool.true_and,
      lengthOk_payloadBytes k hwf, targetOk_sent hwf, payloadOk_sent k hwf]
    rw [← Bool.decide_or, ← Bool.decide_and, decide_eq_false hown, Bool.not_false, Bool.and_true]
  rw [Option.filter_some, hfields]
  cases isReply f <;> cases Config.payloadCoded (kindCode f) (payloadBits f) <;> simp

end Sys2Proof.Machine
end


section
/-! ORDER (R4, R5, R7): the structural tests in their order, and an ORDER that does not start at once. -/

namespace Sys2Proof.Machine

open Sys2Proof

/-! ## The structural tests (R4) -/

theorem firstDuplicate_eq_some {legs : List Leg} {seen : List Seg} {i j : Nat} {l : Leg} (hl : legs[j]? = some l)
    (hdup : l.seg ∈ seen ∨ l.seg ∈ (legs.take j).map Leg.seg) (hfirst : ((legs.take j).map Leg.seg).Nodup)
    (hseen : ∀ m ∈ legs.take j, m.seg ∉ seen) : firstDuplicate seen i legs = some (i + j) := by
  induction legs generalizing seen i j with
  | nil => simp at hl
  | cons a rest ih =>
    cases j with
    | zero =>
      obtain rfl : a = l := by simpa using hl
      exact if_pos (by simpa using hdup)
    | succ j =>
      have hnew : a.seg ∉ seen := hseen a (by simp)
      simp only [List.take_succ_cons, List.map_cons, List.nodup_cons, List.mem_cons] at hdup hfirst hseen
      rw [firstDuplicate, if_neg hnew, ih (i := i + 1) (by simpa using hl) ?_ hfirst.2 ?_]
      · congr 1
        omega
      · rcases hdup with h | h | h
        · exact .inl (List.mem_cons_of_mem _ h)
        · exact .inl (by simp [h])
        · exact .inr h
      · intro m hm hmem
        rcases List.mem_cons.mp hmem with h | h
        · exact hfirst.1 (List.mem_map.mpr ⟨m, hm, h⟩)
        · exact hseen m (.inr hm) h

theorem firstDuplicate_eq_none {legs : List Leg} {seen : List Seg} {i : Nat} (hnodup : (legs.map Leg.seg).Nodup)
    (hseen : ∀ m ∈ legs, m.seg ∉ seen) : firstDuplicate seen i legs = none := by
  induction legs generalizing seen i with
  | nil => rfl
  | cons a rest ih =>
    simp only [List.map_cons, List.nodup_cons, List.mem_cons] at hnodup hseen
    rw [firstDuplicate, if_neg (hseen a (.inl rfl))]
    refine ih hnodup.2 fun m hm hmem => ?_
    rcases List.mem_cons.mp hmem with h | h
    · exact hnodup.1 (List.mem_map.mpr ⟨m, hm, h⟩)
    · exact hseen m (.inr hm) h

theorem firstLeg_eq_some {p : Leg → Bool} {legs : List Leg} {j : Nat} {l : Leg} (hl : legs[j]? = some l) (hp : p l = true)
    (hfirst : ∀ m ∈ legs.take j, p m = false) : firstLeg p legs = some (j + 1) := by
  obtain ⟨hj, rfl⟩ := List.getElem?_eq_some_iff.mp hl
  have hfound : legs.findIdx? p = some j := List.findIdx?_eq_some_iff_getElem.mpr
    ⟨hj, hp, fun i hi => by simp [hfirst legs[i] (List.mem_take_iff_getElem.mpr ⟨i, by omega, rfl⟩)]⟩
  simp [firstLeg, hfound]

theorem firstLeg_eq_none {p : Leg → Bool} {legs : List Leg} (h : ∀ m ∈ legs, p m = false) : firstLeg p legs = none := by
  simpa [firstLeg] using h

theorem badLength_iff (c : CommRec) (l : Leg) :
    badLength c l = true ↔ l.len < 2000 ∨ 600000 < l.len ∨ l.len < c.length + 2 * c.tol := by
  simp [badLength, or_assoc]

theorem badLength_eq_false {c : CommRec} {l : Leg} (h : 2000 ≤ l.len ∧ l.len ≤ 600000 ∧ c.length + 2 * c.tol ≤ l.len) :
    badLength c l = false := by
  obtain ⟨hlow, htop, hfits⟩ := h
  simp [badLength, hlow, htop, hfits]

section Tests

variable {c : CommRec} {o : OrderRec}

theorem structuralTest_legCount (h : o.legs.length = 0 ∨ 16 < o.legs.length) : structuralTest c o = some (.legCount, 0) :=
  if_pos h

variable (hsome : 1 ≤ o.legs.length) (htop : o.legs.length ≤ 16)
include hsome htop

theorem structuralTest_of_count : structuralTest c o =
    match firstDuplicate [] 1 o.legs with
    | some i => some (.duplicateSegment, i)
    | none =>
      match firstLeg (badLength c) o.legs with
      | some i => some (.legLength, i)
      | none =>
        match firstLeg (fun l => l.limit = 0) o.legs with
        | some i => some (.speedZero, i)
        | none => (badPad c o).map (fun i => (.padPlacement, i)) :=
  if_neg (by omega)

theorem structuralTest_duplicate {j : Nat} {l : Leg} (hl : o.legs[j]? = some l) (hdup : l.seg ∈ (o.legs.take j).map Leg.seg)
    (hfirst : ((o.legs.take j).map Leg.seg).Nodup) : structuralTest c o = some (.duplicateSegment, j + 1) := by
  rw [structuralTest_of_count hsome htop, firstDuplicate_eq_some hl (.inr hdup) hfirst (by simp), Nat.add_comm]

variable (hnodup : (o.legs.map Leg.seg).Nodup)
include hnodup

theorem structuralTest_legLength {j : Nat} {l : Leg} (hl : o.legs[j]? = some l)
    (hbad : l.len < 2000 ∨ 600000 < l.len ∨ l.len < c.length + 2 * c.tol)
    (hfirst : ∀ m ∈ o.legs.take j, 2000 ≤ m.len ∧ m.len ≤ 600000 ∧ c.length + 2 * c.tol ≤ m.len) :
    structuralTest c o = some (.legLength, j + 1) := by
  rw [structuralTest_of_count hsome htop, firstDuplicate_eq_none hnodup (by simp),
    firstLeg_eq_some hl ((badLength_iff c l).mpr hbad) fun m hm => badLength_eq_false (hfirst m hm)]

variable (hlengths : ∀ m ∈ o.legs, 2000 ≤ m.len ∧ m.len ≤ 600000 ∧ c.length + 2 * c.tol ≤ m.len)
include hlengths

theorem structuralTest_speedZero {j : Nat} {l : Leg} (hl : o.legs[j]? = some l) (hzero : l.limit = 0)
    (hfirst : ∀ m ∈ o.legs.take j, m.limit ≠ 0) : structuralTest c o = some (.speedZero, j + 1) := by
  rw [structuralTest_of_count hsome htop, firstDuplicate_eq_none hnodup (by simp),
    firstLeg_eq_none fun m hm => badLength_eq_false (hlengths m hm),
    firstLeg_eq_some hl (decide_eq_true hzero) fun m hm => decide_eq_false (hfirst m hm)]

variable (hlimits : ∀ m ∈ o.legs, m.limit ≠ 0)
include hlimits

theorem structuralTest_pad : structuralTest c o = (badPad c o).map (fun i => (.padPlacement, i)) := by
  rw [structuralTest_of_count hsome htop, firstDuplicate_eq_none hnodup (by simp),
    firstLeg_eq_none fun m hm => badLength_eq_false (hlengths m hm), firstLeg_eq_none fun m hm => decide_eq_false (hlimits m hm)]

end Tests

theorem badPad_of_other_leg {c : CommRec} {o : OrderRec} {p : PadSpec} (hp : o.pad = some p) (hleg : p.leg ≠ o.legs.length) :
    badPad c o = some p.leg := by
  simp [badPad, hp, hleg]

theorem badPad_of_last_leg {c : CommRec} {o : OrderRec} {p : PadSpec} {l : Leg} (hp : o.pad = some p)
    (hleg : p.leg = o.legs.length) (hl : o.legs.getLast? = some l) :
    badPad c o = if p.offset + c.margin > l.len then some p.leg else none := by
  have hne : o.legs.length ≠ 0 := fun h => by simp [List.length_eq_zero_iff.mp h] at hl
  have hat : legAt o.legs o.legs.length = some l := by rw [legAt, if_neg hne, ← List.getLast?_eq_getElem?, hl]
  simp [badPad, hp, hleg, hat]

/-! ## An ORDER that does not start at once (R7) -/

theorem exec_order_carriage {src : Addr} {o : OrderRec} {s : State} (hfront : atFront src (.order o) s = true)
    (hkind : s.tli.kind = .carriage) : exec (.order src o) s = .next (takeOrder o (taken s)) := by
  show execOrder src o s = _
  rw [execOrder, deliver_of_atFront _ hfront rfl]
  simp [hkind]

theorem exec_order_points {src : Addr} {o : OrderRec} {s : State} (hfront : atFront src (.order o) s = true)
    (hkind : s.tli.kind = .points) : exec (.order src o) s = .next (wrongKind .order (taken s)) := by
  show execOrder src o s = _
  rw [execOrder, deliver_of_atFront _ hfront rfl]
  simp [hkind]

theorem takeOrder_refused {o : OrderRec} {s : State} {sub : BadOrder} {i : Nat} (h : structuralTest (cfg s) o = some (sub, i)) :
    takeOrder o s = report .os .order (.refused (.badOrder sub i)) o.id s := by
  unfold takeOrder
  rw [h]

section Passed

variable {o : OrderRec} {s : State} (hpass : structuralTest (cfg s) o = none)
include hpass

theorem takeOrder_refused_state (h : s.cs.state = .uncommissioned ∨ s.cs.state = .unlocated ∨ s.cs.state = .fault) :
    takeOrder o s = report .os .order (.refused .state) o.id s := by
  unfold takeOrder
  rw [hpass]
  rcases h with h | h | h <;> simp [h]

/-- The states in which an order goes to the PENDING slot. -/
theorem takeOrder_to_pending (h : s.cs.state = .running ∨ s.cs.state = .stopping ∨ s.cs.state = .halted ∨
      s.cs.state = .undocking ∨ s.cs.state = .docking ∨
        ((s.cs.state = .ready ∨ s.cs.state = .parked) ∧ s.os.active.isSome = true)) :
    takeOrder o s = if s.os.pending.isSome then report .os .order (.refused .storeFull) o.id s
      else report .os .order .accepted o.id (s.setOs { s.os with pending := some (storedOrder (cfg s) o) }) := by
  unfold takeOrder
  rw [hpass]
  rcases h with h | h | h | h | h | ⟨h | h, hactive⟩
  case inr.inr.inr.inr.inr.inl =>
    obtain ⟨a, ha⟩ := Option.isSome_iff_exists.mp hactive
    simp [h, ha]
  case inr.inr.inr.inr.inr.inr =>
    obtain ⟨a, ha⟩ := Option.isSome_iff_exists.mp hactive
    simp [h, ha]
  all_goals simp [h]

theorem takeOrder_empty (h : s.cs.state = .ready ∨ s.cs.state = .parked) (hactive : s.os.active = none) :
    takeOrder o s =
      let s1 := s.setOs { s.os with active := some (waitingOrder (storedOrder (cfg s) o)) }
      if s.cs.latch.isSome then report .os .order .accepted o.id s1
      else if firstLegOk (storedOrder (cfg s) o) s1 then startActive 1 (report .os .order .accepted o.id s1)
      else startActive 1 s1 := by
  unfold takeOrder
  rw [hpass]
  rcases h with h | h <;> simp [h, hactive]

end Passed

theorem storedOrder_getElem {c : CommRec} {o : OrderRec} {k : Nat} {l : Leg} (h : o.legs[k]? = some l) :
    (storedOrder c o).legs[k]? =
      some { l with limit := min l.limit c.ceiling, convoy := l.convoy && l.points.isNone } := by
  simp [storedOrder, h, storedLeg]

/-- Settles O20: the tests one after the other, and then the slot by the carriage state. -/
theorem orderTested : Obligations.OrderTested := by
  refine ⟨fun c o => ⟨structuralTest_legCount, fun hsome htop =>
      ⟨fun j l hl hdup hfirst => structuralTest_duplicate hsome htop hl hdup hfirst, fun hnodup =>
        ⟨fun j l hl hbad hfirst => structuralTest_legLength hsome htop hnodup hl hbad hfirst, fun hlengths =>
          ⟨fun j l hl hzero hfirst => structuralTest_speedZero hsome htop hnodup hlengths hl hzero hfirst, fun hlimits => ?_⟩⟩⟩,
      List.length_map _, fun k l => storedOrder_getElem⟩,
    fun src o s hfront => ⟨exec_order_points hfront, fun hkind => ?_⟩⟩
  · rw [structuralTest_pad hsome htop hnodup hlengths hlimits]
    refine ⟨fun hp => by simp [badPad, hp], fun p hp => ⟨fun hleg => by simp [badPad_of_other_leg hp hleg],
      fun l hleg hl => ?_⟩⟩
    rw [badPad_of_last_leg hp hleg hl]
    split <;> rfl
  · have hexec := exec_order_carriage hfront hkind
    refine ⟨fun sub i h => hexec.trans (congrArg _ (takeOrder_refused h)), fun hpass => ⟨fun h => ?_, fun h => ?_,
      fun h hactive hlatch => ?_⟩⟩
    · exact hexec.trans (congrArg _ (takeOrder_refused_state hpass h))
    · have hpending := takeOrder_to_pending (s := taken s) hpass h
      refine ⟨fun hnone => ?_, fun hsome => ?_⟩
      · exact hexec.trans (congrArg _ (hpending.trans (if_neg (by simp [hnone]))))
      · exact hexec.trans (congrArg _ (hpending.trans (if_pos hsome)))
    · exact hexec.trans (congrArg _ ((takeOrder_empty (s := taken s) hpass h hactive).trans (if_pos hlatch)))

end Sys2Proof.Machine
end


section
/-! What the shared operations do, apart from the frames that wait and the two countdowns that queuing frames moves. The state
without these is `blank`; each operation that queues frames is equal, under `blank`, to a plain update of the blocks. -/

namespace Sys2Proof.Machine

open Sys2Proof

/-- The state without the frames that wait, the displacements they cause, the refresh countdown that ends with the last frame
of a refresh, and the time since the last POSITION was queued. -/
def blank (s : State) : State :=
  ((s.setTli
    { s.tli with txq := [], kept := [], offerLine := [], keptPosition := none, keptPoints := none,
                 counters := { s.tli.counters with displaced := 0 } }).setCe
    { s.ce with refresh := none, refreshOut := false }).setPu { s.pu with timer := none }

/-- An operation that reads nothing of what `blank` leaves out takes states equal under it to states equal under it. -/
theorem blank_congr {F : State → State} (hF : ∀ u, blank (F (blank u)) = blank (F u)) {s t : State} (h : blank s = blank t) :
    blank (F s) = blank (F t) := by
  rw [← hF s, h, hF t]

section Parts

variable {s t : State} (h : blank s = blank t)
include h

theorem os_of_blank : s.os = t.os := by have := congrArg State.os h; exact this
theorem ov_of_blank : s.ov = t.ov := by have := congrArg State.ov h; exact this
theorem eu_of_blank : s.eu = t.eu := by have := congrArg State.eu h; exact this
theorem cr_of_blank : s.cr = t.cr := by have := congrArg State.cr h; exact this
theorem ds_of_blank : s.ds = t.ds := by have := congrArg State.ds h; exact this
theorem cs_of_blank : s.cs = t.cs := by have := congrArg State.cs h; exact this
theorem pa_of_blank : s.pa = t.pa := by have := congrArg State.pa h; exact this
theorem own_of_blank : s.ce.own = t.ce.own := by have := congrArg (fun u => u.ce.own) h; exact this
theorem span_of_blank : s.ce.span = t.ce.span := by have := congrArg (fun u => u.ce.span) h; exact this
theorem kind_of_blank : s.tli.kind = t.tli.kind := by have := congrArg (fun u => u.tli.kind) h; exact this
theorem addr_of_blank : s.tli.addr = t.tli.addr := by have := congrArg (fun u => u.tli.addr) h; exact this
theorem clash_of_blank : s.tli.clash = t.tli.clash := by have := congrArg (fun u => u.tli.clash) h; exact this
theorem silent_of_blank : s.tli.silent = t.tli.silent := by have := congrArg (fun u => u.tli.silent) h; exact this
theorem inbound_of_blank : s.tli.inbound = t.tli.inbound := by have := congrArg (fun u => u.tli.inbound) h; exact this

theorem ce_of_blank : s.ce = { t.ce with refresh := s.ce.refresh, refreshOut := s.ce.refreshOut } := by
  have hce : { s.ce with refresh := none, refreshOut := false } = { t.ce with refresh := none, refreshOut := false } :=
    congrArg State.ce h
  exact congrArg (fun c => { c with refresh := s.ce.refresh, refreshOut := s.ce.refreshOut }) hce

theorem pu_of_blank : s.pu = { t.pu with timer := s.pu.timer } := by
  have hpu : { s.pu with timer := none } = { t.pu with timer := none } := congrArg State.pu h
  exact congrArg (fun p => { p with timer := s.pu.timer }) hpu

end Parts

/-! ## Queuing frames changes nothing else -/

theorem blank_refresh (r : Option Ms) (out : Bool) (s : State) :
    blank (s.setCe { s.ce with refresh := r, refreshOut := out }) = blank s := rfl

theorem blank_settleRefresh (s : State) : blank (settleRefresh s) = blank s := by
  rw [settleRefresh_eq]
  unfold refreshSettled
  split <;> rfl

theorem offerPlain_frame (e : TxEntry) (t : Tli) : ∃ q k l c, offerPlain e t =
    { t with txq := q, kept := k, offerLine := l, counters := { t.counters with displaced := c } } := by
  unfold offerPlain keepFrame
  repeat' split
  all_goals exact ⟨_, _, _, _, rfl⟩

theorem offerTli_frame (e : TxEntry) (t : Tli) : ∃ q k l p n c, offerTli e t =
    { t with txq := q, kept := k, offerLine := l, keptPosition := p, keptPoints := n,
             counters := { t.counters with displaced := c } } := by
  obtain ⟨q, k, l, c, h⟩ := offerPlain_frame e t
  unfold offerTli
  repeat' split
  all_goals first
    | exact ⟨_, _, _, _, _, _, rfl⟩
    | exact ⟨q, k, l, _, _, c, h⟩

theorem fill_frame (t : Tli) : ∃ q k l, fill t = { t with txq := q, kept := k, offerLine := l } := by
  have key (n : Nat) (t : Tli) : ∃ q k l, fillLoop n t = { t with txq := q, kept := k, offerLine := l } := by
    induction n generalizing t with
    | zero => exact ⟨_, _, _, rfl⟩
    | succ n ih =>
      unfold fillLoop
      repeat' split
      · exact ⟨_, _, _, rfl⟩
      · rename_i b i _
        obtain ⟨q, k, l, h⟩ := ih (placeKept b i t)
        exact ⟨q, k, l, h⟩
      · exact ⟨_, _, _, rfl⟩
  exact key _ t

theorem blank_offer (b : Block) (p : Bool) (g : TxTag) (f : Frame) (s : State) : blank (offer b p g f s) = blank s := by
  obtain ⟨q, k, l, n, m, c, h⟩ := offerTli_frame
    { frame := f, block := b, periodic := p, tag := g, sending := false, cut := [], withdrawn := false } s.tli
  rw [offer, blank_settleRefresh, h]
  rfl

theorem blank_report (b : Block) (u : Subject) (o : ReportOutcome) (n : Nat) (s : State) :
    blank (report b u o n s) = blank s := by
  unfold report
  split
  · rfl
  · exact blank_offer ..

theorem blank_queueClaim (g : TxTag) (c : Nat) (l : List OwnClaim) (s : State) : blank (queueClaim g c l s) = blank s := by
  unfold queueClaim
  split
  · rfl
  · exact blank_offer ..

theorem blank_queueReleases (l : List Seg) (s : State) : blank (queueReleases l s) = blank s :=
  queueReleases_keeps (fun t => blank t = blank s) (fun _ _ h => (blank_offer ..).trans h) l s rfl

theorem blank_queueFrees (l : List Addr) (s : State) : blank (queueFrees l s) = blank s :=
  queueFrees_keeps (fun t => blank t = blank s) (fun _ _ h => (blank_offer ..).trans h) l s rfl

theorem blank_queuePosition (s : State) : blank (queuePosition s) = blank s := by
  unfold queuePosition
  split
  · rfl
  · have h := blank_offer .pu true .plain (.position (positionNotice s)) s
    exact h

theorem blank_editClaims (l : List Seg) (s : State) : blank (s.setTli (editClaims l s.tli)) = blank s := by
  obtain ⟨q, k, o, h⟩ := fill_frame (pruneLine
    { s.tli with txq := s.tli.txq.filterMap (cutClaim l), kept := s.tli.kept.filterMap (cutClaim l) })
  rw [editClaims, h]
  rfl

theorem blank_withdrawSpanFrames (l : List Seg) (s : State) : blank (s.setTli (withdrawSpanFrames l s.tli)) = blank s := by
  unfold withdrawSpanFrames
  obtain ⟨q, k, o, h⟩ := fill_frame (pruneLine
    { s.tli with txq := (s.tli.txq.filter (fun e => !(isSpanFrame l e && !e.sending))).map
                   (fun e => if isSpanFrame l e then { e with withdrawn := true } else e),
                 kept := s.tli.kept.filter (fun e => !isSpanFrame l e) })
  rw [h]
  rfl

/-! ## The own claim list (R64 to R67) -/

/-- The own claim list as it stands, with the firm end handed anew. -/
def withOwn (own : List OwnClaim) (s : State) : State :=
  s.setCe { s.ce with own := own, firmEnd := firmEndOf (s.setCe { s.ce with own := own }) }

theorem blank_setOwn (own : List OwnClaim) (s : State) : blank (setOwn own s) = blank (withOwn own s) := by
  unfold setOwn
  dsimp only
  split
  · exact blank_queuePosition _
  · rfl

theorem blank_releaseStep (gone named : List Seg) (frees : List Addr) (s : State) :
    blank (releaseStep gone named frees s) = blank (withOwn (s.ce.own.filter (fun e => decide (e.seg ∉ gone))) s) := by
  unfold releaseStep
  dsimp only
  rw [blank_queueFrees, blank_queueReleases, blank_settleRefresh, blank_editClaims, blank_setOwn]

theorem mem_map_seg_ownOf {gone : List Seg} {s : State} {e : OwnClaim} (h : e ∈ s.ce.own) :
    e.seg ∈ (ownOf gone s).map OwnClaim.seg ↔ e.seg ∈ gone := by
  simp only [ownOf, List.mem_map, List.mem_filter, decide_eq_true_eq]
  constructor
  · rintro ⟨k, ⟨-, hk⟩, heq⟩
    exact heq ▸ hk
  · exact fun hg => ⟨e, ⟨h, hg⟩, rfl⟩

theorem filter_not_ownOf (gone : List Seg) (s : State) :
    s.ce.own.filter (fun e => decide (e.seg ∉ (ownOf gone s).map OwnClaim.seg)) =
      s.ce.own.filter (fun e => decide (e.seg ∉ gone)) :=
  List.filter_congr fun _ he => decide_eq_decide.mpr (not_congr (mem_map_seg_ownOf he))

theorem blank_releaseOwn {gone : List Seg} {s : State} (h : ∃ e ∈ s.ce.own, e.seg ∈ gone) :
    blank (releaseOwn gone s) = blank (withOwn (s.ce.own.filter (fun e => decide (e.seg ∉ gone))) s) := by
  have hne : ¬ (ownOf gone s).isEmpty = true := by
    obtain ⟨e, he, hg⟩ := h
    simp only [List.isEmpty_iff]
    exact List.ne_nil_of_mem (List.mem_filter.mpr ⟨he, decide_eq_true hg⟩)
  unfold releaseOwn
  dsimp only
  rw [if_neg hne, blank_releaseStep, filter_not_ownOf]

theorem releaseOwn_of_none {gone : List Seg} {s : State} (h : ∀ e ∈ s.ce.own, e.seg ∉ gone) : releaseOwn gone s = s := by
  have hnil : (ownOf gone s).isEmpty = true := by
    simp only [List.isEmpty_iff, ownOf, List.filter_eq_nil_iff, decide_eq_true_eq]
    exact h
  exact if_pos hnil

theorem releaseOwn_own (gone : List Seg) (s : State) :
    (releaseOwn gone s).ce.own = s.ce.own.filter (fun e => decide (e.seg ∉ gone)) := by
  by_cases h : ∃ e ∈ s.ce.own, e.seg ∈ gone
  · exact congrArg (fun u => u.ce.own) (blank_releaseOwn h)
  · have h : ∀ e ∈ s.ce.own, e.seg ∉ gone := fun e he hg => h ⟨e, he, hg⟩
    rw [releaseOwn_of_none h, List.filter_eq_self.mpr fun e he => decide_eq_true (h e he)]

/-- A release changes the own list and the firm end alone. -/
theorem blank_releaseOwn_eq (gone : List Seg) (s : State) : ∃ f, blank (releaseOwn gone s) = blank (s.setCe
    { s.ce with own := s.ce.own.filter (fun e => decide (e.seg ∉ gone)), firmEnd := f }) := by
  by_cases h : ∃ e ∈ s.ce.own, e.seg ∈ gone
  · exact ⟨_, blank_releaseOwn h⟩
  · have h : ∀ e ∈ s.ce.own, e.seg ∉ gone := fun e he hg => h ⟨e, he, hg⟩
    refine ⟨s.ce.firmEnd, ?_⟩
    rw [releaseOwn_of_none h, List.filter_eq_self.mpr fun e he => decide_eq_true (h e he)]
    rfl

/-! ## The span in flight (R57) -/

/-- The state once a span in flight has gone, its entries and those on `more` with it. -/
def withoutSpan (sp : Span) (more : List Seg) (s : State) : State :=
  let t := withOwn (s.ce.own.filter (fun e => decide (e.seg ∉ spanSegs s ++ more))) s
  (t.setCe { t.ce with span := none }).setOs
    { s.os with active := s.os.active.map (fun a => { a with nextClaim := sp.first }) }

theorem setNextClaim_eq (k : Nat) (s : State) :
    setNextClaim k s = s.setOs { s.os with active := s.os.active.map (fun a => { a with nextClaim := k }) } := by
  unfold setNextClaim
  split
  · rename_i h
    simp only [h, Option.map_none]
    rw [← h]
    rfl
  · rename_i a h
    simp only [h, Option.map_some]

theorem blank_withOwn {own : List OwnClaim} {s t : State} (h : blank s = blank t) :
    blank (withOwn own s) = blank (withOwn own t) :=
  blank_congr (F := withOwn own) (fun _ => rfl) h

theorem blank_endSpan {sp : Span} {more : List Seg} {s : State} (h : s.ce.span = some sp) :
    blank (endSpan more s) = blank (withoutSpan sp more s) := by
  unfold endSpan
  rw [h]
  dsimp only
  have hstep (named : List Seg) (frees : List Addr) :
      blank (releaseStep ((ownOf (spanSegs s ++ more) s).map OwnClaim.seg) named frees
        (s.setTli (withdrawSpanFrames (spanSegs s) s.tli))) =
        blank (withOwn (s.ce.own.filter (fun e => decide (e.seg ∉ spanSegs s ++ more))) s) := by
    rw [blank_releaseStep, ← filter_not_ownOf (spanSegs s ++ more) s]
    exact blank_withOwn (blank_withdrawSpanFrames (spanSegs s) s)
  rw [setNextClaim_eq]
  exact blank_congr (F := fun u => (u.setOs
    { u.os with active := u.os.active.map (fun a => { a with nextClaim := sp.first }) }).setCe { u.ce with span := none })
    (fun _ => rfl) (hstep _ _)

theorem endSpan_of_none {s : State} (h : s.ce.span = none) : endSpan [] s = s := by
  have hrelease : releaseOwn [] s = s := releaseOwn_of_none fun _ _ => List.not_mem_nil
  unfold endSpan
  rw [h]
  exact hrelease

theorem withoutSpan_own (sp : Span) (s : State) : (withoutSpan sp [] s).ce.own = outsideSpan s := by
  simp [withoutSpan, withOwn, outsideSpan]

/-- An abort with its record (R57). -/
theorem blank_abortSpan {sp : Span} {reason : AbortReason} {seg : Seg} {rival : Addr} {s : State} (h : s.ce.span = some sp) :
    blank (abortSpan reason seg rival s) = blank (recordAbort reason seg rival sp.attempt (withoutSpan sp [] s)) := by
  unfold abortSpan
  rw [h]
  refine blank_congr (F := recordAbort reason seg rival sp.attempt) (fun _ => rfl) (blank_endSpan h)

/-! ## The order leaves the ACTIVE slot (R12, R105) -/

/-- The end record of an end once the route form is gone (R105). -/
def endAfter (s : State) (e : End) : Option EndRec :=
  match s.pu.route, s.os.active with
  | some _, some a => some { seg := (endPos s e).1, off := (endPos s e).2, aSense := routeSense a e }
  | _, _ => endRec s e

/-- The boundary the reader at an end keeps once the route form is gone (R110). -/
def readAfter (s : State) (e : End) : Option EndRead :=
  match s.pu.route, s.os.active with
  | some r, some a => readKept s a r e
  | _, _ => keptRead s e

/-- The position in the end form (R105). -/
def inEndForm (s : State) : PosUnit :=
  { s.pu with endA := endAfter s .a, endB := endAfter s .b, route := none, padRead := none,
              readA := readAfter s .a, readB := readAfter s .b }

theorem toEndForm_eq (s : State) : toEndForm s = s.setPu (inEndForm s) := by
  unfold toEndForm inEndForm endAfter readAfter endRec keptRead
  cases s.pu.route <;> cases s.os.active <;> rfl

/-- The occupied-leg memory once the order has left (R12). -/
def memoryAfter (s : State) : List (Seg × Speed) :=
  match started s with
  | some a => memoryOf a
  | none => s.os.memory

/-- The state once the active order has left, its span in flight gone already. -/
def vacated (s : State) : State :=
  ((((s.setPu (inEndForm s)).setOs
    { active := none, pending := s.os.pending, memory := memoryAfter s, stopMark := false }).setCe
    { s.ce with own := s.ce.own.map (fun e => { e with leg := .none }), firmEnd := none, exempt := false,
                backoff := none, attempts := 0, attemptLeg := none, spanLimit := 4, failedHold := none }).setEu
    { s.eu with padStop := false, stopTarget := none }).setCr { s.cr with leader := none, limit := none, hold := false }

theorem orderLeaves_eq (s : State) : orderLeaves s = vacated (endSpan [] s) := by
  generalize hu : endSpan [] s = u
  unfold orderLeaves
  rw [hu]
  dsimp only
  unfold vacated memoryAfter
  cases hstarted : started u with
  | none =>
    rw [toEndForm_eq]
    rfl
  | some a =>
    rw [toEndForm_eq]
    rfl

theorem blank_vacated {s t : State} (h : blank s = blank t) : blank (vacated s) = blank (vacated t) :=
  blank_congr (F := vacated) (fun _ => rfl) h

theorem orderLeaves_of_no_span {s : State} (h : s.ce.span = none) : orderLeaves s = vacated s := by
  rw [orderLeaves_eq, endSpan_of_none h]

theorem blank_orderLeaves {sp : Span} {s : State} (h : s.ce.span = some sp) :
    blank (orderLeaves s) = blank (vacated (withoutSpan sp [] s)) := by
  rw [orderLeaves_eq]
  exact blank_vacated (blank_endSpan h)

/-- What leaves with the order, a span in flight or none. -/
theorem orderLeaves_parts (s : State) : (orderLeaves s).os.active = none ∧ (orderLeaves s).os.pending = s.os.pending ∧
    (orderLeaves s).os.stopMark = false ∧ (orderLeaves s).ce.span = none ∧ (orderLeaves s).ce.firmEnd = none ∧
    (orderLeaves s).pu.route = none ∧ (orderLeaves s).pu.known = s.pu.known ∧ (orderLeaves s).cr.leader = none ∧
    (orderLeaves s).cr.hold = false ∧ (orderLeaves s).ce.attempts = 0 ∧
    (orderLeaves s).eu = { s.eu with padStop := false, stopTarget := none } := by
  cases hspan : s.ce.span with
  | none =>
    rw [orderLeaves_of_no_span hspan]
    exact ⟨rfl, rfl, rfl, hspan, rfl, rfl, rfl, rfl, rfl, rfl, rfl⟩
  | some sp =>
    have h := blank_orderLeaves hspan
    exact ⟨congrArg OrderStore.active (os_of_blank h), (congrArg OrderStore.pending (os_of_blank h)).trans rfl,
      congrArg OrderStore.stopMark (os_of_blank h), span_of_blank h, congrArg ClaimEngine.firmEnd (ce_of_blank h),
      congrArg PosUnit.route (pu_of_blank h), (congrArg PosUnit.known (pu_of_blank h)).trans rfl, congrArg Convoy.leader (cr_of_blank h),
      congrArg Convoy.hold (cr_of_blank h), congrArg ClaimEngine.attempts (ce_of_blank h), eu_of_blank h⟩

/-! ## A carriage state is entered -/

/-- The state once the carriage has entered another state than its own. -/
def entered (st : CarState) (s : State) : State :=
  (((s.setCs { s.cs with state := st, stopCond := if st = .stopping then s.cs.stopCond else none }).setEu
    { s.eu with demand := if movingState st then s.eu.demand else 0, brake := entryBrake st s.eu.brake,
                exceed := if movingState st then s.eu.exceed else 0,
                rest := movingState st && decide (s.eu.demand = 0) && s.pu.standstill,
                stopTarget := if st = .stopping then s.eu.stopTarget else none }).setPu
    { s.pu with stillDist := if driftState st then 0 else s.pu.stillDist }).setCr
    { s.cr with leader := if movingState st then s.cr.leader else none, limit := if movingState st then s.cr.limit else none,
                hold := movingState st && s.cr.hold }

theorem blank_enterState {st : CarState} {s : State} (h : st ≠ s.cs.state) :
    blank (enterState st s) = blank (entered st s) := by
  unfold enterState entered clearConvoy
  rw [if_neg h, blank_queuePosition]
  cases st <;> rfl

theorem enterState_of_eq {st : CarState} {s : State} (h : st = s.cs.state) : enterState st s = s := if_pos h

theorem blank_entered {st : CarState} {s t : State} (h : blank s = blank t) : blank (entered st s) = blank (entered st t) :=
  blank_congr (F := entered st) (fun _ => rfl) h

theorem blank_makeStanding {s : State} (h : ∃ e ∈ s.ce.own, e.seg = (headPos s).1 ∧ e.st ≠ .standing) :
    blank (makeStanding s) =
      blank (withOwn (s.ce.own.map (fun e => if e.seg = (headPos s).1 then { e with st := .standing } else e)) s) := by
  unfold makeStanding
  dsimp only
  rw [if_pos (by simpa using h), blank_queueClaim, blank_setOwn]

theorem makeStanding_of_stands {s : State} (h : ∀ e ∈ s.ce.own, e.seg = (headPos s).1 → e.st = .standing) :
    makeStanding s = s := by
  unfold makeStanding
  exact if_neg (by simpa using h)

/-- In either case the entry under the head stands. -/
theorem makeStanding_own (s : State) : (makeStanding s).ce.own =
    s.ce.own.map (fun e => if e.seg = (headPos s).1 then { e with st := .standing } else e) := by
  by_cases h : ∃ e ∈ s.ce.own, e.seg = (headPos s).1 ∧ e.st ≠ .standing
  · exact own_of_blank (blank_makeStanding h)
  · have h : ∀ e ∈ s.ce.own, e.seg = (headPos s).1 → e.st = .standing := fun e he hg =>
      by_contra fun hst => h ⟨e, he, hg, hst⟩
    rw [makeStanding_of_stands h]
    refine ((List.map_congr_left fun e he => ?_).trans (List.map_id _)).symm
    by_cases hg : e.seg = (headPos s).1
    · rw [if_pos hg, ← h e he hg]
      rfl
    · rw [if_neg hg]
      rfl

theorem blank_makeStanding_eq (s : State) : ∃ f, blank (makeStanding s) = blank (s.setCe
    { s.ce with own := s.ce.own.map (fun e => if e.seg = (headPos s).1 then { e with st := .standing } else e),
                firmEnd := f }) := by
  by_cases h : ∃ e ∈ s.ce.own, e.seg = (headPos s).1 ∧ e.st ≠ .standing
  · exact ⟨_, blank_makeStanding h⟩
  · have h : ∀ e ∈ s.ce.own, e.seg = (headPos s).1 → e.st = .standing := fun e he hg =>
      by_contra fun hst => h ⟨e, he, hg, hst⟩
    refine ⟨s.ce.firmEnd, ?_⟩
    rw [← makeStanding_own s, makeStanding_of_stands h]
    rfl

end Sys2Proof.Machine
end


section
/-! What every operation of the carriage's blocks keeps of the line: a lasting frame that waits goes on waiting (R189, R190);
apart from its queues the interface stays as it is; and under an address clash, with the queues empty, nothing of it changes
(R183). -/

namespace Sys2Proof.Machine

open Sys2Proof

/-- An address clash is held, its queues are empty, and no refresh is out. -/
def Muted (s : State) : Prop :=
  s.tli.clash = true ∧ s.tli.txq = [] ∧ s.tli.kept = [] ∧ s.tli.offerLine = [] ∧ s.ce.refreshOut = false

/-- What the operations of the carriage's blocks keep of the line. -/
structure Steady (s t : State) : Prop where
  waits : ∀ b f, f ∈ waiting b s.tli → f ∈ waiting b t.tli
  line : (blank t).tli = (blank s).tli
  muted : Muted s → t.tli = s.tli ∧ t.ce.refresh = s.ce.refresh ∧ t.ce.refreshOut = s.ce.refreshOut ∧
    t.pu.timer = s.pu.timer

namespace Steady

theorem refl (s : State) : Steady s s := ⟨fun _ _ h => h, rfl, fun _ => ⟨rfl, rfl, rfl, rfl⟩⟩

theorem trans {s t u : State} (h : Steady s t) (k : Steady t u) : Steady s u where
  waits b f hf := k.waits b f (h.waits b f hf)
  line := k.line.trans h.line
  muted hm := by
    obtain ⟨htli, hrefresh, hout, htimer⟩ := h.muted hm
    obtain ⟨htli', hrefresh', hout', htimer'⟩ := k.muted (by unfold Muted; rw [htli, hout]; exact hm)
    exact ⟨htli'.trans htli, hrefresh'.trans hrefresh, hout'.trans hout, htimer'.trans htimer⟩

theorem after {s t u : State} (k : Steady t u) (h : Steady s t) : Steady s u := h.trans k

theorem plain {s t : State} (htli : t.tli = s.tli) (hrefresh : t.ce.refresh = s.ce.refresh)
    (hout : t.ce.refreshOut = s.ce.refreshOut) (htimer : t.pu.timer = s.pu.timer) : Steady s t where
  waits b f hf := by rwa [htli]
  line := by unfold blank; rw [htli]; rfl
  muted _ := ⟨htli, hrefresh, hout, htimer⟩

theorem setOs (s : State) (v : OrderStore) : Steady s (s.setOs v) := plain rfl rfl rfl rfl
theorem setEu (s : State) (v : Envelope) : Steady s (s.setEu v) := plain rfl rfl rfl rfl
theorem setCr (s : State) (v : Convoy) : Steady s (s.setCr v) := plain rfl rfl rfl rfl
theorem setDs (s : State) (v : Dock) : Steady s (s.setDs v) := plain rfl rfl rfl rfl
theorem setCs (s : State) (v : Supervisor) : Steady s (s.setCs v) := plain rfl rfl rfl rfl
theorem setOv (s : State) (v : OccView) : Steady s (s.setOv v) := plain rfl rfl rfl rfl
theorem setPu (s : State) (v : PosUnit) (h : v.timer = s.pu.timer) : Steady s (s.setPu v) := plain rfl rfl rfl h
theorem setCe (s : State) (v : ClaimEngine) (h : v.refresh = s.ce.refresh) (h' : v.refreshOut = s.ce.refreshOut) :
    Steady s (s.setCe v) := plain rfl h h' rfl

theorem ite {c : Prop} [Decidable c] {s t u : State} (ht : c → Steady s t) (hu : ¬ c → Steady s u) :
    Steady s (if c then t else u) := by
  split
  case isTrue h => exact ht h
  case isFalse h => exact hu h

theorem foldl {α : Type} (f : State → α → State) (l : List α) (s : State) (h : ∀ t a, Steady t (f t a)) :
    Steady s (l.foldl f s) := by
  induction l generalizing s with
  | nil => exact refl s
  | cons a l ih => exact (h s a).trans (ih _)

theorem queued {s t : State} (h : Steady s t) {b : Block} {f : Frame} (hf : f ∈ waiting b s.tli) : queued f t :=
  queued_of_mem_waiting (h.waits b f hf)

theorem clash {s t : State} (h : Steady s t) : t.tli.clash = s.tli.clash := by have := congrArg Tli.clash h.line; exact this
theorem silent {s t : State} (h : Steady s t) : t.tli.silent = s.tli.silent := by have := congrArg Tli.silent h.line; exact this
theorem inbound {s t : State} (h : Steady s t) : t.tli.inbound = s.tli.inbound := by have := congrArg Tli.inbound h.line; exact this
theorem addr {s t : State} (h : Steady s t) : t.tli.addr = s.tli.addr := by have := congrArg Tli.addr h.line; exact this
theorem kind {s t : State} (h : Steady s t) : t.tli.kind = s.tli.kind := by have := congrArg Tli.kind h.line; exact this

/-- An operation equal under `blank` to a plain update, on a muted line: it is the plain update. -/
theorem eq_of_blank {s t u : State} (h : Steady s t) (hm : Muted s) (hu : Steady s u) (heq : blank t = blank u) : t = u := by
  obtain ⟨htli, hrefresh, hout, htimer⟩ := h.muted hm
  obtain ⟨htli', hrefresh', hout', htimer'⟩ := hu.muted hm
  have hce := ce_of_blank heq
  rw [hrefresh.trans hrefresh'.symm, hout.trans hout'.symm] at hce
  have hpu := pu_of_blank heq
  rw [htimer.trans htimer'.symm] at hpu
  have hrest := congrArg (fun v => ((v.setTli u.tli).setCe u.ce).setPu u.pu) heq
  have hself : t = ((t.setTli u.tli).setCe u.ce).setPu u.pu := by
    conv_lhs => rw [show t = ((t.setTli t.tli).setCe t.ce).setPu t.pu from rfl, htli.trans htli'.symm, hce, hpu]
  exact hself.trans hrest

end Steady

/-! ## On a muted line -/

theorem fill_of_empty {t : Tli} (hq : t.txq = []) (hline : t.offerLine = []) : fill t = t := by
  have hnone : nextPlace t = none := by simp [nextPlace, hline]
  show fillLoop (9 + 1) t = t
  unfold fillLoop
  rw [if_pos (by simp [hq, Config.txCap]), hnone]

theorem emptied_eq {t : Tli} (hq : t.txq = []) (hkept : t.kept = []) (hline : t.offerLine = []) :
    { t with txq := [], kept := [], offerLine := [] } = t := by
  cases t
  simp_all

section MutedLine

variable {s : State} (h : Muted s)
include h

theorem settleRefresh_of_muted : settleRefresh s = s := by
  obtain ⟨-, -, -, -, hout⟩ := h
  unfold settleRefresh
  rw [hout]
  rfl

theorem offer_of_muted (b : Block) (p : Bool) (g : TxTag) (f : Frame) : offer b p g f s = s := by
  have hline : offerTli
      { frame := f, block := b, periodic := p, tag := g, sending := false, cut := [], withdrawn := false } s.tli = s.tli :=
    offerTli_of_clash h.1
  unfold offer
  rw [hline]
  exact settleRefresh_of_muted h

theorem editClaims_of_muted (l : List Seg) : editClaims l s.tli = s.tli := by
  obtain ⟨-, hq, hkept, hline, -⟩ := h
  unfold editClaims
  rw [fill_of_empty (by simp [pruneLine, hq]) (by simp [pruneLine, hkept])]
  simp only [pruneLine, hq, hkept, List.filterMap_nil, List.map_nil]
  exact emptied_eq hq hkept hline

theorem withdrawSpanFrames_of_muted (l : List Seg) : withdrawSpanFrames l s.tli = s.tli := by
  obtain ⟨-, hq, hkept, hline, -⟩ := h
  unfold withdrawSpanFrames
  rw [fill_of_empty (by simp [pruneLine, hq]) (by simp [pruneLine, hkept])]
  simp only [pruneLine, hq, hkept, List.filter_nil, List.map_nil]
  exact emptied_eq hq hkept hline

end MutedLine

/-! ## The shared operations -/

theorem steady_of_blank {s t : State} (hwaits : ∀ b f, f ∈ waiting b s.tli → f ∈ waiting b t.tli) (heq : blank t = blank s)
    (hmuted : Muted s → t = s) : Steady s t where
  waits := hwaits
  line := congrArg State.tli heq
  muted hm := by rw [hmuted hm]; exact ⟨rfl, rfl, rfl, rfl⟩

theorem settleRefresh_steady (s : State) : Steady s (settleRefresh s) :=
  steady_of_blank (fun _ _ h => by rwa [settleRefresh_tli]) (blank_settleRefresh s) settleRefresh_of_muted

theorem offer_steady (b : Block) (p : Bool) (g : TxTag) (f : Frame) (s : State) : Steady s (offer b p g f s) :=
  steady_of_blank (fun _ _ h => by rw [waiting_offer]; exact List.mem_append_left _ h) (blank_offer b p g f s)
    fun h => offer_of_muted h b p g f

theorem report_steady (b : Block) (u : Subject) (o : ReportOutcome) (n : Nat) (s : State) : Steady s (report b u o n s) := by
  unfold report
  split
  · exact .refl s
  · exact offer_steady ..

theorem queuePosition_steady (s : State) : Steady s (queuePosition s) :=
  steady_of_blank (fun _ _ h => by rwa [waiting_queuePosition]) (blank_queuePosition s) fun h => if_pos h.1

theorem queueClaim_steady (g : TxTag) (c : Nat) (l : List OwnClaim) (s : State) : Steady s (queueClaim g c l s) :=
  .ite (fun _ => .refl s) (fun _ => offer_steady ..)

theorem queueReleases_steady (l : List Seg) (s : State) : Steady s (queueReleases l s) :=
  .foldl _ _ s fun _ _ => offer_steady ..

theorem queueFrees_steady (l : List Addr) (s : State) : Steady s (queueFrees l s) :=
  .foldl _ _ s fun _ _ => offer_steady ..

theorem setOwn_steady (own : List OwnClaim) (s : State) : Steady s (setOwn own s) := by
  unfold setOwn
  exact .ite (fun _ => (queuePosition_steady _).after (.plain rfl rfl rfl rfl)) (fun _ => .plain rfl rfl rfl rfl)

theorem editClaims_steady (l : List Seg) (s : State) : Steady s (s.setTli (editClaims l s.tli)) :=
  steady_of_blank (fun b f h => by rwa [State.setTli_tli, waiting, lastingOf_editClaims, ← waiting]) (blank_editClaims l s)
    fun h => by rw [editClaims_of_muted h]; rfl

theorem withdrawSpanFrames_steady (l : List Seg) (s : State) : Steady s (s.setTli (withdrawSpanFrames l s.tli)) :=
  steady_of_blank (fun b f h => by rwa [State.setTli_tli, waiting, lastingOf_withdrawSpanFrames, ← waiting])
    (blank_withdrawSpanFrames l s) fun h => by rw [withdrawSpanFrames_of_muted h]; rfl

theorem releaseStep_steady (gone named : List Seg) (frees : List Addr) (s : State) :
    Steady s (releaseStep gone named frees s) := by
  unfold releaseStep
  refine (queueFrees_steady _ _).after ((queueReleases_steady _ _).after ((settleRefresh_steady _).after ?_))
  exact (editClaims_steady _ _).after (setOwn_steady _ s)

theorem releaseOwn_steady (gone : List Seg) (s : State) : Steady s (releaseOwn gone s) :=
  .ite (fun _ => .refl s) (fun _ => releaseStep_steady _ _ _ s)

theorem setNextClaim_steady (k : Nat) (s : State) : Steady s (setNextClaim k s) := by
  rw [setNextClaim_eq]
  exact .plain rfl rfl rfl rfl

theorem endSpan_steady (more : List Seg) (s : State) : Steady s (endSpan more s) := by
  unfold endSpan
  split
  · exact releaseOwn_steady _ s
  · refine Steady.after (.setCe _ _ rfl rfl) ((setNextClaim_steady _ _).after ((releaseStep_steady _ _ _ _).after ?_))
    exact withdrawSpanFrames_steady _ s

theorem abortSpan_steady (r : AbortReason) (g : Seg) (v : Addr) (s : State) : Steady s (abortSpan r g v s) := by
  unfold abortSpan
  split
  · exact .refl s
  · exact (endSpan_steady [] s).trans (.plain rfl rfl rfl rfl)

theorem resetAttempts_steady (s : State) : Steady s (resetAttempts s) := .plain rfl rfl rfl rfl

theorem vacated_steady (s : State) : Steady s (vacated s) := .plain rfl rfl rfl rfl

theorem orderLeaves_steady (s : State) : Steady s (orderLeaves s) := by
  rw [orderLeaves_eq]
  exact (vacated_steady _).after (endSpan_steady [] s)

theorem entered_steady (st : CarState) (s : State) : Steady s (entered st s) := .plain rfl rfl rfl rfl

theorem enterState_steady (st : CarState) (s : State) : Steady s (enterState st s) := by
  unfold enterState
  refine .ite (fun _ => .refl s) (fun _ => (queuePosition_steady _).after ?_)
  split
  · split
    · exact .plain rfl rfl rfl rfl
    · exact .plain rfl rfl rfl rfl
  · split
    · exact .plain rfl rfl rfl rfl
    · exact .plain rfl rfl rfl rfl

/-! ## Faults -/

theorem jacksOff_steady (s : State) : Steady s (jacksOff s) := .setDs _ _

theorem failOrders_steady (s : State) : Steady s (failOrders s) := by
  have hactive : Steady s (match s.os.active with
      | some a => report .os .orderEnd (.failed .fault) a.ord.id s
      | none => s) := by
    split
    · exact report_steady ..
    · exact .refl s
  unfold failOrders
  dsimp only
  split
  · exact (report_steady _ _ _ _ _).after hactive
  · exact hactive

theorem faultClaims_steady (s : State) : Steady s (faultClaims s) := by
  unfold faultClaims
  dsimp only
  split
  · exact releaseOwn_steady _ _
  · exact (endSpan_steady _ _).trans (.plain rfl rfl rfl rfl)

theorem firstFault_steady (c : FaultCode) (g : Seg) (m : Mm) (s : State) : Steady s (firstFault c g m s) := by
  unfold firstFault
  refine (queuePosition_steady _).after (Steady.after (.ite (fun _ => jacksOff_steady _) (fun _ => .refl _)) ?_)
  refine Steady.after (.setOs _ _) ((orderLeaves_steady _).after ((faultClaims_steady _).after ?_))
  refine (failOrders_steady _).after ((report_steady _ _ _ _ _).after ?_)
  exact Steady.after (.setEu _ _) (.setCs _ _)

theorem furtherFault_steady (c : FaultCode) (s : State) : Steady s (furtherFault c s) := by
  unfold furtherFault
  refine Steady.after (.ite (fun _ => jacksOff_steady _) (fun _ => .refl _)) ((report_steady _ _ _ _ _).after ?_)
  exact .setCs _ _

theorem raiseFaultAt_steady (c : FaultCode) (g : Seg) (m : Mm) (s : State) : Steady s (raiseFaultAt c g m s) :=
  .ite (fun _ => furtherFault_steady c s) (fun _ => firstFault_steady c g m s)

theorem raiseFault_steady (c : FaultCode) (s : State) : Steady s (raiseFault c s) := raiseFaultAt_steady ..

theorem raiseClash_steady (r : Addr) (g : Seg) (s : State) : Steady s (raiseClash r g s) := by
  unfold raiseClash
  refine .ite (fun _ => .refl s) (fun _ => (queueClaim_steady _ _ _ _).after ((raiseFaultAt_steady _ _ _ _).after ?_))
  exact .setCe _ _ rfl rfl

theorem forgetFault_steady (s : State) : Steady s (forgetFault s) := by
  unfold forgetFault
  exact Steady.after (.setCe _ _ rfl rfl) (.setCs _ _)

theorem makeStanding_steady (s : State) : Steady s (makeStanding s) := by
  unfold makeStanding
  exact .ite (fun _ => (queueClaim_steady _ _ _ _).after (setOwn_steady _ _)) (fun _ => .refl s)

theorem enterParked_steady (s : State) : Steady s (enterParked s) := (makeStanding_steady s).trans (enterState_steady _ _)

theorem enterUnlocated_steady (s : State) : Steady s (enterUnlocated s) := by
  unfold enterUnlocated
  exact (enterState_steady _ _).after (Steady.after (.setOs _ _) (Steady.after (.setPu _ _ rfl) (releaseOwn_steady _ s)))

theorem inputFaults_steady (s : State) : Steady s (inputFaults s) := by
  unfold inputFaults
  refine Steady.after (.ite (fun _ => raiseFault_steady _ _) (fun _ => .refl _)) ?_
  exact .ite (fun _ => raiseFault_steady _ s) (fun _ => .refl s)

theorem testTrigger_steady (s : State) : Steady s (testTrigger s) := .ite (fun _ => .setCe _ _ rfl rfl) (fun _ => .refl s)

theorem overrunTest_steady (s : State) : Steady s (overrunTest s) := by
  unfold overrunTest
  split
  · exact .ite (fun _ => raiseFault_steady _ s) (fun _ => .refl s)
  · exact .refl s

/-! ## The life of an order -/

theorem padWatch_steady (s : State) : Steady s (padWatch s) := by
  unfold padWatch
  split
  · split
    · exact .ite (fun _ => raiseFault_steady _ s) (fun _ => .refl s)
    · exact .refl s
  · exact .refl s

theorem leaveUndocking_steady (s : State) : Steady s (leaveUndocking s) := by
  unfold leaveUndocking
  refine .ite (fun _ => (enterState_steady _ _).after (jacksOff_steady s)) (fun _ => (testTrigger_steady _).after ?_)
  exact (enterState_steady _ _).after (jacksOff_steady s)

theorem startUndocking_steady (s : State) : Steady s (startUndocking s) := by
  unfold startUndocking
  refine Steady.after (.ite (fun _ => leaveUndocking_steady _) (fun _ => .refl _)) ((queueClaim_steady _ _ _ _).after ?_)
  refine Steady.after (.ite (fun _ => .refl _) (fun _ => setOwn_steady _ _)) ((enterState_steady _ _).after ?_)
  exact .setDs _ _

theorem beginOrder_steady (o : OrderRec) (s : State) : Steady s (beginOrder o s) := by
  unfold beginOrder
  split
  · refine (testTrigger_steady _).after ((overrunTest_steady _).after ((padWatch_steady _).after ?_))
    refine Steady.after (.ite (fun _ => startUndocking_steady _) (fun _ => enterState_steady _ _)) ?_
    refine Steady.after (.ite (fun _ => queueClaim_steady _ _ _ _) (fun _ => .refl _)) ?_
    refine (setOwn_steady _ _).after ((resetAttempts_steady _).after ?_)
    exact Steady.after (.setCe _ _ rfl rfl) (Steady.after (.setOs _ _) (.setPu _ _ rfl))
  · exact .refl s

theorem startActive_steady (n : Nat) (s : State) : Steady s (startActive n s) := by
  induction n generalizing s with
  | zero => exact .refl s
  | succ n ih =>
    unfold startActive
    split
    · exact .refl s
    · refine .ite (fun _ => beginOrder_steady _ s) (fun _ => ?_)
      dsimp only
      split
      · exact Steady.after (.setOs _ _) (report_steady ..)
      · exact (ih _).after (Steady.after (.setOs _ _) (report_steady ..))

theorem promote_steady (s : State) : Steady s (promote s) := by
  unfold promote
  split
  · exact .refl s
  · exact Steady.after (.ite (fun _ => startActive_steady _ _) (fun _ => .refl _)) (.setOs _ _)

theorem endOrder_steady (o : ReportOutcome) (r p : Bool) (s : State) : Steady s (endOrder o r p s) := by
  unfold endOrder
  split
  · exact .refl s
  · refine (promote_steady _).after (Steady.after (.ite (fun _ => releaseOwn_steady _ _) (fun _ => .refl _)) ?_)
    refine Steady.after (.ite (fun _ => enterParked_steady _) (fun _ => enterState_steady _ _)) ?_
    exact (orderLeaves_steady _).after (report_steady ..)

theorem dockDone_steady (s : State) : Steady s (dockDone s) := (jacksOff_steady s).trans (endOrder_steady ..)

theorem startDocking_steady (s : State) : Steady s (startDocking s) := by
  unfold startDocking
  exact Steady.after (.ite (fun _ => dockDone_steady _) (fun _ => .refl _)) ((enterState_steady _ _).after (.setDs _ _))

theorem undockDone_steady (s : State) : Steady s (undockDone s) :=
  .ite (fun _ => (jacksOff_steady s).trans (endOrder_steady ..)) (fun _ => leaveUndocking_steady s)

theorem alignmentCheck_steady (s : State) : Steady s (alignmentCheck s) := by
  unfold alignmentCheck
  split
  · exact .ite (fun _ => .ite (fun _ => startDocking_steady s) (fun _ => endOrder_steady ..)) (fun _ => endOrder_steady ..)
  · exact .refl s

theorem restEvent_steady (s : State) : Steady s (restEvent s) := by
  have hrest : Steady s (s.setEu { s.eu with rest := true }) := .setEu _ _
  unfold restEvent
  dsimp only
  split
  · exact hrest
  · split
    · exact (endOrder_steady _ _ _ _).after hrest
    · exact (endOrder_steady _ _ _ _).after hrest
    · exact (endOrder_steady _ _ _ _).after hrest
    · exact (endOrder_steady _ _ _ _).after hrest
    · refine .ite (fun _ => (alignmentCheck_steady _).after hrest) (fun _ => ?_)
      refine .ite (fun _ => (endOrder_steady _ _ _ _).after hrest) (fun _ => ?_)
      refine .ite (fun _ => ?_) (fun _ => hrest)
      exact .ite (fun _ => (raiseFault_steady _ _).after hrest) (fun _ => (endOrder_steady _ _ _ _).after hrest)
    · exact hrest

theorem routeBlocked_steady (s : State) : Steady s (routeBlocked s) := by
  unfold routeBlocked
  split
  · exact .refl s
  · exact Steady.after (.ite (fun _ => restEvent_steady _) (fun _ => .refl _)) (.setOs _ _)

theorem countAttempt_steady (r : AbortReason) (n : Nat) (s : State) : Steady s (countAttempt r n s) := by
  unfold countAttempt
  exact Steady.after (.ite (fun _ => .setCe _ _ rfl rfl) (fun _ => routeBlocked_steady _)) (.setCe _ _ rfl rfl)

theorem spanAbort_steady (r : AbortReason) (g : Seg) (v : Addr) (s : State) : Steady s (spanAbort r g v s) := by
  unfold spanAbort
  refine .ite (fun _ => .refl s) (fun _ => (testTrigger_steady _).after ((overrunTest_steady _).after ?_))
  exact Steady.after (.ite (fun _ => countAttempt_steady _ _ _) (fun _ => .refl _)) (abortSpan_steady ..)

theorem takeLocation_steady (h : HeldLoc) (s : State) : Steady s (takeLocation h s) := by
  unfold takeLocation
  refine (inputFaults_steady _).after (Steady.after (.foldl _ _ _ fun t e => ?_) ?_)
  · exact .foldl _ _ _ fun u c => raiseClash_steady _ _ _
  · exact (enterState_steady _ _).after ((queueClaim_steady _ _ _ _).after ((setOwn_steady _ _).after (.setPu _ _ rfl)))

theorem tryLocate_steady (s : State) : Steady s (tryLocate s) := by
  unfold tryLocate
  split
  · exact .refl s
  · exact .ite (fun _ => takeLocation_steady _ s) (fun _ => .refl s)

theorem setLatch_steady (src : Addr) (r : HaltReason) (s : State) : Steady s (setLatch src r s) := by
  unfold setLatch
  refine .ite (fun _ => .refl s) (fun _ => (spanAbort_steady _ _ _ _).after ?_)
  refine Steady.after (.ite (fun _ => enterState_steady _ _) (fun _ => .refl _)) (.setCs _ _)

/-! ## The points node -/
end Sys2Proof.Machine
end


section
/-! Faults (R172 to R174, R78): the plain update a first fault makes, and the parts of the state it leaves. -/

namespace Sys2Proof.Machine

open Sys2Proof

/-- The own claims without those on the given segments; where none is, nothing is handed anew. -/
def releasedOwn (gone : List Seg) (s : State) : State :=
  if ∃ e ∈ s.ce.own, e.seg ∈ gone then withOwn (s.ce.own.filter (fun e => decide (e.seg ∉ gone))) s else s

theorem blank_releaseOwn_plain (gone : List Seg) (s : State) : blank (releaseOwn gone s) = blank (releasedOwn gone s) := by
  unfold releasedOwn
  split
  case isTrue h => exact blank_releaseOwn h
  case isFalse h => rw [releaseOwn_of_none fun e he hg => h ⟨e, he, hg⟩]

/-- Of the claim engine a release changes the own list and the firm end. -/
theorem releasedOwn_eq (gone : List Seg) (s : State) : ∃ f, releasedOwn gone s = s.setCe
    { s.ce with own := s.ce.own.filter (fun e => decide (e.seg ∉ gone)), firmEnd := f } := by
  unfold releasedOwn
  split
  case isTrue h => exact ⟨_, rfl⟩
  case isFalse h =>
    have hall : ∀ e ∈ s.ce.own, decide (e.seg ∉ gone) = true := fun e he => decide_eq_true fun hg => h ⟨e, he, hg⟩
    refine ⟨s.ce.firmEnd, ?_⟩
    rw [List.filter_eq_self.mpr hall]
    rfl

/-- The segments a first fault releases (R78). -/
def faultAhead (s : State) : List Seg := (aheadSegs s).filter (fun g => decide (g ∉ clashSegs s))

/-- The claims once FAULT is entered (R78). -/
def faultGone (s : State) : State :=
  match s.ce.span with
  | none => releasedOwn (faultAhead s) s
  | some sp => recordAbort .faulted ((spanSegs s).headD 0) 0 sp.attempt (withoutSpan sp (faultAhead s) s)

theorem blank_faultClaims (s : State) : blank (faultClaims s) = blank (faultGone s) := by
  unfold faultClaims faultGone
  cases hspan : s.ce.span with
  | none => exact blank_releaseOwn_plain _ s
  | some sp => exact blank_congr (F := recordAbort .faulted ((spanSegs s).headD 0) 0 sp.attempt) (fun _ => rfl) (blank_endSpan hspan)

/-- Of the state it changes the claim engine, and the next leg to claim of the active order. -/
theorem faultGone_eq (s : State) : ∃ c a, faultGone s = (s.setCe c).setOs { s.os with active := a } ∧ c.span = none ∧
    c.clashMem = s.ce.clashMem ∧ c.lostMem = s.ce.lostMem := by
  unfold faultGone
  cases hspan : s.ce.span with
  | none =>
    obtain ⟨f, h⟩ := releasedOwn_eq (faultAhead s) s
    exact ⟨{ s.ce with own := s.ce.own.filter (fun e => decide (e.seg ∉ faultAhead s)), firmEnd := f }, s.os.active, h, hspan,
      rfl, rfl⟩
  | some sp => exact ⟨_, _, rfl, rfl, rfl, rfl⟩

theorem faultAhead_blank (s : State) : faultAhead (blank s) = faultAhead s := rfl
theorem spanSegs_blank (s : State) : spanSegs (blank s) = spanSegs s := rfl

theorem blank_releasedOwn (gone : List Seg) {s t : State} (h : blank s = blank t) :
    blank (releasedOwn gone s) = blank (releasedOwn gone t) := by
  have hown : s.ce.own = t.ce.own := own_of_blank h
  unfold releasedOwn
  rw [hown]
  split
  · exact blank_withOwn h
  · exact h

theorem blank_withoutSpan (sp : Span) (more : List Seg) {s t : State} (h : blank s = blank t) :
    blank (withoutSpan sp more s) = blank (withoutSpan sp more t) :=
  blank_congr (F := withoutSpan sp more) (fun _ => rfl) h

theorem blank_faultGone {s t : State} (h : blank s = blank t) : blank (faultGone s) = blank (faultGone t) := by
  have hspan : s.ce.span = t.ce.span := span_of_blank h
  have hahead : faultAhead s = faultAhead t := by rw [← faultAhead_blank s, h, faultAhead_blank]
  have hsegs : spanSegs s = spanSegs t := by rw [← spanSegs_blank s, h, spanSegs_blank]
  unfold faultGone
  rw [hspan, hahead, hsegs]
  split
  · exact blank_releasedOwn _ h
  · rename_i sp _
    exact blank_congr (F := recordAbort .faulted ((spanSegs t).headD 0) 0 sp.attempt) (fun _ => rfl)
      (blank_withoutSpan sp _ h)

/-- The record, the state and the outputs of a first fault (R173). -/
def faultMarked (code : FaultCode) (seg : Seg) (off : Mm) (s : State) : State :=
  (s.setCs
    { s.cs with state := .fault, stopCond := none,
                fault := some { code := code, seg := seg, off := off, further := 0, last := none,
                                positional := positionalCode code } }).setEu
    { s.eu with demand := 0, brake := .emergency, stopTarget := none, padStop := false, exceed := 0, rest := false }

/-- The state a first fault leaves, its frames apart. -/
def faulted (code : FaultCode) (seg : Seg) (off : Mm) (s : State) : State :=
  let u := vacated (faultGone (faultMarked code seg off s))
  (u.setOs { u.os with pending := none }).setDs
    (if stopsJacks code then { s.ds with cmd := .off, dockTimer := none, undockTimer := none } else s.ds)

theorem blank_failOrders (s : State) : blank (failOrders s) = blank s := by
  have hactive : blank (match s.os.active with
      | some a => report .os .orderEnd (.failed .fault) a.ord.id s
      | none => s) = blank s := by
    split
    · exact blank_report ..
    · rfl
  unfold failOrders
  dsimp only
  split
  · exact (blank_report ..).trans hactive
  · exact hactive

theorem blank_firstFault (code : FaultCode) (seg : Seg) (off : Mm) (s : State) :
    blank (firstFault code seg off s) = blank (faulted code seg off s) := by
  have hmarked (n : Nat) : blank (failOrders (report .cs .fault (.faultRaised code) n (faultMarked code seg off s))) =
      blank (faultMarked code seg off s) := (blank_failOrders _).trans (blank_report ..)
  have hgone (n : Nat) : blank (orderLeaves (faultClaims
      (failOrders (report .cs .fault (.faultRaised code) n (faultMarked code seg off s))))) =
        blank (vacated (faultGone (faultMarked code seg off s))) := by
    have hclaims := (blank_faultClaims _).trans (blank_faultGone (hmarked n))
    obtain ⟨c, a, h, hspan, -⟩ := faultGone_eq (faultMarked code seg off s)
    have hnone : (faultClaims (failOrders (report .cs .fault (.faultRaised code) n (faultMarked code seg off s)))).ce.span =
        none := (span_of_blank hclaims).trans (by rw [h]; exact hspan)
    rw [orderLeaves_of_no_span hnone]
    exact blank_vacated hclaims
  obtain ⟨c, a, h, -⟩ := faultGone_eq (faultMarked code seg off s)
  have hds : (vacated (faultGone (faultMarked code seg off s))).ds = s.ds := by rw [h]; rfl
  unfold firstFault
  extract_lets oid supervisor s1 envelope s2 s3 s4 s5 store s6 s7
  have h5 : blank s5 = blank (vacated (faultGone (faultMarked code seg off s))) := hgone oid
  unfold faulted
  rw [blank_queuePosition, ← hds]
  unfold s7
  split
  · exact (blank_congr (F := fun u => jacksOff (u.setOs { u.os with pending := none })) (fun _ => rfl) h5).trans rfl
  · exact (blank_congr (F := fun u => u.setOs { u.os with pending := none }) (fun _ => rfl) h5).trans rfl

theorem faulted_steady (code : FaultCode) (seg : Seg) (off : Mm) (s : State) : Steady s (faulted code seg off s) := by
  have hgone : Steady (faultMarked code seg off s) (faultGone (faultMarked code seg off s)) := by
    unfold faultGone
    split
    · obtain ⟨f, h⟩ := releasedOwn_eq (faultAhead (faultMarked code seg off s)) (faultMarked code seg off s)
      rw [h]
      exact .setCe _ _ rfl rfl
    · exact .plain rfl rfl rfl rfl
  exact Steady.after (.setDs _ _) (Steady.after (.setOs _ _) ((vacated_steady _).after
    (hgone.after (Steady.after (.setEu _ _) (.setCs _ _)))))

/-- What a first fault leaves (R173), whether or not a span was in flight. -/
theorem firstFault_parts (code : FaultCode) (seg : Seg) (off : Mm) (s : State) :
    let t := firstFault code seg off s
    t.cs = { s.cs with state := .fault, stopCond := none,
                       fault := some { code := code, seg := seg, off := off, further := 0, last := none,
                                       positional := positionalCode code } } ∧
    t.eu = { s.eu with demand := 0, brake := .emergency, stopTarget := none, padStop := false, exceed := 0, rest := false } ∧
    t.os.active = none ∧ t.os.pending = none ∧ t.ce.span = none ∧ t.ce.firmEnd = none ∧
    (t.ce.clashMem = s.ce.clashMem ∧ t.ce.lostMem = s.ce.lostMem) ∧
    (t.cr.leader = none ∧ t.cr.hold = false) ∧ (t.pu.route = none ∧ t.pu.known = s.pu.known ∧
      t.pu.standstill = s.pu.standstill) ∧
    t.ds = (if stopsJacks code then { s.ds with cmd := .off, dockTimer := none, undockTimer := none } else s.ds) := by
  intro t
  have h := blank_firstFault code seg off s
  obtain ⟨c, a, hgone, hspan, hclash, hlost⟩ := faultGone_eq (faultMarked code seg off s)
  unfold faulted at h
  rw [hgone] at h
  have hce := ce_of_blank h
  have hpu := pu_of_blank h
  refine ⟨cs_of_blank h, eu_of_blank h, congrArg OrderStore.active (os_of_blank h),
    congrArg OrderStore.pending (os_of_blank h), (span_of_blank h).trans hspan, congrArg ClaimEngine.firmEnd hce,
    ⟨(congrArg ClaimEngine.clashMem hce).trans hclash, (congrArg ClaimEngine.lostMem hce).trans hlost⟩,
    ⟨congrArg Convoy.leader (cr_of_blank h), congrArg Convoy.hold (cr_of_blank h)⟩,
    ⟨congrArg PosUnit.route hpu, (congrArg PosUnit.known hpu).trans rfl, (congrArg PosUnit.standstill hpu).trans rfl⟩,
    ds_of_blank h⟩

end Sys2Proof.Machine
end


section
/-! FAULT (R171 to R174, R78): the first fault and a further one, and the equipment inputs. -/

namespace Sys2Proof.Machine

open Sys2Proof

/-! ## The frames of a first fault -/

theorem activeId_eq (s : State) : (match s.os.active with
    | some a => a.ord.id
    | none => 0) = (s.os.active.map (fun a => a.ord.id)).getD 0 := by
  cases s.os.active <;> rfl

/-- The RELEASEs of a release step name every entry that leaves. -/
theorem release_of_releasedWith {gone : List OwnClaim} {more : List Frame} {s t : State} (h : releasedWith gone more s t)
    {e : OwnClaim} (he : e ∈ gone) : ∃ ids, e.seg ∈ ids ∧ .release ids ∈ waiting .ce t.tli := by
  obtain ⟨nodes, -, -, hwaits⟩ := h
  obtain ⟨ids, hids, hmem⟩ := mem_chunk4 (List.mem_map_of_mem (f := OwnClaim.seg) he)
  refine ⟨ids, hmem, ?_⟩
  rw [hwaits]
  refine List.mem_append_left _ (List.mem_append_left _ (List.mem_append_right _ ?_))
  rw [chunk4_eq, List.length_map] at hids
  obtain ⟨j, hj, rfl⟩ := List.mem_map.mp hids
  exact List.mem_map.mpr ⟨j, hj, rfl⟩

/-- One POINTS-FREE goes to each node of an entry that leaves with its points queued, granted or freed. -/
theorem free_of_releasedWith {gone : List OwnClaim} {more : List Frame} {s t : State} (h : releasedWith gone more s t)
    {e : OwnClaim} {p : OwnPoints} (he : e ∈ gone) (hp : e.points = some p) (hst : p.status ≠ .asked) :
    .pointsFree p.node ∈ waiting .ce t.tli := by
  obtain ⟨nodes, -, hnodes, hwaits⟩ := h
  rw [hwaits]
  exact List.mem_append_left _ (List.mem_append_right _ (List.mem_map_of_mem ((hnodes p.node).mpr ⟨e, he, p, hp, hst, rfl⟩)))

theorem mem_waiting_report {b : Block} {u : Subject} {o : ReportOutcome} {n : Nat} {s : State} {c : Addr}
    (hclash : s.tli.clash = false) (hc : console s = some c) :
    .report c { subject := u, outcome := o, oid := n } ∈ waiting b (report b u o n s).tli := by
  rw [waiting_report b b u o n c s hclash hc]
  simp

theorem report_console (b : Block) (u : Subject) (o : ReportOutcome) (n : Nat) (s : State) :
    console (report b u o n s) = console s := by
  unfold console
  simp

theorem failOrders_waits {s : State} {c : Addr} (hclash : s.tli.clash = false) (hc : console s = some c) :
    (∀ a, s.os.active = some a →
      .report c { subject := .orderEnd, outcome := .failed .fault, oid := a.ord.id } ∈ waiting .os (failOrders s).tli) ∧
    (∀ o, s.os.pending = some o →
      .report c { subject := .orderEnd, outcome := .cancelled, oid := o.id } ∈ waiting .os (failOrders s).tli) := by
  unfold failOrders
  cases hactive : s.os.active with
  | none =>
    refine ⟨nofun, fun o ho => ?_⟩
    simp only [ho]
    exact mem_waiting_report hclash hc
  | some a =>
    have hfailed := mem_waiting_report (b := .os) (u := .orderEnd) (o := .failed .fault) (n := a.ord.id) hclash hc
    cases hpending : s.os.pending with
    | none =>
      refine ⟨fun b hb => ?_, nofun⟩
      obtain rfl := Option.some.inj hb
      simpa [hpending] using hfailed
    | some o =>
      refine ⟨fun b hb => ?_, fun p hp => ?_⟩
      · obtain rfl := Option.some.inj hb
        simp only [report_os, hpending]
        exact (report_steady ..).waits .os _ hfailed
      · obtain rfl := Option.some.inj hp
        simp only [report_os, hpending]
        exact mem_waiting_report (by simpa using hclash) ((report_console ..).trans hc)

section First

variable (code : FaultCode) (seg : Seg) (off : Mm) (s : State)

/-- The state of a first fault with its REPORT queued. -/
def faultReported : State :=
  report .cs .fault (.faultRaised code) ((s.os.active.map (fun a => a.ord.id)).getD 0) (faultMarked code seg off s)

theorem firstFault_after_claims : Steady (faultClaims (failOrders (faultReported code seg off s))) (firstFault code seg off s) := by
  unfold faultReported
  rw [← activeId_eq]
  unfold firstFault
  refine (queuePosition_steady _).after (Steady.after (.ite (fun _ => jacksOff_steady _) (fun _ => .refl _)) ?_)
  exact Steady.after (.setOs _ _) (orderLeaves_steady _)

theorem firstFault_after_orders : Steady (failOrders (faultReported code seg off s)) (firstFault code seg off s) :=
  (faultClaims_steady _).trans (firstFault_after_claims code seg off s)

theorem firstFault_after_report : Steady (faultReported code seg off s) (firstFault code seg off s) :=
  (failOrders_steady _).trans (firstFault_after_orders code seg off s)

end First

/-! ## The claims of a first fault (R78) -/

section Claims

variable {code : FaultCode} {seg : Seg} {off : Mm} {s : State} {before after : List OwnClaim} {o : OwnClaim}
  (hspan : s.ce.span = none) (hown : s.ce.own = before ++ o :: after) (ho : o.seg = (headPos s).1)
  (hnodup : (s.ce.own.map OwnClaim.seg).Nodup)
include hown ho hnodup

theorem faultAhead_eq : faultAhead s = (after.map OwnClaim.seg).filter (fun g => decide (g ∉ s.ce.clashMem.map Prod.snd)) := by
  rw [faultAhead, aheadSegs_eq before after o s hown hnodup ho]
  rfl

/-- The entries that go are those ahead of the head's, but for clash entries. -/
theorem filter_not_faultAhead : s.ce.own.filter (fun e => decide (e.seg ∉ faultAhead s)) =
    before ++ o :: after.filter (fun e => decide (e.seg ∈ s.ce.clashMem.map Prod.snd)) := by
  rw [faultAhead_eq hown ho hnodup]
  have hdistinct := hnodup
  rw [hown, List.map_append, List.map_cons, List.nodup_append] at hdistinct
  obtain ⟨-, hafter, hapart⟩ := hdistinct
  obtain ⟨hnew, -⟩ := List.nodup_cons.mp hafter
  have hstay {e : OwnClaim} (h : e.seg ∉ after.map OwnClaim.seg) :
      decide (e.seg ∉ (after.map OwnClaim.seg).filter (fun g => decide (g ∉ s.ce.clashMem.map Prod.snd))) = true :=
    decide_eq_true fun hmem => h (List.mem_filter.mp hmem).1
  have hbefore : before.filter (fun e => decide
      (e.seg ∉ (after.map OwnClaim.seg).filter (fun g => decide (g ∉ s.ce.clashMem.map Prod.snd)))) = before :=
    List.filter_eq_self.mpr fun e he => hstay fun hmem =>
      hapart _ (List.mem_map_of_mem he) _ (List.mem_cons_of_mem _ hmem) rfl
  have hahead : after.filter (fun e => decide
      (e.seg ∉ (after.map OwnClaim.seg).filter (fun g => decide (g ∉ s.ce.clashMem.map Prod.snd)))) =
        after.filter (fun e => decide (e.seg ∈ s.ce.clashMem.map Prod.snd)) := by
    refine List.filter_congr fun e he => decide_eq_decide.mpr ?_
    rw [List.mem_filter, not_and]
    exact ⟨fun h => by_contra fun hn => h (List.mem_map_of_mem he) (decide_eq_true hn), fun h _ hn => of_decide_eq_true hn h⟩
  rw [hown, List.filter_append, List.filter_cons, if_pos (hstay hnew), hbefore, hahead]

include hspan

theorem firstFault_own : (firstFault code seg off s).ce.own =
    (before ++ o :: after.filter (fun e => decide (e.seg ∈ s.ce.clashMem.map Prod.snd))).map
      (fun e => { e with leg := .none }) := by
  have h := own_of_blank (blank_firstFault code seg off s)
  have hgone : (faultGone (faultMarked code seg off s)).ce.own = s.ce.own.filter (fun e => decide (e.seg ∉ faultAhead s)) := by
    have hnone : (faultMarked code seg off s).ce.span = none := hspan
    obtain ⟨f, hf⟩ := releasedOwn_eq (faultAhead (faultMarked code seg off s)) (faultMarked code seg off s)
    unfold faultGone
    rw [hnone]
    exact (congrArg (fun u => u.ce.own) hf).trans rfl
  rw [← filter_not_faultAhead hown ho hnodup, ← hgone]
  exact h

theorem firstFault_releases (hclash : s.tli.clash = false) {e : OwnClaim} (he : e ∈ after)
    (hloose : e.seg ∉ s.ce.clashMem.map Prod.snd) : ∃ ids, e.seg ∈ ids ∧ queued (.release ids) (firstFault code seg off s) := by
  have hblank : blank (failOrders (faultReported code seg off s)) = blank (faultMarked code seg off s) :=
    (blank_failOrders _).trans (blank_report ..)
  have hnone : (failOrders (faultReported code seg off s)).ce.span = none := (span_of_blank hblank).trans hspan
  have hahead : (aheadSegs (failOrders (faultReported code seg off s))).filter
      (fun g => decide (g ∉ clashSegs (failOrders (faultReported code seg off s)))) = faultAhead s :=
    (faultAhead_blank _).symm.trans ((congrArg faultAhead hblank).trans rfl)
  have hmem : e ∈ ownOf (faultAhead s) (failOrders (faultReported code seg off s)) := by
    refine List.mem_filter.mpr ⟨?_, decide_eq_true ?_⟩
    · rw [own_of_blank hblank]
      show e ∈ s.ce.own
      rw [hown]
      exact List.mem_append_right _ (List.mem_cons_of_mem _ he)
    · rw [faultAhead_eq hown ho hnodup]
      exact List.mem_filter.mpr ⟨List.mem_map_of_mem he, decide_eq_true hloose⟩
  have hquiet : (failOrders (faultReported code seg off s)).tli.clash = false := (clash_of_blank hblank).trans hclash
  obtain ⟨ids, hids, hwaits⟩ := release_of_releasedWith
    (releaseOwn_releasedWith (faultAhead s) (failOrders (faultReported code seg off s)) hquiet) hmem
  refine ⟨ids, hids, (firstFault_after_claims code seg off s).queued (b := .ce) ?_⟩
  unfold faultClaims
  rw [hnone, hahead]
  exact hwaits

end Claims

theorem firstFault_abort {code : FaultCode} {seg : Seg} {off : Mm} {s : State} (hspan : s.ce.span.isSome = true) :
    (firstFault code seg off s).ce.abort.map AbortRec.reason = some .faulted := by
  obtain ⟨sp, hsp⟩ := Option.isSome_iff_exists.mp hspan
  have habort : (faultGone (faultMarked code seg off s)).ce.abort.map AbortRec.reason = some .faulted := by
    have hmarked : (faultMarked code seg off s).ce.span = some sp := hsp
    unfold faultGone
    rw [hmarked]
    rfl
  have h := congrArg ClaimEngine.abort (ce_of_blank (blank_firstFault code seg off s))
  rw [h]
  exact habort

theorem firstFault_reports {code : FaultCode} {seg : Seg} {off : Mm} {s : State} {c : Addr} (hclash : s.tli.clash = false)
    (hc : console s = some c) :
    queued (.report c { subject := .fault, outcome := .faultRaised code,
                        oid := (s.os.active.map (fun a => a.ord.id)).getD 0 }) (firstFault code seg off s) ∧
    (∀ a, s.os.active = some a → queued (.report c { subject := .orderEnd, outcome := .failed .fault, oid := a.ord.id })
      (firstFault code seg off s)) ∧
    (∀ o, s.os.pending = some o → queued (.report c { subject := .orderEnd, outcome := .cancelled, oid := o.id })
      (firstFault code seg off s)) := by
  have hclash' : (faultReported code seg off s).tli.clash = false := by
    unfold faultReported
    rw [report_tli_clash]
    exact hclash
  have hc' : console (faultReported code seg off s) = some c := (report_console ..).trans hc
  have hos : (faultReported code seg off s).os = s.os := by
    unfold faultReported
    rw [report_os]
    rfl
  obtain ⟨hfailed, hcancelled⟩ := failOrders_waits hclash' hc'
  rw [hos] at hfailed hcancelled
  refine ⟨(firstFault_after_report code seg off s).queued (b := .cs) ?_, fun a ha =>
    (firstFault_after_orders code seg off s).queued (b := .os) (hfailed a ha), fun o ho =>
    (firstFault_after_orders code seg off s).queued (b := .os) (hcancelled o ho)⟩
  exact mem_waiting_report (s := faultMarked code seg off s) hclash hc

theorem stopsJacks_iff (c : FaultCode) : stopsJacks c = true ↔ c = .estop ∨ c = .driveFault := by simp [stopsJacks]

theorem raiseFaultAt_of_fault {code : FaultCode} {seg : Seg} {off : Mm} {s : State} (h : s.cs.state = .fault) :
    raiseFaultAt code seg off s = furtherFault code s := if_pos h

theorem raiseFaultAt_of_not_fault {code : FaultCode} {seg : Seg} {off : Mm} {s : State} (h : s.cs.state ≠ .fault) :
    raiseFaultAt code seg off s = firstFault code seg off s := if_neg h

theorem furtherFault_eq {code : FaultCode} {s : State} {f : FaultRec} (hf : s.cs.fault = some f) : furtherFault code s =
    let u := report .cs .fault (.faultRaised code) 0 (s.setCs
      { s.cs with fault := some { f with further := min (f.further + 1) 65535, last := some code,
                                         positional := f.positional || positionalCode code } })
    if code = .estop ∨ code = .driveFault then u.setDs { s.ds with cmd := .off, dockTimer := none, undockTimer := none }
    else u := by
  unfold furtherFault
  simp only [hf, Option.map_some, stopsJacks_iff, jacksOff, report_ds]
  rfl

/-- Settles O50: the plain update a first fault makes and the frames it queues; a further fault unfolded. -/
theorem faultRaised : Obligations.FaultRaised := by
  refine ⟨fun code seg off s hstate => ?_, fun code seg off f s hstate hf => ⟨?_, fun rival h => ?_, fun n h => ?_⟩⟩
  · intro t
    have ht : t = firstFault code seg off s := raiseFaultAt_of_not_fault hstate
    obtain ⟨hcs, heu, hactive, hpending, hspan, hfirm, -, ⟨hleader, hhold⟩, ⟨hroute, hknown, -⟩, hds⟩ :=
      firstFault_parts code seg off s
    rw [← ht] at hcs heu hactive hpending hspan hfirm hleader hhold hroute hknown hds
    refine ⟨by rw [hcs], by rw [hcs], by rw [hcs], by rw [heu], by rw [heu], by rw [heu], by rw [heu], hactive, hpending,
      hspan, hfirm, hleader, hhold, hroute, hknown, by simp [t], ?_, ?_, ?_, ?_⟩
    · rw [hds]
      exact if_congr (stopsJacks_iff code) rfl rfl
    · rw [ht]
      exact firstFault_abort
    · intro before after o hnone hown ho hnodup
      rw [ht]
      exact ⟨firstFault_own hnone hown ho hnodup, fun hclash e he hloose =>
        firstFault_releases hnone hown ho hnodup hclash he hloose⟩
    · intro hclash c hc
      rw [ht]
      exact firstFault_reports hclash hc
  · rw [raiseFaultAt_of_fault hstate, furtherFault_eq hf]
  · exact if_pos ⟨hstate, h⟩
  · exact if_pos ⟨hstate, h⟩

end Sys2Proof.Machine
end

section
/-! Serving the head of the request queue (R85, R89, R90): when it is served and what serving then does; and the timers of a
points node, its asks and frees, its commissioning, and the loss of a lock. -/

namespace Sys2Proof.Machine

open Sys2Proof

/-! ## The tests -/

theorem liveIn_iff {s : State} {x : Addr} : liveIn s x = true ↔ ∃ e ∈ s.sv.entries, e.holder = x ∧ e.stale = false := by
  simp [liveIn]

theorem soleClaimant_iff {s : State} {x : Addr} : soleClaimant s x = true ↔
    (∃ e ∈ s.sv.entries, e.holder = x ∧ e.stale = false) ∧ (∀ e ∈ s.sv.entries, e.holder ≠ x → e.stale = true) ∧
      s.sv.overflow = none := by
  have hothers : s.sv.entries.all (fun e => decide (e.holder = x) || e.stale) = true ↔
      ∀ e ∈ s.sv.entries, e.holder ≠ x → e.stale = true := by
    rw [List.all_eq_true]
    exact forall₂_congr fun e _ => by rw [Bool.or_eq_true, decide_eq_true_iff, or_iff_not_imp_left]
  rw [soleClaimant, Bool.and_eq_true, Bool.and_eq_true, liveIn_iff, hothers, Option.isNone_iff_eq_none, and_assoc]

/-- The requester may be served: the node is commissioned, no grant is held, it is not listening in, and the requester is the
sole claimant (R89). -/
def mayServe (x : Addr) (s : State) : Bool :=
  s.pa.comm.isSome && s.pa.grant.isNone && !listeningIn s && soleClaimant s x

theorem serve_of_queue {h : AskEntry} {rest : List AskEntry} {p : PointsPos} {s : State} (hq : s.pa.queue = h :: rest)
    (hat : s.ts.state = lockedAt p) : serve s =
      if mayServe h.requester s = true then
        if h.pos = p then grantHead h rest s else if s.pa.latch.isNone then beginThrow h.pos p s else s
      else s := by
  unfold serve
  rw [hq, hat, lockedPos_lockedAt]
  rfl

theorem serve_of_empty {s : State} (hq : s.pa.queue = []) : serve s = s := by
  unfold serve
  rw [hq]

theorem serve_of_not_locked {s : State} (hat : lockedPos s.ts.state = none) : serve s = s := by
  unfold serve
  rw [hat]
  cases s.pa.queue <;> rfl

theorem serve_of_not_served {s : State} (h : ∀ a rest, s.pa.queue = a :: rest → mayServe a.requester s = false) :
    serve s = s := by
  cases hq : s.pa.queue with
  | nil => exact serve_of_empty hq
  | cons a rest =>
    cases hat : lockedPos s.ts.state with
    | none => exact serve_of_not_locked hat
    | some p => rw [serve_of_queue hq (lockedPos_eq_some_iff.mp hat), if_neg (by simp [h a rest hq])]

theorem noticeIfChanged_of_ne {before after : State} (h : announced before ≠ announced after) :
    noticeIfChanged before after = queuePoints after := if_neg h

/-! ## The timers (R83, R84, R100) -/

theorem exec_pointsListenInExpiry {s : State} (hkind : s.tli.kind = .points) : exec .pointsListenInExpiry s =
    .next (if s.sv.listen.isNone then s else serveAfter s (s.setSv { s.sv with listen := none })) := by
  show execPointsListenInExpiry s = _
  rw [execPointsListenInExpiry, onKind_of_eq _ hkind]

theorem exec_overflowHoldExpiry {s : State} (hkind : s.tli.kind = .points) : exec .overflowHoldExpiry s =
    .next (if s.sv.overflow.isNone then s else serveAfter s (s.setSv { s.sv with overflow := none })) := by
  show execOverflowHoldExpiry s = _
  rw [execOverflowHoldExpiry, onKind_of_eq _ hkind]

theorem exec_pointsPeriodicNotice {s : State} (hkind : s.tli.kind = .points) : exec .pointsPeriodicNotice s =
    .next (if s.pa.countdown.isNone then s
      else offer .pa true .plain (.points (pointsNotice s)) (s.setPa { s.pa with countdown := some 0 })) := by
  show execPointsPeriodicNotice s = _
  rw [execPointsPeriodicNotice, onKind_of_eq _ hkind]

/-- A periodic POINTS notice waits where no like of it is being sent: in the place of a waiting one, or in a free place. -/
theorem queued_periodicPoints {n : PointsNotice} {s : State} (hclash : s.tli.clash = false)
    (hsent : ∀ k ∈ s.tli.txq, k.sending = false)
    (hroom : s.tli.txq.length < 10 ∨ ∃ k ∈ s.tli.txq, isPeriodicPoints k = true) :
    queued (.points n) (offer .pa true .plain (.points n) s) := by
  unfold queued offer
  rw [settleRefresh_tli, State.setTli_tli]
  by_cases hlike : ∃ k ∈ s.tli.txq, isPeriodicPoints k = true
  · obtain ⟨k, hk, hpoints⟩ := hlike
    have hwaits : k.sending = false := hsent k hk
    rw [offerTli_points_replaces hclash rfl rfl ⟨k, hk, hpoints, hwaits⟩]
    refine List.mem_map.mpr ⟨{ k with frame := .points n }, List.mem_append_left _ ?_, rfl⟩
    exact List.mem_map.mpr ⟨k, hk, if_pos (by simp [hpoints, hwaits])⟩
  · have hnone : ∀ k ∈ s.tli.txq, isPeriodicPoints k = false := fun k hk =>
      Bool.eq_false_iff.mpr fun h => hlike ⟨k, hk, h⟩
    rw [offerTli_of_no_like hclash (fun h => by simp [isPosition] at h) (fun _ => hnone), offerPlain_periodic rfl,
      if_pos (hroom.resolve_right hlike)]
    simp

/-- Settles O34: serving by its own tests, and each timer by whether it runs. -/
theorem servingTested : Obligations.ServingTested := by
  refine ⟨fun x s => ⟨soleClaimant_iff, by simp [listeningIn]⟩, fun h rest p s => ⟨?served, ?kept⟩, fun s hkind =>
    ⟨fun hon => ?_, fun hon => ?_, fun hoff => ?_, fun hoff => ?_, fun hoff => ?_, fun hon => ?notice⟩⟩
  case served =>
    intro hq hat hcomm hgrant hlisten hsole
    have hmay : mayServe h.requester s = true := by simp [mayServe, hcomm, hgrant, hlisten, hsole]
    rw [serve_of_queue hq hat, if_pos hmay]
    refine ⟨fun hpos => ?_, fun hpos hlatch => ?_, fun hpos hlatch => ?_⟩
    · rw [if_pos hpos, grantHead, hpos]
    · rw [if_neg hpos, if_pos (by simp [hlatch]), beginThrow]
    · rw [if_neg hpos, if_neg (by simpa [Option.isSome_iff_ne_none] using hlatch)]
  case kept =>
    rintro (hq | hat | hat | hat | hcomm | hgrant | hlisten | ⟨hq, hsole⟩)
    · exact serve_of_empty hq
    · exact serve_of_not_locked (by rw [hat]; rfl)
    · exact serve_of_not_locked (by rw [hat]; rfl)
    · exact serve_of_not_locked (by rw [hat]; rfl)
    · exact serve_of_not_served fun a r _ => by simp [mayServe, hcomm]
    · exact serve_of_not_served fun a r _ => by simp [mayServe, Option.isSome_iff_ne_none.mp hgrant]
    · exact serve_of_not_served fun a r _ => by simp [mayServe, hlisten]
    · refine serve_of_not_served fun a r ha => ?_
      obtain ⟨rfl, -⟩ := List.cons.inj (hq.symm.trans ha)
      simp [mayServe, hsole]
  case notice =>
    have hrun : ¬ s.pa.countdown.isNone = true := by simpa [Option.isSome_iff_ne_none] using hon
    rw [exec_pointsPeriodicNotice hkind, if_neg hrun]
    exact ⟨_, rfl, by simp, by simp, by simp,
      fun hclash hsent hroom => queued_periodicPoints (s := s.setPa _) hclash hsent hroom⟩
  · rw [exec_pointsListenInExpiry hkind, if_neg (by simpa [Option.isSome_iff_ne_none] using hon)]
  · rw [exec_overflowHoldExpiry hkind, if_neg (by simpa [Option.isSome_iff_ne_none] using hon)]
  · rw [exec_pointsListenInExpiry hkind, if_pos (by simp [hoff])]
  · rw [exec_overflowHoldExpiry hkind, if_pos (by simp [hoff])]
  · rw [exec_pointsPeriodicNotice hkind, if_pos (by simp [hoff])]

/-! ## Asks and frees (R87, R88, R96) -/

theorem exec_pointsAsk_carriage {src : Addr} {pos : PointsPos} {cls oid : Nat} {s : State}
    (hfront : atFront src (.pointsAsk pos cls oid) s = true) (hkind : s.tli.kind = .carriage) :
    exec (.pointsAsk src pos cls oid) s = .next (wrongKind .pointsAsk (taken s)) := by
  show execPointsAsk src pos cls oid s = _
  rw [execPointsAsk, deliver_of_atFront _ hfront rfl, taken_tli_kind, hkind]

theorem exec_pointsAsk_points {src : Addr} {pos : PointsPos} {cls oid : Nat} {s : State}
    (hfront : atFront src (.pointsAsk pos cls oid) s = true) (hkind : s.tli.kind = .points) :
    exec (.pointsAsk src pos cls oid) s = .next (answerAsk src pos cls oid
      (if holdsGrant src s then freeGrant (taken s) else taken s)) := by
  show execPointsAsk src pos cls oid s = _
  rw [execPointsAsk, deliver_of_atFront _ hfront rfl, taken_tli_kind, hkind]
  rfl

theorem exec_pointsFree_carriage {src : Addr} {s : State} (hfront : atFront src .pointsFree s = true)
    (hkind : s.tli.kind = .carriage) : exec (.pointsFree src) s = .next (wrongKind .pointsFree (taken s)) := by
  show execPointsFree src s = _
  rw [execPointsFree, deliver_of_atFront _ hfront rfl, taken_tli_kind, hkind]

theorem exec_pointsFree_points {src : Addr} {s : State} (hfront : atFront src .pointsFree s = true)
    (hkind : s.tli.kind = .points) : exec (.pointsFree src) s = .next (takeFree src (taken s)) := by
  show execPointsFree src s = _
  rw [execPointsFree, deliver_of_atFront _ hfront rfl, taken_tli_kind, hkind]

/-- An answer, with the queue it leaves: it becomes the last answer, has its notice, and serving is tested. -/
def answeredWith (x : Addr) (c : AnswerCode) (q : List AskEntry) (s : State) : State :=
  let s1 := queuePoints (s.setPa { s.pa with queue := q, lastAnswer := some (x, c) })
  serveAfter s1 s1

theorem answerAsk_of_refused {x : Addr} {pos : PointsPos} {cls oid : Nat} {s : State} {c : AnswerCode}
    (hanswer : askAnswer x pos s = some c) (hc : c ≠ .queued) : answerAsk x pos cls oid s =
      answeredWith x c (s.pa.queue.filter (fun q => decide (q.requester ≠ x))) s := by
  unfold answerAsk
  rw [hanswer]
  simp only [if_neg hc]
  rfl

theorem answerAsk_of_queued {x : Addr} {pos : PointsPos} {cls oid : Nat} {s : State}
    (hanswer : askAnswer x pos s = some .queued) : answerAsk x pos cls oid s =
      answeredWith x .queued (if s.pa.queue.any (fun q => decide (q.requester = x)) then
        s.pa.queue.map (fun q => if q.requester = x then ⟨x, pos, cls, oid⟩ else q)
      else s.pa.queue ++ [⟨x, pos, cls, oid⟩]) s := by
  unfold answerAsk
  rw [hanswer]
  simp only [if_true, queueAsk, answeredWith, answer]
  split <;> rfl

theorem answerAsk_of_dropped {x : Addr} {pos : PointsPos} {cls oid : Nat} {s : State}
    (hanswer : askAnswer x pos s = none) :
    answerAsk x pos cls oid s = s.setPa { s.pa with askDrops := satInc s.pa.askDrops } := by
  unfold answerAsk
  rw [hanswer]

section
variable {x : Addr} {pos : PointsPos} {s : State}

theorem askAnswer_uncommissioned (hcomm : s.pa.comm = none) : askAnswer x pos s = some .refusedUncommissioned := by
  simp [askAnswer, hcomm]

theorem askAnswer_listenIn (hcomm : s.pa.comm.isSome = true) (hlisten : listeningIn s = true) :
    askAnswer x pos s = some .refusedListenIn := by
  have hne : ¬ s.pa.comm.isNone = true := by simpa [Option.isSome_iff_ne_none] using hcomm
  rw [askAnswer, if_neg hne, if_pos hlisten]

theorem askAnswer_failed (hcomm : s.pa.comm.isSome = true) (hlisten : listeningIn s = false)
    (hfailed : s.ts.state = .failed ∨ unavail s pos = true) : askAnswer x pos s = some .refusedFailed := by
  have hne : ¬ s.pa.comm.isNone = true := by simpa [Option.isSome_iff_ne_none] using hcomm
  rw [askAnswer, if_neg hne, if_neg (by simp [hlisten]), if_pos hfailed]

theorem askAnswer_sound (hcomm : s.pa.comm.isSome = true) (hlisten : listeningIn s = false)
    (hstate : s.ts.state ≠ .failed) (hunavail : unavail s pos = false) : askAnswer x pos s =
      if liveIn s x = false then some .refusedNotClaimant
      else if (∃ q ∈ s.pa.queue, q.requester = x) ∨ s.pa.queue.length < 6 then some .queued else none := by
  have hne : ¬ s.pa.comm.isNone = true := by simpa [Option.isSome_iff_ne_none] using hcomm
  rw [askAnswer, if_neg hne, if_neg (by simp [hlisten]), if_neg (by simp [hstate, hunavail])]
  simp [Config.askCap]

end

theorem holdsGrant_iff {x : Addr} {s : State} : holdsGrant x s = true ↔ ∃ g, s.pa.grant = some g ∧ g.holder = x := by
  simp [holdsGrant, Option.any_eq_true]

/-- Settles O32: an ask by the first test that applies, on the state in which the requester holds no grant; a free by what its
sender has. -/
theorem askOrFreeTaken : Obligations.AskOrFreeTaken := by
  refine ⟨fun src pos cls oid s hfront => ⟨fun hkind => exec_pointsAsk_carriage hfront hkind, fun hkind => ?ask⟩,
    fun src s hfront => ⟨fun hkind => exec_pointsFree_carriage hfront hkind, fun hkind => ?free⟩⟩
  case ask =>
    rw [exec_pointsAsk_points hfront hkind]
    generalize (if holdsGrant src s then freeGrant (taken s) else taken s) = base
    intro base answered others e
    refine ⟨fun hcomm => ?_, fun hcomm => ⟨fun hlisten => ?_, fun hlisten => ⟨fun hfailed => ?_, fun hstate hunavail => ?_⟩⟩⟩
    · rw [answerAsk_of_refused (askAnswer_uncommissioned hcomm) (by decide)]; rfl
    · rw [answerAsk_of_refused (askAnswer_listenIn hcomm hlisten) (by decide)]; rfl
    · rw [answerAsk_of_refused (askAnswer_failed hcomm hlisten hfailed) (by decide)]; rfl
    · have hanswer := askAnswer_sound (x := src) hcomm hlisten hstate hunavail
      refine ⟨fun hlive => ?_, fun hlive => ⟨fun hin => ?_, fun hout => ⟨fun hroom => ?_, fun hfull => ?_⟩⟩⟩
      · rw [if_pos hlive] at hanswer
        rw [answerAsk_of_refused hanswer (by decide)]; rfl
      · rw [if_neg (by simp [hlive]), if_pos (.inl hin)] at hanswer
        rw [answerAsk_of_queued hanswer, if_pos (by simpa using hin)]; rfl
      · rw [if_neg (by simp [hlive]), if_pos (.inr hroom)] at hanswer
        rw [answerAsk_of_queued hanswer, if_neg (by simpa using hout)]; rfl
      · have hnone : ¬ ((∃ q ∈ base.pa.queue, q.requester = src) ∨ base.pa.queue.length < 6) := by
          rintro (⟨q, hq, hsrc⟩ | hroom)
          · exact hout q hq hsrc
          · exact absurd hroom (not_lt.mpr hfull)
        rw [if_neg (by simp [hlive]), if_neg hnone] at hanswer
        rw [answerAsk_of_dropped hanswer]; rfl
  case free =>
    rw [exec_pointsFree_points hfront hkind, takeFree]
    refine ⟨fun g hgrant hholder => ⟨?_, rfl⟩, fun hnone => ?_⟩
    · rw [if_pos (holdsGrant_iff.mpr ⟨g, by simpa using hgrant, hholder⟩)]
      rfl
    · have hfree : ¬ holdsGrant src (taken s) = true := fun h => by
        obtain ⟨g, hgrant, hholder⟩ := holdsGrant_iff.mp h
        exact hnone g hgrant hholder
      rw [if_neg hfree]
      refine ⟨fun hin => ?_, fun hout => ?_⟩
      · rw [if_pos (by simpa using hin)]
        rfl
      · rw [if_neg (by simpa using hout)]

end Sys2Proof.Machine
end

section
/-! The two frames that a STATION-RESET answers for (R189, R198): a frame being sent then is finished, and after an address
clash the REPORT is the first frame sent. What is queued and withdrawn after it leaves both as they are. -/

namespace Sys2Proof.Machine

open Sys2Proof

/-- A frame stands first in the transmit queue under the mark that lets it be sent before all others, and no frame is being
sent. -/
def FirstWaits (f : Frame) (t : Tli) : Prop :=
  t.clash = false ∧ (∀ e ∈ t.txq ++ t.kept, e.sending = false) ∧
    ∃ k rest, t.txq = k :: rest ∧ k.frame = f ∧ k.tag = .first ∧ k.periodic = false

/-- A REPORT waits, in the queue or kept by its block. -/
def ReportWaits (f : Frame) (t : Tli) : Prop :=
  ∃ k ∈ t.txq ++ t.kept, k.frame = f ∧ k.periodic = false ∧ (k.tag = .plain ∨ k.tag = .first)

/-- A withdrawn frame that is being sent stays so, a REPORT that waits first stays first, and one that waits goes on to wait.
-/
structure Pinned (t u : Tli) : Prop where
  sent : ∀ k ∈ t.txq, k.sending = true → k.withdrawn = true →
    ∃ l ∈ u.txq, l.sending = true ∧ l.withdrawn = true ∧ l.frame = k.frame ∧ l.tag = k.tag
  first : ∀ c r, FirstWaits (.report c r) t → FirstWaits (.report c r) u
  waits : ∀ c r, ReportWaits (.report c r) t → ReportWaits (.report c r) u

theorem Pinned.refl (t : Tli) : Pinned t t := ⟨fun k hk hs hw => ⟨k, hk, hs, hw, rfl, rfl⟩, fun _ _ h => h, fun _ _ h => h⟩

theorem Pinned.trans {t u v : Tli} (h : Pinned t u) (h' : Pinned u v) : Pinned t v := by
  refine ⟨fun k hk hs hw => ?_, fun c r hfirst => h'.first c r (h.first c r hfirst),
    fun c r hwaits => h'.waits c r (h.waits c r hwaits)⟩
  obtain ⟨l, hl, hls, hlw, hlf, hlt⟩ := h.sent k hk hs hw
  obtain ⟨m, hm, hms, hmw, hmf, hmt⟩ := h'.sent l hl hls hlw
  exact ⟨m, hm, hms, hmw, hmf.trans hlf, hmt.trans hlt⟩

theorem Pinned.of_eq {t u : Tli} (h : u = t) : Pinned t u := h ▸ .refl t

/-! ## The line's operations -/

/-- A change that keeps each frame being sent in the queue, and each at the head but for those at its end. -/
theorem Pinned.of_append {t u : Tli} (l : List TxEntry) (hclash : u.clash = t.clash) (htxq : u.txq = t.txq ++ l)
    (hnew : ∀ e ∈ l, e.sending = false ∨ e ∈ t.txq ++ t.kept) (hkept : ∀ e ∈ u.kept, e.sending = false ∨ e ∈ t.kept)
    (hstay : ∀ e ∈ t.kept, e ∈ l ++ u.kept) : Pinned t u := by
  refine ⟨fun k hk hs hw => ⟨k, htxq ▸ List.mem_append_left l hk, hs, hw, rfl, rfl⟩, fun c r hfirst => ?_,
    fun c r ⟨k, hk, hreport⟩ => ⟨k, ?waits, hreport⟩⟩
  case waits =>
    rw [htxq, List.append_assoc]
    exact (List.mem_append.mp hk).elim (fun h => List.mem_append_left _ h) fun h => List.mem_append_right _ (hstay k h)
  obtain ⟨hclear, hnone, k, rest, hq, hk⟩ := hfirst
  refine ⟨hclash.trans hclear, fun e he => ?_, k, rest ++ l, by rw [htxq, hq, List.cons_append], hk⟩
  rw [htxq, List.append_assoc, List.mem_append, List.mem_append] at he
  rcases he with he | he | he
  · exact hnone e (List.mem_append_left _ he)
  · exact (hnew e he).elim id fun h => hnone e h
  · exact (hkept e he).elim id fun h => hnone e (List.mem_append_right _ h)

theorem keepFrame_pinned {e : TxEntry} (t : Tli) (he : e.sending = false) : Pinned t (keepFrame e t) := by
  refine .of_append [] rfl (by simp [keepFrame]) (by simp) (fun k hk => ?_) fun k hk => List.mem_append_right _ (List.mem_append_left _ hk)
  rcases List.mem_append.mp hk with hk | hk
  · exact .inr hk
  · exact .inl ((List.mem_singleton.mp hk) ▸ he)

theorem join_pinned {e : TxEntry} (t : Tli) (he : e.sending = false) : Pinned t { t with txq := t.txq ++ [e] } :=
  .of_append [e] rfl rfl (fun _ hk => .inl ((List.mem_singleton.mp hk) ▸ he)) (fun _ hk => .inr hk) fun _ hk =>
    List.mem_append_right _ hk

theorem displace_pinned {t : Tli} {i : Nat} (hi : t.txq.findIdx? (fun k => k.periodic && !k.sending) = some i) :
    Pinned t { t with txq := t.txq.eraseIdx i, counters := t.counters.displace } := by
  obtain ⟨hlt, hgives, -⟩ := List.findIdx?_eq_some_iff_getElem.mp hi
  rw [Bool.and_eq_true, Bool.not_eq_true'] at hgives
  have hstays (k : TxEntry) (hk : k ∈ t.txq) (hfixed : k.periodic = false ∨ k.sending = true) : k ∈ t.txq.eraseIdx i := by
    obtain ⟨j, hj, rfl⟩ := List.getElem_of_mem hk
    refine List.mem_eraseIdx_iff_getElem.mpr ⟨j, hj, fun hji => ?_, rfl⟩
    subst hji
    rcases hfixed with h | h <;> simp [h] at hgives
  refine ⟨fun k hk hs hw => ⟨k, hstays k hk (.inr hs), hs, hw, rfl, rfl⟩, fun c r hfirst => ?_,
    fun c r ⟨k, hk, hf, hplain, htag⟩ => ⟨k, ?waits, hf, hplain, htag⟩⟩
  case waits =>
    exact (List.mem_append.mp hk).elim (fun h => List.mem_append_left _ (hstays k h (.inl hplain)))
      (List.mem_append_right _)
  obtain ⟨hclear, hnone, k, rest, hq, hf, htag, hk⟩ := hfirst
  refine ⟨hclear, fun e he => hnone e ?_, ?_⟩
  · exact (List.mem_append.mp he).elim (fun h => List.mem_append_left _ (List.mem_of_mem_eraseIdx h))
      (List.mem_append_right _)
  · cases i with
    | zero => simp [hq, hk] at hgives
    | succ i => exact ⟨k, rest.eraseIdx i, by simp [hq], hf, htag, hk⟩

theorem replaceWaiting_pinned {like : TxEntry → Bool} (f : Frame) (t : Tli)
    (hlike : ∀ k c r, k.frame = .report c r → like k = false) :
    Pinned t { t with txq := replaceWaiting like f t.txq } := by
  have hstays {k : TxEntry} (hk : like k = false ∨ k.sending = true) :
      (if like k && !k.sending then { k with frame := f } else k) = k := if_neg (by rcases hk with h | h <;> simp [h])
  refine ⟨fun k hk hs hw => ⟨k, List.mem_map.mpr ⟨k, hk, hstays (.inr hs)⟩, hs, hw, rfl, rfl⟩, fun c r hfirst => ?_,
    fun c r ⟨k, hk, hf, hreport⟩ => ⟨k, ?waits, hf, hreport⟩⟩
  case waits =>
    exact (List.mem_append.mp hk).elim
      (fun h => List.mem_append_left _ (List.mem_map.mpr ⟨k, h, hstays (.inl (hlike k c r hf))⟩)) (List.mem_append_right _)
  obtain ⟨hclear, hnone, k, rest, hq, hf, hk⟩ := hfirst
  refine ⟨hclear, fun e he => ?_, k, replaceWaiting like f rest, ?_, hf, hk⟩
  · rcases List.mem_append.mp he with he | he
    · obtain ⟨l, hl, rfl⟩ := List.mem_map.mp he
      have hwaits := hnone l (List.mem_append_left _ hl)
      split
      · exact hwaits
      · exact hwaits
    · exact hnone e (List.mem_append_right _ he)
  · simp only [replaceWaiting, hq, List.map_cons, hstays (.inl (hlike k c r hf))]

theorem offerPlain_pinned {e : TxEntry} (t : Tli) (he : e.sending = false) : Pinned t (offerPlain e t) := by
  have hcount (c : Counters) : Pinned t { t with counters := c } :=
    .of_append [] rfl (by simp) (by simp) (fun _ hk => .inr hk) fun _ hk => List.mem_append_right _ hk
  unfold offerPlain
  split
  · split
    · exact join_pinned t he
    · exact hcount _
  · split
    · exact keepFrame_pinned t he
    · split
      · exact join_pinned t he
      · split
        · next i hi => exact (displace_pinned hi).trans (join_pinned _ he)
        · exact keepFrame_pinned t he

theorem offerTli_pinned {e : TxEntry} (t : Tli) (he : e.sending = false) : Pinned t (offerTli e t) := by
  unfold offerTli
  split
  · exact .refl t
  · split
    · split
      · exact replaceWaiting_pinned _ t fun _ c r hk => by simp [isPosition, hk]
      · split
        · exact .of_append [] rfl (by simp) (by simp) (fun _ hk => .inr hk) fun _ hk => List.mem_append_right _ hk
        · exact offerPlain_pinned t he
    · split
      · exact replaceWaiting_pinned _ t fun k c r hk => by simp [isPeriodicPoints, hk]
      · split
        · exact .of_append [] rfl (by simp) (by simp) (fun _ hk => .inr hk) fun _ hk => List.mem_append_right _ hk
        · exact offerPlain_pinned t he
    · exact offerPlain_pinned t he

theorem placeKept_pinned (b : Block) (i : Nat) (t : Tli) : Pinned t (placeKept b i t) :=
  .of_append _ rfl rfl
    (fun _ hk => .inr (List.mem_append_right _ (List.mem_of_getElem? (Option.mem_toList.mp hk))))
    (fun _ hk => .inr (List.mem_of_mem_eraseIdx hk)) fun k hk => by
      obtain ⟨j, hj, rfl⟩ := List.getElem_of_mem hk
      by_cases hji : j = i
      · exact List.mem_append_left _ (by simp [← hji, hj])
      · exact List.mem_append_right _ (List.mem_eraseIdx_iff_getElem.mpr ⟨j, hj, hji, rfl⟩)

theorem fillLoop_pinned (n : Nat) (t : Tli) : Pinned t (fillLoop n t) := by
  induction n generalizing t with
  | zero => exact .refl t
  | succ n ih =>
    unfold fillLoop
    split
    · split
      · exact .refl t
      · exact (placeKept_pinned _ _ t).trans (ih _)
    · exact .refl t

theorem cutClaim_sending {segs : List Seg} {e l : TxEntry} (h : cutClaim segs e = some l) : l.sending = e.sending := by
  unfold cutClaim at h
  split at h
  · split at h
    · cases h; rfl
    · dsimp only at h
      split at h
      · cases h
      · cases h; rfl
  · cases h; rfl

theorem cutClaim_of_sending {segs : List Seg} {e : TxEntry} (hs : e.sending = true) :
    ∃ l, cutClaim segs e = some l ∧ l.sending = e.sending ∧ l.withdrawn = e.withdrawn ∧ l.frame = e.frame ∧ l.tag = e.tag := by
  unfold cutClaim
  split
  · rw [if_pos hs]
    exact ⟨_, rfl, rfl, rfl, rfl, rfl⟩
  · exact ⟨_, rfl, rfl, rfl, rfl, rfl⟩

theorem editClaims_pinned (segs : List Seg) (t : Tli) : Pinned t (editClaims segs t) := by
  refine Pinned.trans ⟨fun k hk hs hw => ?_, fun c r hfirst => ?_, fun c r ⟨k, hk, hf, hreport⟩ => ⟨k, ?waits, hf, hreport⟩⟩
    (fillLoop_pinned _ _)
  case waits =>
    simp only [pruneLine, ← List.filterMap_append]
    exact List.mem_filterMap.mpr ⟨k, hk, by simp [cutClaim, hf]⟩
  · obtain ⟨l, hcut, hls, hlw, hlf, hlt⟩ := cutClaim_of_sending (segs := segs) hs
    exact ⟨l, List.mem_filterMap.mpr ⟨k, hk, hcut⟩, hls.trans hs, hlw.trans hw, hlf, hlt⟩
  · obtain ⟨hclear, hnone, k, rest, hq, hf, hk⟩ := hfirst
    have hcut : cutClaim segs k = some k := by simp [cutClaim, hf]
    refine ⟨hclear, fun e he => ?_, k, rest.filterMap (cutClaim segs), by simp [pruneLine, hq, hcut], hf, hk⟩
    simp only [pruneLine, ← List.filterMap_append] at he
    obtain ⟨l, hl, hle⟩ := List.mem_filterMap.mp he
    exact (cutClaim_sending hle).trans (hnone l hl)

theorem withdrawSpanFrames_pinned (segs : List Seg) (t : Tli) : Pinned t (withdrawSpanFrames segs t) := by
  refine Pinned.trans ⟨fun k hk hs hw => ?_, fun c r hfirst => ?_,
    fun c r ⟨k, hk, hf, hplain, htag⟩ => ⟨k, ?waits, hf, hplain, htag⟩⟩ (fillLoop_pinned _ _)
  case waits =>
    have hspan : isSpanFrame segs k = false := by rcases htag with h | h <;> simp [isSpanFrame, h]
    rcases List.mem_append.mp hk with hk | hk
    · have hstays : k ∈ t.txq.filter (fun e => !(isSpanFrame segs e && !e.sending)) :=
        List.mem_filter.mpr ⟨hk, by simp [hspan]⟩
      exact List.mem_append_left _ (List.mem_map.mpr ⟨k, hstays, by simp [hspan]⟩)
    · exact List.mem_append_right _ (List.mem_filter.mpr ⟨hk, by simp [hspan]⟩)
  · have hstays : k ∈ t.txq.filter (fun e => !(isSpanFrame segs e && !e.sending)) :=
      List.mem_filter.mpr ⟨hk, by simp [hs]⟩
    refine ⟨_, List.mem_map.mpr ⟨k, hstays, rfl⟩, ?_⟩
    split
    · exact ⟨hs, rfl, rfl, rfl⟩
    · exact ⟨hs, hw, rfl, rfl⟩
  · obtain ⟨hclear, hnone, k, rest, hq, hf, htag, hk⟩ := hfirst
    have hplain : isSpanFrame segs k = false := by simp [isSpanFrame, htag]
    refine ⟨hclear, fun e he => ?_, k, _, by simp only [pruneLine, hq, List.filter_cons, hplain, Bool.false_and, Bool.not_false,
      if_true, List.map_cons, Bool.false_eq_true, if_false]; rfl, hf, htag, hk⟩
    rcases List.mem_append.mp he with he | he
    · obtain ⟨l, hl, rfl⟩ := List.mem_map.mp he
      have hwaits := hnone l (List.mem_append_left _ (List.mem_filter.mp hl).1)
      split
      · exact hwaits
      · exact hwaits
    · exact hnone e (List.mem_append_right _ (List.mem_filter.mp he).1)

theorem offer_pinned (b : Block) (p : Bool) (g : TxTag) (f : Frame) (s : State) : Pinned s.tli (offer b p g f s).tli := by
  unfold offer
  rw [settleRefresh_tli]
  exact offerTli_pinned s.tli rfl

/-! ## After the reset -/

/-- The frame that waits first is the next to be sent (R198). -/
theorem exec_lineIdle_of_firstWaits {f : Frame} {t : State} (h : FirstWaits f t.tli) : ∃ i k, t.tli.txq[i]? = some k ∧
    k.frame = f ∧ exec .lineIdle t =
      .next (t.setTli { t.tli with idle := false, txq := t.tli.txq.set i { k with sending := true } }) := by
  obtain ⟨hclear, hnone, k, rest, hq, hf, htag, -⟩ := h
  have hnext : nextIdx t.tli.txq = some 0 := by simp [nextIdx, hq, List.findIdx?_cons, htag]
  exact ⟨0, k, by simp [hq], hf, exec_lineIdle_begins hclear (fun e he => hnone e (List.mem_append_left _ he)) hnext
    (by simp [hq])⟩

section
variable {s : State} {b : Block}

theorem resetReport_of_console {c : Addr} (hcons : console s = some c) : resetReport b s =
    offer b false (if s.tli.clash then .first else .plain)
      (.report c { subject := .stationReset, outcome := .accepted, oid := 0 }) (s.setTli (resetTli s.tli)) := by
  have hcons' : console (s.setTli (resetTli s.tli)) = some c := hcons
  simp only [resetReport, hcons']

theorem resetReport_of_no_console (hcons : console s = none) : resetReport b s = s.setTli (resetTli s.tli) := by
  have hcons' : console (s.setTli (resetTli s.tli)) = none := hcons
  simp only [resetReport, hcons']

/-- A frame being sent stands in the queue of the reset, withdrawn (R189; assumption 53). -/
theorem resetReport_finishes {e : TxEntry} (he : e ∈ s.tli.txq) (hs : e.sending = true) :
    ∃ k ∈ (resetReport b s).tli.txq, k.sending = true ∧ k.withdrawn = true ∧ k.frame = e.frame ∧
      (e.tag ≠ .refresh → k.tag = e.tag) := by
  have hpinned : Pinned (resetTli s.tli) (resetReport b s).tli := by
    cases hcons : console s with
    | none => rw [resetReport_of_no_console hcons]; exact .refl _
    | some c => rw [resetReport_of_console hcons]; exact offer_pinned _ _ _ _ (s.setTli (resetTli s.tli))
  obtain ⟨k, hk, hks, hkw, hkf, hkt⟩ := hpinned.sent _ ((mem_resetTli_txq s.tli _).mpr ⟨e, he, hs, rfl⟩) hs rfl
  exact ⟨k, hk, hks, hkw, hkf, fun hplain => hkt.trans (if_neg hplain)⟩

theorem resetReport_line {c : Addr} (hcons : console s = some c) : (resetReport b s).tli = offerPlain
    { frame := .report c { subject := .stationReset, outcome := .accepted, oid := 0 }, block := b, periodic := false,
      tag := if s.tli.clash then .first else .plain, sending := false, cut := [], withdrawn := false }
    (resetTli s.tli) := by
  rw [resetReport_of_console hcons, offer, settleRefresh_tli, State.setTli_tli, State.setTli_tli,
    offerTli_of_nonperiodic rfl rfl rfl]

theorem resetReport_first {c : Addr} (hcons : console s = some c) (hclash : s.tli.clash = true)
    (hfree : ∀ e ∈ s.tli.txq, e.sending = false) :
    FirstWaits (.report c { subject := .stationReset, outcome := .accepted, oid := 0 }) (resetReport b s).tli := by
  have hempty : s.tli.txq.filter TxEntry.sending = [] := List.filter_eq_nil_iff.mpr fun e he => by simp [hfree e he]
  rw [resetReport_line hcons, offerPlain_room rfl (by simp [resetTli]) (by simp [resetTli, hempty])]
  have hq : (resetTli s.tli).txq = [] := by simp [resetTli, hempty]
  refine ⟨rfl, ?_, _, [], congrArg (· ++ [_]) hq, rfl, if_pos hclash, rfl⟩
  simp [resetTli, hempty]

theorem resetReport_waits {c : Addr} (hcons : console s = some c) :
    ReportWaits (.report c { subject := .stationReset, outcome := .accepted, oid := 0 }) (resetReport b s).tli := by
  rw [resetReport_line hcons]
  have htag : (if s.tli.clash then TxTag.first else .plain) = .plain ∨ (if s.tli.clash then TxTag.first else .plain) = .first := by
    split <;> simp
  unfold offerPlain
  rw [if_neg (by simp), if_neg (by simp [waitsBehind, resetTli])]
  split
  · exact ⟨_, List.mem_append_left _ (List.mem_append_right _ (List.mem_singleton.mpr rfl)), rfl, rfl, htag⟩
  · split
    · exact ⟨_, List.mem_append_left _ (List.mem_append_right _ (List.mem_singleton.mpr rfl)), rfl, rfl, htag⟩
    · exact ⟨_, List.mem_append_right _ (List.mem_append_right _ (List.mem_singleton.mpr rfl)), rfl, rfl, htag⟩

theorem queued_of_reportWaits {f : Frame} {t : State} (h : ReportWaits f t.tli) : queued f t := by
  obtain ⟨k, hk, hf, -⟩ := h
  exact List.mem_map.mpr ⟨k, hk, hf⟩

end

end Sys2Proof.Machine
end

section
/-! The commands of a points node that end in a notice of the points (R80, R97, R98, R100, R101): the notice itself, and the
REPORT before it. -/

namespace Sys2Proof.Machine

open Sys2Proof

/-! ## The REPORT and the notice -/

@[simp] theorem taken_ts (s : State) : (taken s).ts = s.ts := rfl

/-- A REPORT of the Points Arbiter goes on to wait behind its notice. -/
theorem queued_queuePoints_report {u : Subject} {o : ReportOutcome} {n : Nat} {s : State} {c : Addr} (hclash : s.tli.clash = false)
    (hcons : console s = some c) :
    queued (.report c { subject := u, outcome := o, oid := n }) (queuePoints (report .pa u o n s)) := by
  refine queued_of_mem_waiting (b := .pa) ?_
  rw [queuePoints, waiting_offer, waiting_report .pa .pa u o n c s hclash hcons]
  simp

/-! ## The commissioning and the clearing of a fault (R80, R98) -/

theorem exec_pointsCommission_points {src : Addr} {r : PointsComm} {s : State}
    (hfront : atFront src (.pointsCommission r) s = true) (hkind : s.tli.kind = .points) :
    exec (.pointsCommission src r) s = .next (takePointsCommission src r (taken s)) := by
  show execPointsCommission src r s = _
  rw [execPointsCommission, deliver_of_atFront _ hfront (by simp [fits, hkind]), onKind_of_eq _ (by simpa using hkind)]

theorem exec_pointsClearFault_points {src : Addr} {s : State} (hfront : atFront src .clearFault s = true)
    (hkind : s.tli.kind = .points) : exec (.pointsClearFault src) s = .next (takePointsClear (taken s)) := by
  show execPointsClearFault src s = _
  rw [execPointsClearFault, onKind_of_eq _ hkind, deliver_of_atFront _ hfront rfl]

theorem pointsMoving_iff {s : State} : pointsMoving s = true ↔ s.ts.state = .throwing ∨ s.ts.state = .recovering := by
  simp [pointsMoving]

theorem soleLock_of_eq {normal reverse : Bool} (h : normal = reverse) : soleLock normal reverse = none := by
  subst h
  cases normal <;> rfl

theorem soleLock_of_ne {normal reverse : Bool} (h : normal ≠ reverse) :
    soleLock normal reverse = some (if normal then .normal else .reverse) := by
  obtain rfl : reverse = !normal := by simpa using (Bool.eq_not.mpr h.symm)
  cases normal <;> rfl

theorem lockedAt_ite (normal : Bool) :
    lockedAt (if normal then .normal else .reverse) = if normal then .lockedNormal else .lockedReverse := by
  cases normal <;> rfl

/-- FAILED points of which one lock input is asserted: locked there, without the marks and the fault record (R98). -/
def cleared (p : PointsPos) (s : State) : State :=
  (clearMarks (lockAt p s)).setPa { s.pa with unavailNormal := false, unavailReverse := false, fault := none }

section
variable {s : State}

theorem takePointsClear_of_refused (h : pointsMoving s = true ∨ s.tli.clash = true) :
    takePointsClear s = report .pa .clearFault (.refused .state) 0 s := if_pos h

theorem takePointsClear_of_locked (hmoving : pointsMoving s = false) (hclash : s.tli.clash = false) {p : PointsPos}
    (hlocked : lockedPos s.ts.state = some p) : takePointsClear s = report .pa .clearFault .accepted 0 (clearMarks s) := by
  simp only [takePointsClear, hmoving, hclash, hlocked, Bool.false_eq_true, or_self, if_false]

theorem takePointsClear_of_failed (hclash : s.tli.clash = false) (hfailed : s.ts.state = .failed) : takePointsClear s =
    match soleLock s.ts.normalLock s.ts.reverseLock with
    | none => report .pa .clearFault (.refused .stillPresent) 0 s
    | some p => serveAfter s (report .pa .clearFault .accepted 0 (cleared p s)) := by
  have hmoving : pointsMoving s = false := by simp [pointsMoving, hfailed]
  have hnone : lockedPos s.ts.state = none := by rw [hfailed]; rfl
  simp only [takePointsClear, hmoving, hclash, hnone, Bool.false_eq_true, or_self, if_false]
  rfl

/-- Without an ask there is nothing to serve, and the points, FAILED before, are announced as locked. -/
theorem takePointsClear_of_cleared {p : PointsPos} (hclash : s.tli.clash = false) (hfailed : s.ts.state = .failed)
    (hsole : soleLock s.ts.normalLock s.ts.reverseLock = some p) (hqueue : s.pa.queue = []) :
    takePointsClear s = queuePoints (report .pa .clearFault .accepted 0 (cleared p s)) := by
  rw [takePointsClear_of_failed hclash hfailed, hsole]
  show serveAfter s _ = _
  rw [serveAfter, serve_of_empty (by simpa [cleared] using hqueue)]
  refine noticeIfChanged_of_ne fun h => ?_
  have hstate : s.ts.state = lockedAt p := by simpa [announced, cleared, clearMarks, lockAt] using congrArg Prod.fst h
  exact lockedAt_ne_failed p (hstate.symm.trans hfailed)

end

theorem clampPointsComm_eq (r : PointsComm) : clampPointsComm r =
    { seg := max 1 (min 1023 r.seg), throwSec := max 2 (min 15 r.throwSec), refresh := max 200 (min 1000 r.refresh) } := by
  simp [clampPointsComm, clampTo, Nat.min_comm]

/-- Settles O27: COMMISSION by whether the node has its record, CLEAR-FAULT by the points state and the lock inputs. -/
theorem pointsCommissionOrClear : Obligations.PointsCommissionOrClear := by
  refine ⟨fun src r s hfront hkind => ?commission, fun src s hfront hkind => ?clear⟩
  case commission =>
    rw [exec_pointsCommission_points hfront hkind, takePointsCommission]
    refine ⟨fun hcomm => ?_, fun hcomm hclash => ?_⟩
    · rw [if_pos (by simpa using hcomm)]
    · rw [if_neg (by simp [hcomm]), pointsCommMarks, clampPointsComm_eq]
      simp only [taken_tli_clash, hclash]
      rfl
  case clear =>
    rw [exec_pointsClearFault_points hfront hkind]
    refine ⟨fun h => ?_, fun hlocked hclash => ?_, fun hfailed hclash => ⟨fun hlocks => ?_, fun hlocks hqueue => ?_⟩⟩
    · rw [takePointsClear_of_refused (by simpa [pointsMoving_iff, or_assoc] using h)]
    · obtain ⟨p, hp⟩ : ∃ p, s.ts.state = lockedAt p :=
        hlocked.elim (fun h => ⟨.normal, h⟩) fun h => ⟨.reverse, h⟩
      have hmoving : pointsMoving (taken s) = false := by
        rcases hlocked with h | h <;> simp [pointsMoving, h]
      rw [takePointsClear_of_locked hmoving (by simpa using hclash) (lockedPos_eq_some_iff.mpr hp)]
      rfl
    · have hnone := soleLock_of_eq hlocks
      rw [takePointsClear_of_failed (by simpa using hclash) (by simpa using hfailed)]
      simp [hnone]
    · have hsole := soleLock_of_ne hlocks
      rw [takePointsClear_of_cleared (s := taken s) (by simpa using hclash) (by simpa using hfailed)
        (by simpa using hsole) (by simpa using hqueue)]
      refine ⟨_, rfl, ?_, by simp [cleared], by simp [cleared, clearMarks, lockAt], fun c hcons => ⟨?_, ?_⟩⟩
      · simp [cleared, clearMarks, lockAt, lockedAt_ite]
      · exact queued_queuePoints_report (by simpa [cleared, clearMarks, lockAt] using hclash)
          (by simpa [console, cleared, clearMarks, lockAt, hkind] using hcons)
      · exact queued_queuePoints (by simpa [cleared, clearMarks, lockAt] using hclash)

/-! ## The loss of a lock (R97) -/

theorem exec_lockInputChange_of_locked {p : PointsPos} {normal reverse : Bool} {s : State} (hkind : s.tli.kind = .points)
    (hat : s.ts.state = lockedAt p) : exec (.lockInputChange normal reverse) s = .next
      (if soleLock normal reverse = some p then withLocks normal reverse s else lockLost (withLocks normal reverse s)) := by
  show execLockInputChange normal reverse s = _
  rw [execLockInputChange, onKind_of_eq _ hkind]
  simp only [hat, lockedPos_lockedAt, withLocks]

/-- Settles O35: with the position's own lock alone asserted the inputs change and nothing else; otherwise the points fail. -/
theorem lockLoss : Obligations.LockLoss := by
  intro p normal reverse s hkind hat kept
  have hkept : kept = true ↔ soleLock normal reverse = some p := by
    cases p <;> cases normal <;> cases reverse <;> decide
  rw [exec_lockInputChange_of_locked hkind hat]
  refine ⟨fun h => by rw [if_pos (hkept.mp h)]; rfl, fun h => ?_⟩
  rw [if_neg (mt hkept.mpr (by simp [h]))]
  refine ⟨_, rfl, ?_, ?_, ?_, ?_, ?_, fun hfault => ?_, fun f hfault => ?_,
    fun hclash => ⟨queued_queuePoints (by simpa [pointsFail, withLocks] using hclash), ?_, ?_, ?_, fun c hcons => ?_⟩⟩
  · simp [lockLost, pointsFail, withLocks]
  · simp [lockLost, pointsFail]
  · simp [lockLost, pointsFail]
  · simp [lockLost, pointsFail, withLocks]
  · simp [lockLost, pointsFail, withLocks]
  · rw [lockLost, queuePoints_pa]
    exact raisePoints_code_of_first _ (by simpa [withLocks] using hfault)
  · rw [lockLost, queuePoints_pa, raisePoints_fault_of_further (f := f) _ (by simpa [withLocks] using hfault),
      faultRec_add_of_not_positional rfl]
  · simp [lockLost, pointsNotice, pointsFail]
  · simp [lockLost, pointsNotice, pointsFail]
  · simp [lockLost, pointsNotice, pointsFail]
  · exact queued_queuePoints_report (by simpa [pointsFail, withLocks] using hclash)
      (by simpa [console, pointsFail, withLocks, hkind] using hcons)

/-! ## STATION-RESET (R101, R198) -/

theorem exec_pointsStationReset_points {src : Addr} {s : State} (hfront : atFront src .stationReset s = true)
    (hkind : s.tli.kind = .points) : exec (.pointsStationReset src) s = .next (takePointsReset (taken s)) := by
  show execPointsStationReset src s = _
  rw [execPointsStationReset, onKind_of_eq _ hkind, deliver_of_atFront _ hfront rfl]

/-- No frame of the queue gives its place up to another. -/
def NoneGives (t : Tli) : Prop := ∀ k ∈ t.txq, k.periodic = false ∨ k.sending = true

theorem noneGives_resetTli (t : Tli) : NoneGives (resetTli t) := fun k hk => by
  obtain ⟨e, -, hs, rfl⟩ := (mem_resetTli_txq t k).mp hk
  exact .inr hs

/-- Where no frame gives its place up, a frame offered displaces none. -/
theorem offerPlain_noneGives {e : TxEntry} {t : Tli} (he : e.periodic = false) (h : NoneGives t) :
    NoneGives (offerPlain e t) ∧ (offerPlain e t).counters = t.counters := by
  have hjoin : NoneGives { t with txq := t.txq ++ [e] } := fun k hk =>
    (List.mem_append.mp hk).elim (h k) fun hk => .inl (List.mem_singleton.mp hk ▸ he)
  by_cases hbehind : ∃ k ∈ t.kept, k.block = e.block
  · rw [offerPlain_behind he hbehind]
    exact ⟨h, rfl⟩
  · by_cases hroom : t.txq.length < 10
    · rw [offerPlain_room he hbehind hroom]
      exact ⟨hjoin, rfl⟩
    · rw [offerPlain_keeps he hbehind (not_lt.mp hroom) h]
      exact ⟨h, rfl⟩

theorem resetReport_counters (b : Block) (s : State) :
    NoneGives (resetReport b s).tli ∧ (resetReport b s).tli.counters = ⟨0, 0, 0, 0⟩ := by
  cases hcons : console s with
  | none =>
    rw [resetReport_of_no_console hcons]
    exact ⟨noneGives_resetTli _, rfl⟩
  | some c =>
    rw [resetReport_line hcons]
    have hoffer {e : TxEntry} (he : e.periodic = false) := offerPlain_noneGives he (noneGives_resetTli s.tli)
    exact ⟨(hoffer rfl).1, (hoffer rfl).2.trans rfl⟩

theorem queuePoints_tli_of_no_clash {s : State} (hclash : s.tli.clash = false) : (queuePoints s).tli = offerPlain
    { frame := .points (pointsNotice s), block := .pa, periodic := false, tag := .plain, sending := false, cut := [],
      withdrawn := false } s.tli := by
  rw [queuePoints, offer, settleRefresh_tli, State.setTli_tli, offerTli_of_nonperiodic hclash rfl rfl]

theorem relock_of_other {s : State} (h : s.pa.fault.map FaultRec.code ≠ some .addressClash) : relock s = s := by
  unfold relock
  cases hfault : s.pa.fault with
  | none => rfl
  | some f => exact if_neg (by simpa [hfault] using h)

theorem relock_of_clash {s : State} (h : s.pa.fault.map FaultRec.code = some .addressClash) : relock s =
    (s.setTs { s.ts with state := stateOfLocks s.ts.normalLock s.ts.reverseLock, motor := .off, timer := none }).setPa
      { s.pa with fault := faultOfLocks s.ts.normalLock s.ts.reverseLock (pointsSeg s) } := by
  unfold relock
  obtain ⟨f, hfault, hcode⟩ := Option.map_eq_some_iff.mp h
  rw [if_pos (by simp [hfault, hcode])]
  rfl

/-- A reset of the node by STATION-RESET leaves alone what the relocking does not decide. -/
theorem relock_parts (s : State) : (relock s).sv = s.sv ∧ (relock s).tli = s.tli ∧
    (relock s).pa = { s.pa with fault := (relock s).pa.fault } ∧ (relock s).ce = s.ce := by
  by_cases h : s.pa.fault.map FaultRec.code = some .addressClash
  · rw [relock_of_clash h]
    exact ⟨rfl, rfl, rfl, rfl⟩
  · rw [relock_of_other h]
    exact ⟨rfl, rfl, rfl, rfl⟩

/-- The node after STATION-RESET, before its points are relocked and announced (R101). -/
def resetNode (s : State) : State :=
  ((resetReport .pa s).setSv { entries := [], listen := some 0, overflow := none }).setPa
    { s.pa with queue := [], askDrops := 0, lastAnswer := none, watcher := none, countdown := some 0,
                grant := s.pa.grant.map (fun g => { g with live := false }) }

theorem pointsReset_eq (s : State) : pointsReset s = queuePoints (relock (resetNode s)) := by
  simp [pointsReset, resetNode]

/-- Settles O30: the REPORT is the first frame queued, and the notice of the reset state the last. -/
theorem pointsResetTaken : Obligations.PointsResetTaken := by
  intro src s hfront hkind
  rw [exec_pointsStationReset_points hfront hkind, takePointsReset]
  refine ⟨fun h => by rw [if_pos (pointsMoving_iff.mpr (by simpa using h))], fun hthrow hrecover => ?_⟩
  have hmoving : ¬ pointsMoving (taken s) = true := fun h => (pointsMoving_iff.mp h).elim hthrow hrecover
  rw [if_neg hmoving, pointsReset_eq]
  set n := resetNode (taken s) with hn
  obtain ⟨hsv, htli, hpa, -⟩ := relock_parts n
  have hclash : (relock n).tli.clash = false := by rw [htli]; simp [hn, resetNode]
  have hline : n.tli = (resetReport .pa (taken s)).tli := rfl
  have hpinned : Pinned (resetReport .pa (taken s)).tli (queuePoints (relock n)).tli := by
    rw [← hline, ← htli]
    exact offer_pinned ..
  obtain ⟨hgives, hcounters⟩ := resetReport_counters .pa (taken s)
  refine ⟨_, rfl, by rw [queuePoints_sv, hsv]; rfl, fun e he hs => ?sent, ?_, ?_, ?_, ?_, ?_, ?_, ?_, ?_, ?_, ?_, ?_, ?_, ?_,
    ?_, fun c hcons => ?_, fun c hcons hclashed hfree => ?first, fun hcode => ?_, fun hcode => ⟨fun hlocks => ?_, fun hlocks => ?_⟩,
    queued_queuePoints hclash⟩
  case sent =>
    obtain ⟨k, hk, hks, hkw, hkf, -⟩ := resetReport_finishes (b := .pa) (s := taken s) he hs
    obtain ⟨l, hl, hls, hlw, hlf, -⟩ := hpinned.sent k hk hks hkw
    exact ⟨l, hl, hls, hlw, hlf.trans hkf⟩
  case first =>
    exact exec_lineIdle_of_firstWaits
      (hpinned.first _ _ (resetReport_first (by simpa [console, hkind] using hcons) (by simpa using hclashed) hfree))
  · rw [queuePoints_tli_clash, hclash]
  · rw [queuePoints_tli_inbound, htli]; simp [hn, resetNode]
  · rw [queuePoints_tli_of_no_clash hclash, htli, hline, (offerPlain_noneGives rfl hgives).2, hcounters]
  · rw [queuePoints_pa, hpa]; rfl
  · rw [queuePoints_pa, hpa]; rfl
  · rw [queuePoints_pa, hpa]; rfl
  · rw [queuePoints_pa, hpa]; rfl
  · rw [queuePoints_pa, hpa]; rfl
  · rw [queuePoints_pa, hpa]; rfl
  · rw [queuePoints_pa, hpa]; rfl
  · rw [queuePoints_pa, hpa]; rfl
  · rw [queuePoints_pa, hpa]; rfl
  · rw [queuePoints_pa, hpa]; rfl
  · rw [queuePoints_pa, hpa]; rfl
  · exact queued_of_reportWaits (hpinned.waits _ _ (resetReport_waits (by simpa [console, hkind] using hcons)))
  · rw [queuePoints_ts, queuePoints_pa, relock_of_other (by simpa [hn, resetNode] using hcode)]
    simp [hn, resetNode]
  · have hnone := soleLock_of_eq hlocks
    rw [queuePoints_ts, queuePoints_pa, relock_of_clash (by simpa [hn, resetNode] using hcode)]
    simp [hn, resetNode, stateOfLocks, faultOfLocks, hnone]
  · have hsole := soleLock_of_ne hlocks
    rw [queuePoints_ts, queuePoints_pa, relock_of_clash (by simpa [hn, resetNode] using hcode)]
    simp [hn, resetNode, stateOfLocks, faultOfLocks, hsole, lockedAt_ite]

end Sys2Proof.Machine
end

section
/-! Throws and recoveries (R90 to R93): what stands on the line after the notices of a motion's end, and the asks that a
recovery refuses. -/

namespace Sys2Proof.Machine

open Sys2Proof

/-! ## Notices that find room -/

/-- The transmit queue has room for more than `n` frames, and the Points Arbiter keeps none back. -/
def NoticeRoom (n : Nat) (t : Tli) : Prop := t.clash = false ∧ t.txq.length + n < 10 ∧ ∀ k ∈ t.kept, k.block ≠ .pa

/-- The notices joined the transmit queue, in their order. -/
def Sent (ns : List PointsNotice) (t u : Tli) : Prop :=
  u.txq.map TxEntry.frame = t.txq.map TxEntry.frame ++ ns.map Frame.points

theorem Sent.nil (t : Tli) : Sent [] t t := by simp [Sent]

theorem Sent.trans {ns ms : List PointsNotice} {t u v : Tli} (h : Sent ns t u) (h' : Sent ms u v) : Sent (ns ++ ms) t v := by
  rw [Sent, h', h, List.map_append, List.append_assoc]

theorem queuePoints_sent {n : Nat} {s : State} (h : NoticeRoom n s.tli) :
    Sent [pointsNotice s] s.tli (queuePoints s).tli ∧ (∀ m, n = m + 1 → NoticeRoom m (queuePoints s).tli) := by
  obtain ⟨hclash, hroom, hkept⟩ := h
  have hline : (queuePoints s).tli = { s.tli with txq := s.tli.txq ++ [
      { frame := .points (pointsNotice s), block := .pa, periodic := false, tag := .plain, sending := false, cut := [],
        withdrawn := false }] } := by
    rw [queuePoints_tli_of_no_clash hclash, offerPlain_room rfl (by simpa using hkept) (by omega)]
  rw [hline]
  refine ⟨by simp [Sent], fun m hm => ⟨hclash, ?_, hkept⟩⟩
  simp only [List.length_append, List.length_singleton]
  omega

/-! ## Serving depends on what it reads -/

theorem mayServe_congr {s t : State} {x : Addr} (hcomm : t.pa.comm = s.pa.comm) (hgrant : t.pa.grant = s.pa.grant)
    (hsv : t.sv = s.sv) (hsilent : t.tli.silent = s.tli.silent) : mayServe x t = mayServe x s := by
  simp only [mayServe, listeningIn, soleClaimant, liveIn, hcomm, hgrant, hsv, hsilent]

theorem queuePoints_silent (s : State) : (queuePoints s).tli.silent = s.tli.silent := by
  rw [queuePoints, offer, settleRefresh_tli]
  exact offerTli_silent _ _

/-! ## The asks a recovery refuses (R92) -/

/-- The asks for a position, refused one by one (R92). -/
def refuseAll (p : PointsPos) (l : List Addr) (s : State) : State := l.foldl (fun t x => refuseQueued p x t) s

theorem refuseAll_cons (p : PointsPos) (x : Addr) (l : List Addr) (s : State) :
    refuseAll p (x :: l) s = refuseAll p l (refuseQueued p x s) := rfl

/-- A station's ask for the position is out of the queue, and its refusal the last answer. -/
def withRefusal (p : PointsPos) (x : Addr) (s : State) : State :=
  s.setPa { s.pa with queue := s.pa.queue.filter (fun q => !(decide (q.requester = x) && decide (q.pos = p)))
                      lastAnswer := some (x, .refusedFailed) }

theorem refuseQueued_eq (p : PointsPos) (x : Addr) (s : State) : refuseQueued p x s = queuePoints (withRefusal p x s) := rfl

theorem refuseAll_pa (p : PointsPos) (l : List Addr) (s : State) : (refuseAll p l s).pa =
    { s.pa with queue := s.pa.queue.filter (fun q => !(decide (q.requester ∈ l) && decide (q.pos = p)))
                lastAnswer := (l.getLast?.map (fun x => (x, AnswerCode.refusedFailed))).or s.pa.lastAnswer } := by
  induction l generalizing s with
  | nil => simp [refuseAll]
  | cons x l ih =>
    rw [refuseAll_cons, ih, refuseQueued_eq, queuePoints_pa]
    simp only [withRefusal, State.setPa_pa, List.filter_filter]
    congr 1
    · refine List.filter_congr fun q _ => ?_
      by_cases hx : q.requester = x
      · by_cases hp : q.pos = p <;> simp [hx, hp]
      · simp [hx]
    · cases l with
      | nil => rfl
      | cons y l => simp [List.getLast?_cons]

theorem refuseQueued_silent (p : PointsPos) (x : Addr) (s : State) : (refuseQueued p x s).tli.silent = s.tli.silent :=
  queuePoints_silent _

theorem refuseAll_parts (p : PointsPos) (l : List Addr) (s : State) : (refuseAll p l s).ts = s.ts ∧
    (refuseAll p l s).sv = s.sv ∧ (refuseAll p l s).tli.silent = s.tli.silent ∧
    (refuseAll p l s).tli.clash = s.tli.clash := by
  induction l generalizing s with
  | nil => exact ⟨rfl, rfl, rfl, rfl⟩
  | cons x l ih =>
    obtain ⟨hts, hsv, hsilent, hclash⟩ := ih (refuseQueued p x s)
    exact ⟨hts.trans (refuseQueued_ts p x s), hsv.trans (by simp [refuseQueued, answer]),
      hsilent.trans (refuseQueued_silent p x s), hclash.trans (by simp [refuseQueued, answer])⟩

/-- Each refusal has its notice, in their order, and the last shows the state they leave. -/
theorem refuseAll_sent {p : PointsPos} {l : List Addr} {s : State} {n : Nat} (h : NoticeRoom (l.length + n) s.tli) :
    NoticeRoom n (refuseAll p l s).tli ∧
    ∃ ns, Sent ns s.tli (refuseAll p l s).tli ∧ ns.length = l.length ∧
      ns.map (fun k => (k.requester, k.code)) = l.map (fun x => (x, .refusedFailed)) ∧
      (l ≠ [] → ns.getLast? = some (pointsNotice (refuseAll p l s))) := by
  induction l generalizing s with
  | nil => exact ⟨by simpa [refuseAll] using h, [], Sent.nil _, rfl, rfl, fun h => absurd rfl h⟩
  | cons x l ih =>
    obtain ⟨hsent, hroom⟩ := queuePoints_sent (s := withRefusal p x s) h
    have hnotice : pointsNotice (refuseQueued p x s) = pointsNotice (withRefusal p x s) := pointsNotice_queuePoints _
    obtain ⟨hleft, ns, hmore, hlength, hanswers, hlast⟩ := ih (s := refuseQueued p x s)
      (hroom (l.length + n) (by simp only [List.length_cons]; omega))
    rw [refuseAll_cons]
    refine ⟨hleft, pointsNotice (refuseQueued p x s) :: ns, ?_, by simp [hlength], ?_, fun _ => ?_⟩
    · rw [hnotice]
      exact Sent.trans hsent hmore
    · rw [List.map_cons, hanswers, hnotice]
      rfl
    · cases l with
      | nil =>
        have hns : ns = [] := List.length_eq_zero_iff.mp hlength
        rw [hns]
        rfl
      | cons y l =>
        rw [List.getLast?_cons, hlast (List.cons_ne_nil _ _)]
        rfl

/-! ## The ends of a motion -/

section
variable {normal reverse : Bool} {s : State}

/-- The points locked at a position under the inputs as they now stand. -/
def lockedWith (normal reverse : Bool) (p : PointsPos) (s : State) : State := lockAt p (withLocks normal reverse s)

theorem lockedWith_state (p : PointsPos) : (lockedWith normal reverse p s).ts.state = lockedAt p := rfl

/-- The target's lock ends a throw, and a recovery that the previous position's lock has not ended (R91, R92). -/
theorem exec_lockInputChange_target (hkind : s.tli.kind = .points)
    (htarget : lockOf (withLocks normal reverse s) s.ts.target = true)
    (hmotion : s.ts.state = .throwing ∨
      (s.ts.state = .recovering ∧ lockOf (withLocks normal reverse s) s.ts.previous = false)) :
    exec (.lockInputChange normal reverse) s =
      .next (queuePoints (serve (lockedWith normal reverse s.ts.target s))) := by
  rcases hmotion with hstate | ⟨hstate, hprevious⟩
  · rw [exec_lockInputChange_of_not_locked normal reverse hkind (by rw [hstate]; rfl), lockArrives]
    simp only [withLocks_state, hstate]
    exact congrArg _ (if_pos htarget)
  · rw [exec_lockInputChange_of_not_locked normal reverse hkind (by rw [hstate]; rfl), lockArrives]
    simp only [withLocks_state, hstate]
    exact congrArg _ ((if_neg (by simpa using hprevious)).trans (if_pos htarget))

theorem exec_throwTimeout (hkind : s.tli.kind = .points) : exec .throwTimeout s = .next
    (if s.ts.state = .throwing then
      lockArrives s (s.setTs { s.ts with state := .recovering, motor := .toward s.ts.previous, timer := some 0 })
    else s) := by
  show execThrowTimeout s = _
  rw [execThrowTimeout, onKind_of_eq _ hkind]

theorem exec_recoveryTimeout_of_not_recovering (hkind : s.tli.kind = .points) (hstate : s.ts.state ≠ .recovering) :
    exec .recoveryTimeout s = .next s := by
  show execRecoveryTimeout s = _
  rw [execRecoveryTimeout, onKind_of_eq _ hkind, if_neg hstate]

/-- A notice of the state, alone. -/
theorem queuePoints_noticed (s : State) :
    (s.tli.clash = false → queued (.points (pointsNotice (queuePoints s))) (queuePoints s)) ∧
    (NoticeRoom 0 s.tli → Sent [pointsNotice (queuePoints s)] s.tli (queuePoints s).tli) :=
  ⟨queued_queuePoints, fun h => by
    rw [pointsNotice_queuePoints]
    exact (queuePoints_sent h).1⟩

end

end Sys2Proof.Machine
end

section
/-! The end of a recovery at the previous position (R92), and the settling of the statement about throws. -/

namespace Sys2Proof.Machine

open Sys2Proof

theorem refuseAll_queued {p : PointsPos} {l : List Addr} {s : State} (hne : l ≠ []) (hclash : s.tli.clash = false) :
    queued (.points (pointsNotice (refuseAll p l s))) (refuseAll p l s) := by
  induction l generalizing s with
  | nil => exact absurd rfl hne
  | cons x l ih =>
    rw [refuseAll_cons]
    cases l with
    | nil => exact queued_queuePoints (s := withRefusal p x s) hclash
    | cons y l => exact ih (List.cons_ne_nil _ _) (by simpa [refuseQueued_eq, withRefusal] using hclash)

/-- The asks for the position that a recovery has not reached. -/
def outAsks (s : State) : List AskEntry := s.pa.queue.filter (fun q => decide (q.pos = s.ts.target))

/-- The Points Arbiter with those asks refused and the position marked (R92). -/
def arbiterRefused (s : State) : Arbiter :=
  { s.pa with queue := s.pa.queue.filter (fun q => decide (q.pos ≠ s.ts.target))
              lastAnswer := ((outAsks s).getLast?.map (fun q => (q.requester, AnswerCode.refusedFailed))).or s.pa.lastAnswer
              unavailNormal := s.pa.unavailNormal || decide (s.ts.target = .normal)
              unavailReverse := s.pa.unavailReverse || decide (s.ts.target = .reverse) }

/-- The recovered points, before serving: locked at the previous position, the target marked and its asks refused. -/
def recovered (normal reverse : Bool) (s : State) : State :=
  refuseAll s.ts.target ((outAsks s).map AskEntry.requester)
    (setUnavail s.ts.target (lockedWith normal reverse s.ts.previous s))

section
variable {normal reverse : Bool} {s : State}

theorem setUnavail_parts (p : PointsPos) (s : State) : (setUnavail p s).ts = s.ts ∧ (setUnavail p s).sv = s.sv ∧
    (setUnavail p s).tli = s.tli ∧ (setUnavail p s).pa =
      { s.pa with unavailNormal := s.pa.unavailNormal || decide (p = .normal)
                  unavailReverse := s.pa.unavailReverse || decide (p = .reverse) } := by
  cases p <;> simp [setUnavail]

theorem recovered_pa : (recovered normal reverse s).pa = arbiterRefused s := by
  rw [recovered, refuseAll_pa, (setUnavail_parts _ _).2.2.2, arbiterRefused]
  simp only [List.getLast?_map, Option.map_map]
  congr 1
  refine List.filter_congr fun q hq => ?_
  by_cases hp : q.pos = s.ts.target
  · have hout : q.requester ∈ (outAsks s).map AskEntry.requester :=
      List.mem_map.mpr ⟨q, List.mem_filter.mpr ⟨hq, decide_eq_true hp⟩, rfl⟩
    simp [hp, hout]
  · simp [hp]

theorem recovered_ts : (recovered normal reverse s).ts = (lockedWith normal reverse s.ts.previous s).ts :=
  (refuseAll_parts _ _ _).1.trans (setUnavail_parts _ _).1

theorem recovered_mayServe (x : Addr) : mayServe x (recovered normal reverse s) = mayServe x s := by
  obtain ⟨-, hsv, hsilent, -⟩ := refuseAll_parts s.ts.target ((outAsks s).map AskEntry.requester)
    (setUnavail s.ts.target (lockedWith normal reverse s.ts.previous s))
  obtain ⟨-, hsv', htli', -⟩ := setUnavail_parts s.ts.target (lockedWith normal reverse s.ts.previous s)
  refine mayServe_congr ?_ ?_ (hsv.trans hsv') (hsilent.trans (congrArg Tli.silent htli'))
  · rw [recovered_pa]; rfl
  · rw [recovered_pa]; rfl

theorem recovered_clash : (recovered normal reverse s).tli.clash = s.tli.clash :=
  (refuseAll_parts _ _ _).2.2.2.trans (congrArg Tli.clash (setUnavail_parts _ _).2.2.1)

theorem recovered_sent {n : Nat} (h : NoticeRoom ((outAsks s).length + n) s.tli) :
    NoticeRoom n (recovered normal reverse s).tli ∧
    ∃ ns, Sent ns s.tli (recovered normal reverse s).tli ∧ ns.length = (outAsks s).length ∧
      ns.map (fun k => (k.requester, k.code)) = (outAsks s).map (fun q => (q.requester, .refusedFailed)) ∧
      (outAsks s ≠ [] → ns.getLast? = some (pointsNotice (recovered normal reverse s))) := by
  have hline := (setUnavail_parts s.ts.target (lockedWith normal reverse s.ts.previous s)).2.2.1
  have hroom : NoticeRoom (((outAsks s).map AskEntry.requester).length + n)
      (setUnavail s.ts.target (lockedWith normal reverse s.ts.previous s)).tli := by
    rw [hline, List.length_map]
    exact h
  obtain ⟨hleft, ns, hsent, hlength, hanswers, hlast⟩ := refuseAll_sent (p := s.ts.target) hroom
  rw [hline] at hsent
  refine ⟨hleft, ns, hsent, hlength.trans (List.length_map ..), hanswers.trans ?_, fun hne => hlast ?_⟩
  · rw [List.map_map]; rfl
  · simpa using hne

/-- The notices of a recovery: one for each ask refused, in queue order, and the last of the state as it then stands. -/
def Answered (s t : State) : Prop :=
  (s.tli.clash = false → queued (.points (pointsNotice t)) t) ∧
    (NoticeRoom (outAsks s).length s.tli → ∃ ns, Sent ns s.tli t.tli ∧ ns.getLast? = some (pointsNotice t) ∧
      (ns.take (outAsks s).length).map (fun n => (n.requester, n.code)) =
        (outAsks s).map (fun q => (q.requester, .refusedFailed)))

/-- The last notice is one of its own, after the refusals. -/
theorem answered_noticed {w : State} (hline : w.tli = (recovered normal reverse s).tli) : Answered s (queuePoints w) := by
  refine ⟨fun hclash => queued_queuePoints (by rw [hline, recovered_clash, hclash]), fun hroom => ?_⟩
  obtain ⟨hleft, ns, hsent, hlength, hanswers, -⟩ := recovered_sent (normal := normal) (reverse := reverse) (n := 0) hroom
  rw [← hline] at hleft hsent
  refine ⟨ns ++ [pointsNotice w], hsent.trans (queuePoints_sent hleft).1, by simp, ?_⟩
  rw [← hlength, List.take_left, hanswers]

/-- The last notice is that of the last refusal. -/
theorem answered_recovered (hne : outAsks s ≠ []) : Answered s (recovered normal reverse s) := by
  refine ⟨fun hclash => refuseAll_queued (by simpa using hne) ?_, fun hroom => ?_⟩
  · rw [(setUnavail_parts _ _).2.2.1]
    exact hclash
  · obtain ⟨-, ns, hsent, hlength, hanswers, hlast⟩ :=
      recovered_sent (normal := normal) (reverse := reverse) (n := 0) hroom
    exact ⟨ns, hsent, hlast hne, by rw [← hlength, List.take_length, hanswers]⟩

theorem recoverPrevious_eq {out : List AskEntry} (hout : (setUnavail s.ts.target (lockAt s.ts.previous s)).pa.queue.filter
    (fun q => decide (q.pos = s.ts.target)) = out) : recoverPrevious s =
      let u := setUnavail s.ts.target (lockAt s.ts.previous s)
      let v := refuseAll s.ts.target (out.map AskEntry.requester) u
      if out = [] then lockServed u else serveAfter v v := by
  have hempty : (out.map AskEntry.requester).isEmpty = true ↔ out = [] := by simp
  simp only [recoverPrevious, hout, hempty, refuseAll]

/-- A recovery that the previous position's lock ends (R92). -/
theorem exec_lockInputChange_previous (hkind : s.tli.kind = .points) (hstate : s.ts.state = .recovering)
    (hprevious : lockOf (withLocks normal reverse s) s.ts.previous = true) :
    exec (.lockInputChange normal reverse) s = .next
      (if outAsks s = [] then queuePoints (serve (recovered normal reverse s))
       else noticeIfChanged (recovered normal reverse s) (serve (recovered normal reverse s))) := by
  rw [exec_lockInputChange_of_not_locked normal reverse hkind (by rw [hstate]; rfl),
    lockArrives_of_previous (s := withLocks normal reverse s) hstate hprevious]
  have hout : ((setUnavail s.ts.target (lockedWith normal reverse s.ts.previous s)).pa.queue.filter
      (fun q => decide (q.pos = s.ts.target))) = outAsks s := by
    rw [(setUnavail_parts _ _).2.2.2]
    rfl
  refine congrArg Host.Outcome.next ((recoverPrevious_eq (s := withLocks normal reverse s) hout).trans ?_)
  by_cases hne : outAsks s = []
  · rw [if_pos hne, if_pos hne, recovered, hne]
    rfl
  · rw [if_neg hne, if_neg hne]
    rfl

theorem exec_previous_not_served (hkind : s.tli.kind = .points) (hstate : s.ts.state = .recovering)
    (hprevious : lockOf (withLocks normal reverse s) s.ts.previous = true)
    (hwaits : ∀ a rest, (arbiterRefused s).queue = a :: rest → mayServe a.requester s = false) :
    ∃ t, exec (.lockInputChange normal reverse) s = .next t ∧ t.ts = (lockedWith normal reverse s.ts.previous s).ts ∧
      t.pa = arbiterRefused s ∧ Answered s t := by
  have hserve : serve (recovered normal reverse s) = recovered normal reverse s :=
    serve_of_not_served fun a rest ha => by
      rw [recovered_pa] at ha
      rw [recovered_mayServe, hwaits a rest ha]
  rw [exec_lockInputChange_previous hkind hstate hprevious, hserve]
  by_cases hne : outAsks s = []
  · rw [if_pos hne]
    exact ⟨_, rfl, by rw [queuePoints_ts, recovered_ts], by rw [queuePoints_pa, recovered_pa], answered_noticed rfl⟩
  · rw [if_neg hne, noticeIfChanged, if_pos rfl]
    exact ⟨_, rfl, recovered_ts, recovered_pa, answered_recovered hne⟩

theorem exec_previous_served {h : AskEntry} {rest : List AskEntry} (hkind : s.tli.kind = .points)
    (hstate : s.ts.state = .recovering) (hprevious : lockOf (withLocks normal reverse s) s.ts.previous = true)
    (hqueue : (arbiterRefused s).queue = h :: rest) (hmay : mayServe h.requester s = true) (hpos : h.pos = s.ts.previous) :
    ∃ t, exec (.lockInputChange normal reverse) s = .next t ∧ t.ts = (lockedWith normal reverse s.ts.previous s).ts ∧
      Answered s t ∧
      t.pa = { arbiterRefused s with grant := some ⟨h.requester, h.pos, true⟩, queue := rest,
                                     lastAnswer := some (h.requester, .granted) } := by
  have hq : (recovered normal reverse s).pa.queue = h :: rest := by rw [recovered_pa, hqueue]
  have hat : (recovered normal reverse s).ts.state = lockedAt s.ts.previous := by rw [recovered_ts]; rfl
  have hserve : serve (recovered normal reverse s) = grantHead h rest (recovered normal reverse s) := by
    rw [serve_of_queue hq hat, if_pos (by rw [recovered_mayServe, hmay]), if_pos hpos]
  have hnone : s.pa.grant = none := by
    have hparts := hmay
    simp only [mayServe, Bool.and_eq_true, Option.isNone_iff_eq_none] at hparts
    exact hparts.1.1.2
  have hchanged : noticeIfChanged (recovered normal reverse s) (grantHead h rest (recovered normal reverse s)) =
      queuePoints (grantHead h rest (recovered normal reverse s)) := by
    refine noticeIfChanged_of_ne fun heq => ?_
    have hgrant := congrArg (fun a => a.2.1) heq
    simp [announced, grantHead, recovered_pa, arbiterRefused, hnone] at hgrant
  rw [exec_lockInputChange_previous hkind hstate hprevious, hserve, hchanged, ite_self]
  refine ⟨_, rfl, ?_, answered_noticed rfl, ?_⟩
  · rw [queuePoints_ts]
    exact recovered_ts
  · rw [queuePoints_pa, grantHead, State.setPa_pa, recovered_pa]

end

theorem lockArrives_of_throwing {before s : State} (hstate : s.ts.state = .throwing) (hlock : lockOf s s.ts.target = false) :
    lockArrives before s = noticeIfChanged before s := by
  simp only [lockArrives, hstate, hlock, Bool.false_eq_true, if_false]

/-- Settles O37: each end of a motion by the lock that ends it, and what serving then makes of the head. -/
theorem throwRuns : Obligations.ThrowRuns := by
  intro normal reverse s hkind
  set u := lockedWith normal reverse s.ts.target s with hu
  have hmay (x : Addr) : mayServe x u = mayServe x s := mayServe_congr rfl rfl rfl rfl
  refine ⟨fun hat hmotion => ?served, fun hstate => ⟨fun hoff => ?other, fun hnormal hreverse => ?limit⟩,
    fun hstate hat => ⟨fun hwaits => ?waits, fun h rest hleft hserved hpos => ?recovered⟩,
    fun hstate => by rw [exec_throwTimeout hkind, if_neg hstate], exec_recoveryTimeout_of_not_recovering hkind⟩
  case served =>
    have hexec := exec_lockInputChange_target hkind hat hmotion
    have hnoticed (v : State) (hv : v.tli = s.tli) := hv ▸ queuePoints_noticed v
    refine ⟨fun hq => ⟨_, hexec, ?_⟩, fun h rest hq => ⟨fun hserved hpos => ⟨_, hexec, ?_⟩,
      fun hserved hpos hlatch => ⟨_, hexec, ?_⟩, fun hwaits => ⟨_, hexec, ?_⟩⟩⟩
    · rw [← hu, serve_of_empty (s := u) hq]
      exact ⟨by rw [queuePoints_ts]; rfl, by rw [queuePoints_pa]; rfl, hnoticed u rfl⟩
    · rw [← hu, serve_of_queue (s := u) hq rfl, if_pos ((hmay _).trans hserved), if_pos hpos]
      exact ⟨by rw [queuePoints_ts]; rfl, hnoticed _ rfl, by rw [queuePoints_pa]; rfl⟩
    · rw [← hu, serve_of_queue (s := u) hq rfl, if_pos ((hmay _).trans hserved), if_neg hpos,
        if_pos (show u.pa.latch.isNone = true from Option.isNone_iff_eq_none.mpr hlatch)]
      exact ⟨by rw [queuePoints_pa]; rfl, hnoticed _ rfl, by rw [queuePoints_ts]; rfl⟩
    · have hstays : serve u = u := by
        rw [serve_of_queue (s := u) hq rfl]
        rcases hwaits with hnot | ⟨hpos, hlatch⟩
        · exact if_neg (by rw [hmay]; exact Bool.eq_false_iff.mp hnot)
        · have hset : ¬ u.pa.latch.isNone = true := by
            rw [Option.isNone_iff_eq_none]
            exact Option.isSome_iff_ne_none.mp hlatch
          rw [if_neg hpos, if_neg hset, ite_self]
      rw [← hu, hstays]
      exact ⟨by rw [queuePoints_ts]; rfl, by rw [queuePoints_pa]; rfl, hnoticed u rfl⟩
  case other =>
    rw [exec_lockInputChange_of_not_locked normal reverse hkind (by rw [hstate]; rfl),
      lockArrives_of_throwing (s := withLocks normal reverse s) hstate hoff, noticeIfChanged_withLocks, withLocks]
  case limit =>
    set v := s.setTs { s.ts with state := .recovering, motor := .toward s.ts.previous, timer := some 0 } with hv
    have hfree (p : PointsPos) : lockOf v p = false := by cases p <;> simp [lockOf, hv, hnormal, hreverse]
    have harrives : lockArrives s v = noticeIfChanged s v := by
      have hrecovering : v.ts.state = .recovering := rfl
      simp only [lockArrives, hrecovering, hfree, Bool.false_eq_true, if_false]
    have hchanged : noticeIfChanged s v = queuePoints v := by
      refine noticeIfChanged_of_ne fun heq => ?_
      have hsame : s.ts.state = .recovering := congrArg Prod.fst heq
      simp [hstate] at hsame
    rw [exec_throwTimeout hkind, if_pos hstate, harrives, hchanged]
    exact ⟨_, rfl, by rw [queuePoints_ts]; rfl, by rw [queuePoints_pa]; rfl, (queuePoints_noticed v).1⟩
  case waits =>
    exact exec_previous_not_served hkind hstate hat fun a rest ha => hwaits a (congrArg List.head? ha)
  case recovered => exact exec_previous_served hkind hstate hat hleft hserved hpos

end Sys2Proof.Machine
end

section
/-! The Segment View (R82, R83): what a CLAIM's entries leave there, and what the Points Arbiter makes of a change. -/

namespace Sys2Proof.Machine

open Sys2Proof

/-! ## The entries of a CLAIM -/

theorem storeSegClaim_known {x : Addr} {p : Ms} {st : ClaimState} {s : State} (h : ∃ k ∈ s.sv.entries, k.holder = x) :
    storeSegClaim x p st s = s.setSv { s.sv with
      entries := s.sv.entries.map (fun k => if k.holder = x then ⟨x, st, clampTo 200 1000 p, 0, false⟩ else k) } :=
  if_pos (by simpa using h)

theorem storeSegClaim_new {x : Addr} {p : Ms} {st : ClaimState} {s : State} (h : ∀ k ∈ s.sv.entries, k.holder ≠ x)
    (hroom : s.sv.entries.length < 8) :
    storeSegClaim x p st s = s.setSv { s.sv with entries := s.sv.entries ++ [⟨x, st, clampTo 200 1000 p, 0, false⟩] } :=
  (if_neg (by simpa using h)).trans (if_pos hroom)

theorem storeSegClaim_full {x : Addr} {p : Ms} {st : ClaimState} {s : State} (h : ∀ k ∈ s.sv.entries, k.holder ≠ x)
    (hfull : 8 ≤ s.sv.entries.length) : storeSegClaim x p st s = s.setSv { s.sv with overflow := some 0 } :=
  (if_neg (by simpa using h)).trans (if_neg (not_lt.mpr hfull))

/-- A further entry of the same sender stands in the place of the one before it. -/
theorem storeSegClaim_storeSegClaim (x : Addr) (p : Ms) (st st' : ClaimState) (s : State) :
    storeSegClaim x p st' (storeSegClaim x p st s) = storeSegClaim x p st' s := by
  by_cases h : ∃ k ∈ s.sv.entries, k.holder = x
  · obtain ⟨k, hk, hx⟩ := h
    have hagain : ∃ l ∈ (storeSegClaim x p st s).sv.entries, l.holder = x := by
      rw [storeSegClaim_known ⟨k, hk, hx⟩]
      exact ⟨_, List.mem_map.mpr ⟨k, hk, if_pos hx⟩, rfl⟩
    rw [storeSegClaim_known hagain, storeSegClaim_known ⟨k, hk, hx⟩, storeSegClaim_known ⟨k, hk, hx⟩]
    simp only [State.setSv_sv, List.map_map]
    have hcomp : ((fun k : SegEntry => if k.holder = x then ⟨x, st', clampTo 200 1000 p, 0, false⟩ else k) ∘
        fun k => if k.holder = x then ⟨x, st, clampTo 200 1000 p, 0, false⟩ else k) =
        fun k => if k.holder = x then ⟨x, st', clampTo 200 1000 p, 0, false⟩ else k := by
      funext l
      by_cases hl : l.holder = x <;> simp [hl]
    rw [hcomp]
    rfl
  · have hnone : ∀ k ∈ s.sv.entries, k.holder ≠ x := fun k hk hx => h ⟨k, hk, hx⟩
    by_cases hroom : s.sv.entries.length < 8
    · have hagain : ∃ k ∈ (storeSegClaim x p st s).sv.entries, k.holder = x := by
        rw [storeSegClaim_new hnone hroom]
        exact ⟨_, List.mem_append_right _ (List.mem_singleton.mpr rfl), rfl⟩
      rw [storeSegClaim_known hagain, storeSegClaim_new hnone hroom, storeSegClaim_new hnone hroom]
      have hkeep : s.sv.entries.map (fun k => if k.holder = x then ⟨x, st', clampTo 200 1000 p, 0, false⟩ else k) =
          s.sv.entries := (List.map_congr_left fun k hk => if_neg (hnone k hk)).trans (List.map_id' _)
      simp only [State.setSv_sv, List.map_append, hkeep, List.map_cons, List.map_nil, if_true]
      rfl
    · have hsame : (storeSegClaim x p st s).sv.entries = s.sv.entries := by
        rw [storeSegClaim_full hnone (not_lt.mp hroom)]
        rfl
      rw [storeSegClaim_full (s := storeSegClaim x p st s) (by rwa [hsame]) (by rw [hsame]; exact not_lt.mp hroom),
        storeSegClaim_full hnone (not_lt.mp hroom), storeSegClaim_full hnone (not_lt.mp hroom)]
      rfl

/-- Of a CLAIM's entries for the segment the last stands. -/
theorem foldl_storeSegClaim {x : Addr} {p : Ms} {l : List ClaimItem} {i : ClaimItem} {s : State} (h : l.getLast? = some i) :
    l.foldl (fun t i => storeSegClaim x p i.st t) s = storeSegClaim x p i.st s := by
  induction l generalizing s with
  | nil => cases h
  | cons j l ih =>
    rw [List.foldl_cons]
    cases l with
    | nil => cases h; rfl
    | cons k l => rw [ih (by rwa [List.getLast?_cons_cons] at h), storeSegClaim_storeSegClaim]

theorem applySegClaims_of_none {src : Addr} {p : Ms} {items : List ClaimItem} {s : State} (hcomm : s.pa.comm = none) :
    applySegClaims src p items s = s := by
  unfold applySegClaims
  rw [hcomm]

theorem applySegClaims_of_other {src : Addr} {p : Ms} {items : List ClaimItem} {s : State} {c : PointsComm}
    (hcomm : s.pa.comm = some c) (h : ∀ i ∈ items, i.seg ≠ c.seg) : applySegClaims src p items s = s := by
  have hnone : items.filter (fun i => decide (i.seg = c.seg)) = [] :=
    List.filter_eq_nil_iff.mpr fun i hi => by simpa using h i hi
  unfold applySegClaims
  simp only [hcomm, hnone, List.foldl_nil]

theorem applySegClaims_of_named {src : Addr} {p : Ms} {items : List ClaimItem} {i : ClaimItem} {s : State} {c : PointsComm}
    (hcomm : s.pa.comm = some c) (h : (items.filter (fun i => decide (i.seg = c.seg))).getLast? = some i) :
    applySegClaims src p items s = storeSegClaim src p i.st s := by
  unfold applySegClaims
  simp only [hcomm]
  exact foldl_storeSegClaim h

/-! ## What the Points Arbiter makes of a change -/

theorem afterView_self (s : State) : afterView s s = s := (if_pos rfl).trans (if_pos rfl)

/-- A grant that is held is left as it is by serving. -/
theorem serve_grant_of_held {s : State} {g : Grant} (h : s.pa.grant = some g) : (serve s).pa.grant = some g := by
  rw [serve_of_not_served fun a rest _ => by simp [mayServe, h], h]

theorem followView_grant {s : State} {g : Grant} (h : s.pa.grant = some g) :
    (followView s).pa.grant = some { g with live := liveIn s g.holder } := by
  simp [followView, h]

theorem afterView_grant {s t : State} {g : Grant} (hne : viewShape s ≠ viewShape t) (h : t.pa.grant = some g) :
    (afterView s t).pa.grant = some { g with live := liveIn t g.holder } := by
  rw [afterView_pa_of_ne hne]
  exact serve_grant_of_held (followView_grant h)

/-- No ask of a station without a live entry outlasts a change of the view (R88). -/
theorem afterView_queue_ne {s t : State} {x : Addr} (hne : viewShape s ≠ viewShape t) (hdead : liveIn t x = false) :
    ∀ q ∈ (afterView s t).pa.queue, q.requester ≠ x := by
  rw [afterView_pa_of_ne hne]
  intro q hq
  have hkept := mem_of_mem_serve_queue hq
  simp only [followView, State.setPa_pa, List.mem_filter] at hkept
  rintro rfl
  simp [hdead] at hkept

/-- A grant of a station without a live entry shows HELD_STALE after a change of the view (R95). -/
theorem afterView_grant_stale {s t : State} {x : Addr} (hne : viewShape s ≠ viewShape t) (hdead : liveIn t x = false) :
    ∀ g, (afterView s t).pa.grant = some g → g.holder = x → g.live = false := by
  intro g hg hx
  cases hgrant : t.pa.grant with
  | some k =>
    rw [afterView_grant hne hgrant, Option.some.injEq] at hg
    subst hg
    exact (congrArg (liveIn t) hx).trans hdead
  | none =>
    rw [afterView_pa_of_ne hne] at hg
    refine absurd hx (serve_grant_ne ?_ ?_ g hg)
    · rwa [liveIn_congr (t := t) (by simp)]
    · intro k hk
      simp [followView, hgrant] at hk

/-! ## The commands -/

theorem exec_pointsNodeClaim_points {src : Addr} {cls : Nat} {p : Ms} {items : List ClaimItem} {s : State}
    (hkind : s.tli.kind = .points) (hfrom : fromOther src s = true) (hwf : claimWf cls p items = true) :
    exec (.pointsNodeClaim src cls p items) s =
      .next (afterView (quiet s) (applySegClaims src p items (quiet s))) := by
  show execPointsNodeClaim src cls p items s = _
  rw [execPointsNodeClaim, onKind_of_eq _ hkind, hear_of_fromOther _ hfrom hwf]

theorem exec_pointsNodeRelease_points {src : Addr} {segs : List Seg} {s : State} (hkind : s.tli.kind = .points)
    (hfrom : fromOther src s = true) (hwf : releaseWf segs = true) :
    exec (.pointsNodeRelease src segs) s = .next
      (if (quiet s).pa.comm.any (fun c => decide (c.seg ∈ segs)) then withdrawClaim src (quiet s) else quiet s) := by
  show execPointsNodeRelease src segs s = _
  rw [execPointsNodeRelease, onKind_of_eq _ hkind, hear_of_fromOther _ hfrom hwf]

theorem exec_segmentViewEntryStale_points {x : Addr} {s : State} (hkind : s.tli.kind = .points) :
    exec (.segmentViewEntryStale x) s = .next (afterView s (ageOutSeg x s)) := by
  show execSegmentViewEntryStale x s = _
  rw [execSegmentViewEntryStale, onKind_of_eq _ hkind]

/-- A RELEASE that withdraws the sender's claim takes its ask with it, whether the entry was live or stale, and whether it
went with the grant. -/
theorem withdrawClaim_ask_gone {x : Addr} {s : State}
    (h : (∃ k ∈ s.sv.entries, k.holder = x) ∨ ∃ g, s.pa.grant = some g ∧ g.holder = x) :
    ∀ q ∈ (withdrawClaim x s).pa.queue, q.requester ≠ x := by
  cases hgrant : holdsGrant x s with
  | true =>
    rw [withdrawClaim_of_grant hgrant, freeGrant_pa]
    intro q hq
    have hkept := mem_of_mem_serve_queue hq
    simp only [queuePoints_pa, State.setPa_pa, dropAsk, List.mem_filter] at hkept
    exact of_decide_eq_true hkept.2
  | false =>
    rw [withdrawClaim_of_no_grant hgrant]
    refine afterView_queue_ne ?_ (liveIn_dropSegClaim x s)
    have hin : ∃ k ∈ s.sv.entries, k.holder = x :=
      h.resolve_right fun hg => by simp [holdsGrant_iff.mpr hg] at hgrant
    obtain ⟨k, hk, hx⟩ := hin
    intro hsame
    have hshape : (k.holder, k.stale) ∈ viewShape (dropSegClaim x s) := hsame ▸ List.mem_map.mpr ⟨k, hk, rfl⟩
    obtain ⟨l, hl, hpair⟩ := List.mem_map.mp hshape
    have hne : l.holder ≠ x := of_decide_eq_true (List.mem_filter.mp hl).2
    exact hne ((congrArg Prod.fst hpair).trans hx)

/-! ## An entry at its stale limit -/

/-- The entry of a holder that bears no STALE mark. -/
def unmarked (x : Addr) (k : SegEntry) : Bool := decide (k.holder = x) && !k.stale

theorem ageOutSeg_sv (x : Addr) (s : State) : (ageOutSeg x s).sv.entries =
    (s.sv.entries.filter (fun k => !(unmarked x k && decide (k.st = .tentative)))).map
      (fun e => if unmarked x e then { e with stale := true, age := max e.age (4 * e.period) } else e) := rfl

theorem ageOutSeg_of_none {x : Addr} {s : State} (h : ∀ k ∈ s.sv.entries, unmarked x k = false) : ageOutSeg x s = s := by
  have hleft : s.sv.entries.filter (fun k => !(unmarked x k && decide (k.st = .tentative))) = s.sv.entries :=
    List.filter_eq_self.mpr fun k hk => by simp [h k hk]
  have hkeep : (ageOutSeg x s).sv.entries = s.sv.entries := by
    rw [ageOutSeg_sv, hleft]
    exact (List.map_congr_left fun k hk => if_neg (by simp [h k hk])).trans (List.map_id' _)
  show s.setSv { s.sv with entries := (ageOutSeg x s).sv.entries } = s
  rw [hkeep]
  rfl

theorem liveIn_ageOutSeg (x : Addr) (s : State) : liveIn (ageOutSeg x s) x = false := by
  rw [Bool.eq_false_iff, Ne, liveIn_iff, ageOutSeg_sv]
  rintro ⟨e, he, hx, hfresh⟩
  obtain ⟨k, -, rfl⟩ := List.mem_map.mp he
  by_cases hk : unmarked x k = true
  · simp [hk] at hfresh
  · simp only [hk] at hx hfresh
    exact hk (by simp [unmarked, show k.holder = x from hx, show k.stale = false from hfresh])

theorem viewShape_ne_ageOutSeg {x : Addr} {s : State} (h : ∃ k ∈ s.sv.entries, unmarked x k = true) :
    viewShape s ≠ viewShape (ageOutSeg x s) := by
  obtain ⟨k, hk, hnamed⟩ := h
  obtain ⟨hx, hfresh⟩ : k.holder = x ∧ k.stale = false := by simpa [unmarked] using hnamed
  intro hsame
  have hin : (k.holder, k.stale) ∈ viewShape (ageOutSeg x s) := hsame ▸ List.mem_map.mpr ⟨k, hk, rfl⟩
  obtain ⟨l, hl, hpair⟩ := List.mem_map.mp hin
  have hlive : liveIn (ageOutSeg x s) x = true :=
    liveIn_iff.mpr ⟨l, hl, (congrArg Prod.fst hpair).trans hx, (congrArg Prod.snd hpair).trans hfresh⟩
  rw [liveIn_ageOutSeg] at hlive
  cases hlive

/-! ## What a stored claim does to its holder's grant -/

theorem liveIn_storeSegClaim {x : Addr} {p : Ms} {st : ClaimState} {s : State}
    (h : (∃ k ∈ s.sv.entries, k.holder = x) ∨ s.sv.entries.length < 8) : liveIn (storeSegClaim x p st s) x = true := by
  rw [liveIn_iff]
  by_cases hin : ∃ k ∈ s.sv.entries, k.holder = x
  · obtain ⟨k, hk, hx⟩ := hin
    rw [storeSegClaim_known ⟨k, hk, hx⟩]
    exact ⟨_, List.mem_map.mpr ⟨k, hk, if_pos hx⟩, rfl, rfl⟩
  · rw [storeSegClaim_new (fun k hk hx => hin ⟨k, hk, hx⟩) (h.resolve_left hin)]
    exact ⟨_, List.mem_append_right _ (List.mem_singleton.mpr rfl), rfl, rfl⟩

/-- A claim newly stored, or freed of its STALE mark, is a change of the view. -/
theorem viewShape_ne_storeSegClaim {x : Addr} {p : Ms} {st : ClaimState} {s : State}
    (h : (∃ k ∈ s.sv.entries, k.holder = x ∧ k.stale = true) ∨
      ((∀ k ∈ s.sv.entries, k.holder ≠ x) ∧ s.sv.entries.length < 8)) :
    viewShape s ≠ viewShape (storeSegClaim x p st s) := by
  intro hsame
  rcases h with ⟨k, hk, hx, hstale⟩ | ⟨hnone, hroom⟩
  · have hin : (k.holder, k.stale) ∈ viewShape (storeSegClaim x p st s) := hsame ▸ List.mem_map.mpr ⟨k, hk, rfl⟩
    rw [storeSegClaim_known ⟨k, hk, hx⟩] at hin
    obtain ⟨l, hl, hpair⟩ := List.mem_map.mp hin
    obtain ⟨m, -, rfl⟩ := List.mem_map.mp hl
    by_cases hm : m.holder = x
    · have hfresh := congrArg Prod.snd hpair
      simp [hm, hstale] at hfresh
    · have hholder := congrArg Prod.fst hpair
      simp only [if_neg hm] at hholder
      exact hm (hholder.trans hx)
  · have hlength := congrArg List.length hsame
    rw [storeSegClaim_new hnone hroom] at hlength
    simp [viewShape] at hlength

/-- Settles O33: a CLAIM by the last of its entries for the segment, a RELEASE by the withdrawal of the sender's claim, a
stale limit by the marking of its holder's entry. -/
theorem segmentViewFollows : Obligations.SegmentViewFollows := by
  refine ⟨fun src s hkind hcomm hfrom => ⟨fun cls p items hwf => ?_, fun segs hwf => ?_⟩,
    fun src c s hkind hcomm hfrom => ⟨fun cls p items hwf => ⟨fun hother => ?otherClaim, fun i hlast => ?claim⟩,
      fun segs hwf => ⟨fun hother => ?otherRelease, fun hnamed => ?release⟩⟩,
    fun x s hkind => ⟨fun hnone => ?unstale, fun hsome => ?stale⟩⟩
  · rw [exec_pointsNodeClaim_points hkind hfrom hwf, applySegClaims_of_none (by simpa using hcomm), afterView_self]
  · rw [exec_pointsNodeRelease_points hkind hfrom hwf, if_neg (by simp [hcomm])]
  case otherClaim =>
    rw [exec_pointsNodeClaim_points hkind hfrom hwf, applySegClaims_of_other (by simpa using hcomm) hother, afterView_self]
  case otherRelease => rw [exec_pointsNodeRelease_points hkind hfrom hwf, if_neg (by simpa [hcomm] using hother)]
  case unstale => rw [exec_segmentViewEntryStale_points hkind, ageOutSeg_of_none hnone, afterView_self]
  case claim =>
    rw [exec_pointsNodeClaim_points hkind hfrom hwf, applySegClaims_of_named (c := c) (by simpa using hcomm) hlast]
    have hclamp : clampTo 200 1000 p = max 200 (min 1000 p) := by simp [clampTo, Nat.min_comm]
    refine ⟨_, rfl, ?_, ⟨fun hin => ?_, fun hout => ⟨fun hroom => ?_, fun hfull => ?_⟩⟩, fun g hgrant hx hchange => ?_⟩
    · simp [storeSegClaim_pa]
    · rw [afterView_sv, storeSegClaim_known (by simpa using hin), hclamp]
      simp
    · rw [afterView_sv, storeSegClaim_new (by simpa using hout) (by simpa using hroom), hclamp]
      simp
    · rw [afterView_sv, storeSegClaim_full (by simpa using hout) (by simpa using hfull)]
      simp
    · have hgrant' : (storeSegClaim src p i.st (quiet s)).pa.grant = some g := by simpa [storeSegClaim_pa] using hgrant
      have hlive : liveIn (storeSegClaim src p i.st (quiet s)) g.holder = true := by
        rw [hx]
        refine liveIn_storeSegClaim ?_
        simp only [quiet_sv_entries]
        exact hchange.imp (fun ⟨k, hk, hxk, _⟩ => ⟨k, hk, hxk⟩) And.right
      rw [afterView_grant (viewShape_ne_storeSegClaim (by simpa using hchange)) hgrant', hlive]
  case release =>
    rw [exec_pointsNodeRelease_points hkind hfrom hwf, if_pos (by simpa [hcomm] using hnamed)]
    refine ⟨_, rfl, ?_, withdrawClaim_grant_ne src _, fun h => withdrawClaim_ask_gone (by simpa using h)⟩
    rw [withdrawClaim_sv, dropSegClaim, State.setSv_sv, quiet_sv_entries]
  case stale =>
    rw [exec_segmentViewEntryStale_points hkind]
    have hne := viewShape_ne_ageOutSeg hsome
    have hdead := liveIn_ageOutSeg x s
    refine ⟨_, rfl, ?_, fun k hk hkept => ?_, afterView_queue_ne hne hdead, fun g hgrant hx => ?_,
      afterView_grant_stale hne hdead⟩
    · rw [afterView_sv, ageOutSeg_sv, List.map_map]
      refine List.map_congr_left fun k _ => ?_
      by_cases hk : unmarked x k = true
      · have hk' : (decide (k.holder = x) && !k.stale) = true := hk
        simp [hk, hk']
      · have hk' : (decide (k.holder = x) && !k.stale) = false := Bool.eq_false_iff.mpr hk
        simp [hk, hk']
    · rw [afterView_sv, ageOutSeg_sv]
      have hkept' : unmarked x k = false := hkept
      exact List.mem_map.mpr ⟨k, List.mem_filter.mpr ⟨hk, by simp [hkept']⟩, if_neg (by simp [hkept'])⟩
    · rw [afterView_grant hne (t := ageOutSeg x s) hgrant, hx, hdead]

end Sys2Proof.Machine
end

section
/-! QUERY (R194): the STATUS of either personality, and the two ends of the carriage as it shows them. -/

namespace Sys2Proof.Machine

open Sys2Proof

theorem exec_query_carriage {src c : Addr} {s : State} (hfront : atFront src .query s = true) (hcons : console s = some c)
    (hkind : s.tli.kind = .carriage) :
    exec (.query src) s = .next (offer .cs false .plain (.carriageStatus c (carriageStatus (taken s))) (taken s)) := by
  have hcons' : console (taken s) = some c := hcons
  show execQuery src s = _
  rw [execQuery, deliver_of_atFront _ hfront rfl]
  simp only [takeQuery, hcons', taken_tli_kind, hkind]

theorem exec_query_points {src c : Addr} {s : State} (hfront : atFront src .query s = true) (hcons : console s = some c)
    (hkind : s.tli.kind = .points) :
    exec (.query src) s = .next (offer .pa false .plain (.pointsStatus c (pointsStatus (taken s))) (taken s)) := by
  have hcons' : console (taken s) = some c := hcons
  show execQuery src s = _
  rw [execQuery, deliver_of_atFront _ hfront rfl]
  simp only [takeQuery, hcons', taken_tli_kind, hkind]

section
variable {s : State}

theorem started_of_waiting (h : ∀ a, s.os.active = some a → a.phase = .waiting) : started s = none := by
  cases ha : s.os.active with
  | none => simp [started, ha]
  | some a => simp [started, ha, h a ha]

theorem started_of_active {a : ActiveOrder} (ha : s.os.active = some a) (hphase : a.phase ≠ .waiting) :
    started s = some a := by
  simp [started, ha, hphase]

/-- On the end form the two ends are those of the records. -/
theorem endPos_of_no_route {e : End} {x : EndRec} (hroute : s.pu.route = none) (hend : endRec s e = some x) :
    endPos s e = (x.seg, x.off) := by
  simp only [endPos, hroute, hend]

theorem endPos_lead {a : ActiveOrder} {r : Route} (hroute : s.pu.route = some r) (ha : s.os.active = some a) :
    (match a.ord.lead with
      | .a => endPos s .a
      | .b => endPos s .b) = routeHead a r := by
  cases hlead : a.ord.lead <;> simp [endPos, hroute, ha, hlead]

theorem endPos_trail {a : ActiveOrder} {r : Route} (hroute : s.pu.route = some r) (ha : s.os.active = some a) :
    (match a.ord.lead with
      | .a => endPos s .b
      | .b => endPos s .a) = routeTail s a r := by
  cases hlead : a.ord.lead <;> simp [endPos, hroute, ha, hlead]

theorem onLeg_of_legAt {legs : List Leg} {k : Nat} {l : Leg} (c : Int) (hl : legAt legs k = some l) : onLeg legs k c =
    (l.seg, if l.dir = .up then min (c - legStart legs k).toNat l.len else l.len - min (c - legStart legs k).toNat l.len) := by
  simp only [onLeg, hl, segOffOf, holdWithin]
  cases l.dir <;> rfl

theorem rearOffset_eq (d : Dir) (o : Mm) (i : Int) :
    rearOffset d o i = (if d = .up then (o : Int) + i else (o : Int) - i).toNat := by
  cases d <;> rfl

end

/-- Settles O31: each field of the STATUS by what it is read from. -/
theorem queryAnswered : Obligations.QueryAnswered := by
  intro src c s hfront hcons
  refine ⟨fun hkind => ⟨_, exec_query_carriage hfront hcons hkind, rfl, rfl, rfl, ?_, ?_, rfl, fun hwait => ?waiting,
      fun a ha hphase => ?started, fun hunknown => ?unknown, fun hknown => ⟨fun x y hroute hx hy => ?ends, fun a r hroute ha => ?route⟩,
      fun hroute => ?_, fun r hroute => ?_, rfl, fun hfirm => ?_, fun f hfirm => ?_, rfl, rfl, rfl, rfl, rfl, rfl, rfl, rfl, rfl, ?_⟩,
    fun hkind => ⟨_, exec_query_points hfront hcons hkind, ?_, rfl, by simp [pointsStatus, listeningIn]; rfl, rfl, rfl, rfl, rfl, rfl, rfl,
      rfl, rfl, rfl, rfl, rfl, rfl⟩⟩
  case waiting =>
    have hnone : started (taken s) = none := started_of_waiting hwait
    simp [carriageStatus, hnone]
  case started =>
    have hrun : started (taken s) = some a := started_of_active ha hphase
    simp [carriageStatus, hrun]
  case unknown =>
    have hunknown' : (taken s).pu.known = false := hunknown
    simp [carriageStatus, hunknown']
  case ends =>
    have hknown' : (taken s).pu.known = true := hknown
    have hroute' : (taken s).pu.route = none := hroute
    have hx' : endRec (taken s) .a = some x := hx
    have hy' : endRec (taken s) .b = some y := hy
    simp [carriageStatus, hknown', endPos_of_no_route hroute' hx', endPos_of_no_route hroute' hy']
  case route =>
    have hroute' : (taken s).pu.route = some r := hroute
    have ha' : (taken s).os.active = some a := ha
    have hknown' : (taken s).pu.known = true := hknown
    have hA : (carriageStatus (taken s)).endA = endPos (taken s) .a := by simp [carriageStatus, hknown']
    have hB : (carriageStatus (taken s)).endB = endPos (taken s) .b := by simp [carriageStatus, hknown']
    have hcoord : (carriageStatus (taken s)).tailCoord = tailCoord (taken s) r := by simp [carriageStatus, hroute']
    intro head tail on
    have hhead : head = routeHead a r := by
      rw [← endPos_lead hroute' ha', ← hA, ← hB] <;> rfl
    have htail : tail = routeTail (taken s) a r := by
      rw [← endPos_trail hroute' ha', ← hA, ← hB] <;> rfl
    refine ⟨fun l hl => ?_, fun k l hk hl => ?_, fun q hk hq => ?_⟩
    · rw [hhead, routeHead, onLeg_of_legAt _ hl]
    · rw [htail, routeTail, hk, hcoord]
      exact onLeg_of_legAt _ hl
    · rw [htail, routeTail, hk, hq, hcoord]
      simp only [rearOffset_eq]
  · cases ha : s.os.active <;> simp [carriageStatus, ha]
  · cases hp : s.os.pending <;> simp [carriageStatus, hp]
  · have hroute' : (taken s).pu.route = none := hroute
    simp [carriageStatus, hroute']
  · have hroute' : (taken s).pu.route = some r := hroute
    simp only [carriageStatus, hroute']
    exact ⟨trivial, rfl⟩
  · have hfirm' : (taken s).ce.firmEnd = none := hfirm
    simp [carriageStatus, authorityEnd, hfirm']
  · have hfirm' : (taken s).ce.firmEnd = some f := hfirm
    simp only [carriageStatus, authorityEnd, hfirm']
    rfl
  · show (s.cr.leader.any Leader.stale = true) ↔ _
    simp [Option.any_eq_true]
  · show pointsSeg s = _
    cases hc : s.pa.comm <;> simp [pointsSeg, hc]

end Sys2Proof.Machine
end

section
/-! The claim table and the position table of the Occupancy View (R22, R23, R26, R34, R36). -/

namespace Sys2Proof.Machine

open Sys2Proof

/-! ## The claim table -/

theorem exec_claim_carriage {src : Addr} {cls : Nat} {p : Ms} {items : List ClaimItem} {s : State}
    (hkind : s.tli.kind = .carriage) (hfrom : fromOther src s = true) (hwf : claimWf cls p items = true) :
    exec (.claim src cls p items) s = .next (items.foldl (fun u i => examineItem src cls i u)
      ((quiet s).setOv (items.foldl (viewWith src cls p) (quiet s).ov))) := by
  have hne : src ≠ (quiet s).tli.addr := by simpa using ((fromOther_iff src s).mp hfrom).2
  show execClaim src cls p items s = _
  rw [execClaim, onKind_of_eq _ hkind, hear_of_fromOther _ hfrom hwf, toView_of_ne _ hne, applyClaim_eq]

theorem examineSpan_ov (src : Addr) (cls : Nat) (i : ClaimItem) (s : State) : (examineSpan src cls i s).ov = s.ov := by
  unfold examineSpan
  split
  · split
    · rfl
    · split
      · simp
      · split <;> simp
  · rfl

theorem examineHeld_ov (src : Addr) (cls : Nat) (i : ClaimItem) (s : State) : (examineHeld src cls i s).ov = s.ov := by
  have hobject (st : ClaimState) : (queueObject src i.seg st s).ov = s.ov := by
    unfold queueObject
    split <;> simp
  unfold examineHeld
  split
  · rfl
  · split
    · rfl
    · split
      · split <;> simp
      · split
        · exact hobject _
        · split
          · exact hobject _
          · rfl

theorem examineItem_ov (src : Addr) (cls : Nat) (i : ClaimItem) (s : State) : (examineItem src cls i s).ov = s.ov :=
  (examineHeld_ov src cls i _).trans (examineSpan_ov src cls i s)

theorem foldl_examineItem_ov (src : Addr) (cls : Nat) (items : List ClaimItem) (s : State) :
    (items.foldl (fun u i => examineItem src cls i u) s).ov = s.ov := by
  induction items generalizing s with
  | nil => rfl
  | cons i items ih => rw [List.foldl_cons, ih, examineItem_ov]

theorem ownOn_eq_none_iff {s : State} {g : Seg} : ownOn s g = none ↔ ∀ e ∈ s.ce.own, e.seg ≠ g := by
  simp [ownOn]

theorem examineItem_of_none {src : Addr} {cls : Nat} {i : ClaimItem} {s : State} (h : ownOn s i.seg = none) :
    examineItem src cls i s = s := by
  have hspan : examineSpan src cls i s = s := by
    unfold examineSpan
    rw [h]
    cases s.ce.span <;> rfl
  rw [examineItem, hspan, examineHeld, h]

theorem foldl_examineItem_of_none {src : Addr} {cls : Nat} {items : List ClaimItem} {s : State}
    (h : ∀ i ∈ items, ∀ e ∈ s.ce.own, e.seg ≠ i.seg) : items.foldl (fun u i => examineItem src cls i u) s = s := by
  induction items with
  | nil => rfl
  | cons i items ih =>
    rw [List.foldl_cons, examineItem_of_none (ownOn_eq_none_iff.mpr (h i List.mem_cons_self)),
      ih fun j hj => h j (List.mem_cons_of_mem _ hj)]

/-- The claim table without the entries that a test names, where of these there is one. -/
theorem filter_of_split {α : Type} {a : α} {before after : List α} (p : α → Bool) (ha : p a = false)
    (hothers : ∀ k ∈ before ++ after, p k = true) : (before ++ a :: after).filter p = before ++ after := by
  rw [List.filter_append, List.filter_cons, if_neg (by simp [ha]),
    List.filter_eq_self.mpr fun k hk => hothers k (List.mem_append_left _ hk),
    List.filter_eq_self.mpr fun k hk => hothers k (List.mem_append_right _ hk)]

/-- Settles O40: a CLAIM heard by the fold over its entries, and an entry at its limit by its claim state. -/
theorem claimStored : Obligations.ClaimStored := by
  refine ⟨fun src cls p items s hkind hfrom hwf => ⟨_, exec_claim_carriage hkind hfrom hwf, ?_, fun hnone => ?_⟩,
    fun src cls p i rest v => ⟨fun hin => ?_, fun hout => ⟨fun hroom => ?_, fun hfull => ?_⟩⟩,
    fun e before after s hkind hclaims hfresh hage hothers => ?_⟩
  · rw [foldl_examineItem_ov, State.setOv_ov]
  · rw [foldl_examineItem_of_none (s := (quiet s).setOv _) (by simpa using hnone), State.setOv_ov]
  · rw [List.foldl_cons, viewWith, if_pos hin]
  · have hnot : ¬ ∃ k ∈ v.claims, k.holder = src ∧ k.seg = i.seg := fun ⟨k, hk, h⟩ => hout k hk h
    rw [List.foldl_cons, viewWith, if_neg hnot, if_pos hroom]
  · have hnot : ¬ ∃ k ∈ v.claims, k.holder = src ∧ k.seg = i.seg := fun ⟨k, hk, h⟩ => hout k hk h
    rw [List.foldl_cons, viewWith, if_neg hnot, if_neg (not_lt.mpr hfull)]
  · have hexec : exec (.claimEntryStale e.holder e.seg) s = execClaimEntryStale e.holder e.seg s := rfl
    rw [hexec, execClaimEntryStale, onKind_of_eq _ hkind]
    have hother (k : ClaimEntry) (hk : k ∈ before ++ after) :
        (decide (k.holder = e.holder) && decide (k.seg = e.seg) && !k.stale) = false := by
      have hne := hothers k hk
      by_cases hh : k.holder = e.holder
      · have hseg : k.seg ≠ e.seg := fun h => hne ⟨hh, h⟩
        simp [hseg]
      · simp [hh]
    refine ⟨fun hst => ?_, fun hst => ?_⟩
    · have hleft : s.ov.claims.filter (fun k => !((decide (k.holder = e.holder) && decide (k.seg = e.seg) && !k.stale) &&
          decide (k.st = .tentative))) = before ++ after := by
        rw [hclaims]
        exact filter_of_split _ (by simp [hfresh, hst]) fun k hk => by simp [hother k hk]
      have hkeep : (before ++ after).map (fun k => if (decide (k.holder = e.holder) && decide (k.seg = e.seg) &&
          !k.stale) = true then { k with stale := true, age := max k.age (4 * k.period) } else k) = before ++ after :=
        (List.map_congr_left fun k hk => if_neg (by simp [hother k hk])).trans (List.map_id' _)
      have hless : (before ++ after).length < s.ov.claims.length := by simp [hclaims]
      simp only [keepClaims, hleft, State.setOv_ov, hkeep, decide_eq_true hless, Bool.true_and]
      rfl
    · have hleft : s.ov.claims.filter (fun k => !((decide (k.holder = e.holder) && decide (k.seg = e.seg) && !k.stale) &&
          decide (k.st = .tentative))) = s.ov.claims := by
        refine List.filter_eq_self.mpr fun k hk => ?_
        rw [hclaims, List.mem_append, List.mem_cons] at hk
        rcases hk with hk | rfl | hk
        · simp [hother k (List.mem_append_left _ hk)]
        · simp [hst]
        · simp [hother k (List.mem_append_right _ hk)]
      have hmark : s.ov.claims.map (fun k => if (decide (k.holder = e.holder) && decide (k.seg = e.seg) && !k.stale) = true
          then { k with stale := true, age := max k.age (4 * k.period) } else k) =
          before ++ { e with stale := true } :: after := by
        rw [hclaims, map_ite_of_split (fun k : ClaimEntry => (decide (k.holder = e.holder) && decide (k.seg = e.seg) && !k.stale) = true) _
          (by simp [hfresh]) (fun k hk => by simp [hother k hk]), ← hage, max_self]
      simp only [keepClaims, hleft, State.setOv_ov, hmark, lt_irrefl, decide_false, Bool.false_and, Bool.not_false,
        Bool.and_true]
      rfl

/-! ## The position table -/

section
variable {s : State}

theorem onRouteSeg_iff {g : Seg} : onRouteSeg s g = true ↔ ∃ a j l, s.os.active = some a ∧ a.phase ≠ .waiting ∧
    a.headLeg ≤ j ∧ legAt a.ord.legs j = some l ∧ l.seg = g := by
  unfold onRouteSeg
  cases ha : s.os.active with
  | none => simp [started, ha]
  | some a =>
    by_cases hphase : a.phase = .waiting
    · have hnone : started s = none := by simp [started, ha, Option.filter, hphase]
      simp [hnone, hphase]
    · have hrun : started s = some a := by simp [started, ha, hphase]
      simp only [hrun, List.any_eq_true, decide_eq_true_iff, Option.some.injEq]
      constructor
      · rintro ⟨l, hl, hg⟩
        obtain ⟨i, hi⟩ := List.mem_iff_getElem?.mp hl
        rw [List.getElem?_drop] at hi
        refine ⟨a, a.headLeg - 1 + i + 1, l, rfl, hphase, by omega, ?_, hg⟩
        simpa [legAt] using hi
      · rintro ⟨b, j, l, rfl, -, hj, hl, hg⟩
        have hpos : j ≠ 0 := fun h => by simp [legAt, h] at hl
        rw [legAt, if_neg hpos] at hl
        refine ⟨l, List.mem_iff_getElem?.mpr ⟨j - 1 - (a.headLeg - 1), ?_⟩, hg⟩
        rw [List.getElem?_drop, show a.headLeg - 1 + (j - 1 - (a.headLeg - 1)) = j - 1 from by omega, hl]

theorem onRoute_iff {e : PosEntry} : onRoute s e = true ↔ ∃ a j l, s.os.active = some a ∧ a.phase ≠ .waiting ∧
    a.headLeg ≤ j ∧ legAt a.ord.legs j = some l ∧ (l.seg = e.headSeg ∨ l.seg = e.tailSeg) := by
  rw [onRoute, Bool.or_eq_true, onRouteSeg_iff, onRouteSeg_iff]
  constructor
  · rintro (⟨a, j, l, h₁, h₂, h₃, h₄, h₅⟩ | ⟨a, j, l, h₁, h₂, h₃, h₄, h₅⟩)
    · exact ⟨a, j, l, h₁, h₂, h₃, h₄, .inl h₅⟩
    · exact ⟨a, j, l, h₁, h₂, h₃, h₄, .inr h₅⟩
  · rintro ⟨a, j, l, h₁, h₂, h₃, h₄, h₅ | h₅⟩
    · exact .inl ⟨a, j, l, h₁, h₂, h₃, h₄, h₅⟩
    · exact .inr ⟨a, j, l, h₁, h₂, h₃, h₄, h₅⟩

/-- The place of an entry in R36's order of eviction: by the route, the mark, the age, and then the address. -/
def evictRank (s : State) (e : PosEntry) : ℕ ×ₗ ℕ ×ₗ ℕ ×ₗ ℕ :=
  toLex (if onRoute s e then 0 else 1, toLex (if e.stale then 1 else 0, toLex (e.age, e.carriage)))

theorem evictRank_le_iff {v k : PosEntry} : evictRank s k ≤ evictRank s v ↔
    (¬ onRoute s v = true ∧ onRoute s k = true) ∨ ((onRoute s v = true ↔ onRoute s k = true) ∧
      ((v.stale = true ∧ k.stale = false) ∨
        (v.stale = k.stale ∧ (k.age < v.age ∨ (k.age = v.age ∧ k.carriage ≤ v.carriage))))) := by
  simp only [evictRank, Prod.Lex.toLex_le_toLex]
  cases onRoute s v <;> cases onRoute s k <;> cases v.stale <;> cases k.stale <;> simp

theorem evictBefore_iff {e f : PosEntry} : evictBefore s e f = true ↔ evictRank s f < evictRank s e := by
  have hage : e.age ≠ f.age → (f.age < e.age ∨ f.age = e.age ∧ f.carriage < e.carriage ↔ f.age < e.age) :=
    fun h => or_iff_left fun heq => h heq.1.symm
  simp only [evictBefore, evictRank, Prod.Lex.toLex_lt_toLex]
  by_cases h : e.age = f.age
  · cases onRoute s e <;> cases onRoute s f <;> cases e.stale <;> cases f.stale <;> simp [h]
  · cases onRoute s e <;> cases onRoute s f <;> cases e.stale <;> cases f.stale <;> simp [h, hage h]

theorem evictPick_spec {l : List PosEntry} (hne : l ≠ []) :
    ∃ v, evictPick s l = some v ∧ v ∈ l ∧ ∀ k ∈ l, evictRank s k ≤ evictRank s v := by
  induction l with
  | nil => exact absurd rfl hne
  | cons e rest ih =>
    unfold evictPick
    cases rest with
    | nil => exact ⟨e, rfl, List.mem_cons_self, fun k hk => (List.mem_singleton.mp hk) ▸ le_rfl⟩
    | cons f rest =>
      obtain ⟨v, hv, hmem, hfirst⟩ := ih (List.cons_ne_nil f rest)
      rw [hv]
      dsimp only
      split
      · next h =>
        refine ⟨e, rfl, List.mem_cons_self, fun k hk => ?_⟩
        rcases List.mem_cons.mp hk with rfl | hk
        · exact le_rfl
        · exact (hfirst k hk).trans (evictBefore_iff.mp h).le
      · next h =>
        refine ⟨v, rfl, List.mem_cons_of_mem _ hmem, fun k hk => ?_⟩
        rcases List.mem_cons.mp hk with rfl | hk
        · exact not_lt.mp (mt evictBefore_iff.mpr h)
        · exact hfirst k hk

end

section
variable {src : Addr} {n : PositionNotice} {s : State}

theorem applyPosition_of_unknown (h : n.state.carriesPosition = false) : applyPosition src n s =
    s.setOv { s.ov with posTab := s.ov.posTab.filter (fun k => decide (k.carriage ≠ src)) } :=
  if_pos (by simp [h])

theorem applyPosition_of_known (hcarries : n.state.carriesPosition = true) (h : ∃ k ∈ s.ov.posTab, k.carriage = src) :
    applyPosition src n s = s.setOv { s.ov with
      posTab := s.ov.posTab.map (fun k => if k.carriage = src then posEntryOf src n else k) } :=
  (if_neg (by simp [hcarries])).trans (if_pos (by simpa using h))

theorem applyPosition_of_room (hcarries : n.state.carriesPosition = true) (h : ∀ k ∈ s.ov.posTab, k.carriage ≠ src)
    (hroom : s.ov.posTab.length < 16) : applyPosition src n s =
      s.setOv { s.ov with posTab := s.ov.posTab ++ [posEntryOf src n] } :=
  (if_neg (by simp [hcarries])).trans ((if_neg (by simpa using h)).trans (if_pos hroom))

theorem applyPosition_of_full {v : PosEntry} (hcarries : n.state.carriesPosition = true)
    (h : ∀ k ∈ s.ov.posTab, k.carriage ≠ src) (hfull : 16 ≤ s.ov.posTab.length)
    (hpick : evictPick s (s.ov.posTab.filter (fun k => decide (some k.carriage ≠ s.cr.leader.map Leader.addr))) = some v) :
    applyPosition src n s = if onRoute s v && !onRoute s (posEntryOf src n) then s
      else s.setOv { s.ov with
        posTab := s.ov.posTab.filter (fun k => decide (k.carriage ≠ v.carriage)) ++ [posEntryOf src n] } := by
  refine (if_neg (by simp [hcarries])).trans ((if_neg (by simpa using h)).trans ((if_neg (not_lt.mpr hfull)).trans ?_))
  simp only [hpick]

theorem carriesPosition_iff {st : CarState} : st.carriesPosition = true ↔ st ≠ .uncommissioned ∧ st ≠ .unlocated := by
  cases st <;> decide

end

/-- Settles O41: the notice by its state and the room in the table; with 16 entries by the first of R36's order. -/
theorem positionStored : Obligations.PositionStored := by
  intro src n s hkind hfrom hwf
  rw [exec_position_carriage hkind hfrom hwf]
  refine ⟨fun hstate => ?_, fun hnot hunlocated => ?_⟩
  · have hunknown : n.state.carriesPosition = false := by
      rw [Bool.eq_false_iff, Ne, carriesPosition_iff]
      exact fun h => hstate.elim h.1 h.2
    rw [applyPosition_of_unknown hunknown, quiet_ov_posTab]
  · have hcarries := carriesPosition_iff.mpr ⟨hnot, hunlocated⟩
    refine ⟨fun hin => ?_, fun hout => ⟨fun hroom => ?_, fun hfull hcand => ?_⟩⟩
    · rw [applyPosition_of_known hcarries (by simpa using hin), quiet_ov_posTab]
      rfl
    · rw [applyPosition_of_room hcarries (by simpa using hout) (by simpa using hroom), quiet_ov_posTab]
      rfl
    · have hcandidate (k : PosEntry) : k ∈ (quiet s).ov.posTab.filter
          (fun k => decide (some k.carriage ≠ (quiet s).cr.leader.map Leader.addr)) ↔
          k ∈ s.ov.posTab ∧ ∀ l, s.cr.leader = some l → l.addr ≠ k.carriage := by
        rw [List.mem_filter, quiet_ov_posTab, quiet_cr, decide_eq_true_iff]
        cases s.cr.leader <;> simp [eq_comm]
      have hroute (k : PosEntry) : onRoute (quiet s) k = true ↔ ∃ a j l, s.os.active = some a ∧ a.phase ≠ .waiting ∧
          a.headLeg ≤ j ∧ legAt a.ord.legs j = some l ∧ (l.seg = k.headSeg ∨ l.seg = k.tailSeg) := by
        rw [onRoute_iff, quiet_os]
      obtain ⟨k, hk⟩ := hcand
      obtain ⟨v, hpick, hv, hfirst⟩ := evictPick_spec (s := quiet s) (List.ne_nil_of_mem ((hcandidate k).mpr hk))
      have hexec := applyPosition_of_full (src := src) (n := n) (s := quiet s) hcarries (by simpa using hout)
        (by simpa using hfull) hpick
      refine ⟨v, (hcandidate v).mp hv, fun k hk => ?_, fun hon hoff => ?_, fun hon => ?_⟩
      · simpa only [hroute] using evictRank_le_iff.mp (hfirst k ((hcandidate k).mpr hk))
      · rw [hexec, if_pos]
        rw [Bool.and_eq_true, Bool.not_eq_true', Bool.eq_false_iff, Ne, hroute, hroute]
        exact ⟨hon, hoff⟩
      · rw [hexec, if_neg, quiet_ov_posTab]
        · rfl
        rw [Bool.and_eq_true, Bool.not_eq_true', Bool.eq_false_iff, Ne, hroute, hroute]
        exact fun h => hon.elim (fun hoff => hoff h.1) (fun he => h.2 he)

end Sys2Proof.Machine
end

section
/-! The ends of orders and of spans (R12, R57 to R60): the plain update each makes, its frames apart. -/

namespace Sys2Proof.Machine

open Sys2Proof

/-! ## The trigger and the overrun test -/

/-- The test of R42 touches the trigger alone. -/
theorem testTrigger_eq (s : State) : testTrigger s =
    s.setCe { s.ce with triggered := s.ce.triggered || acquisitionReady s } := by
  unfold testTrigger
  cases h : acquisitionReady s
  · rw [if_neg (by simp), Bool.or_false]
    rfl
  · rw [if_pos rfl, Bool.or_true]

theorem blank_testTrigger {s t : State} (h : blank s = blank t) : blank (testTrigger s) = blank (testTrigger t) := by
  rw [testTrigger_eq, testTrigger_eq]
  exact blank_congr (F := fun u => u.setCe { u.ce with triggered := u.ce.triggered || acquisitionReady u }) (fun _ => rfl) h

/-! ## The active order leaves -/

/-- The state without the span in flight, if there is one. -/
def spanless (s : State) : State :=
  match s.ce.span with
  | none => s
  | some sp => withoutSpan sp [] s

/-- The state once the active order has left, with a span in flight or without. -/
def leftOrder (s : State) : State := vacated (spanless s)

theorem blank_spanless {s t : State} (h : blank s = blank t) : blank (spanless s) = blank (spanless t) := by
  unfold spanless
  rw [span_of_blank h]
  split
  · exact h
  · exact blank_withoutSpan _ _ h

theorem blank_leftOrder {s t : State} (h : blank s = blank t) : blank (leftOrder s) = blank (leftOrder t) :=
  blank_vacated (blank_spanless h)

theorem blank_orderLeaves_plain (s : State) : blank (orderLeaves s) = blank (leftOrder s) := by
  unfold leftOrder spanless
  cases hspan : s.ce.span with
  | none => rw [orderLeaves_of_no_span hspan]
  | some sp => exact blank_orderLeaves hspan

/-- What a span taken away leaves as it was. -/
theorem spanless_parts (s : State) : (spanless s).cs = s.cs ∧ (spanless s).eu = s.eu ∧ (spanless s).pu = s.pu ∧
    (spanless s).ds = s.ds ∧ (spanless s).cr = s.cr ∧ (spanless s).ov = s.ov ∧ (spanless s).tli = s.tli ∧
    (spanless s).os.pending = s.os.pending ∧ (spanless s).os.memory = s.os.memory ∧ (spanless s).ce.span = none := by
  unfold spanless
  split
  · next h => exact ⟨rfl, rfl, rfl, rfl, rfl, rfl, rfl, rfl, rfl, h⟩
  · exact ⟨rfl, rfl, rfl, rfl, rfl, rfl, rfl, rfl, rfl, rfl⟩

theorem spanless_own (s : State) : (spanless s).ce.own = outsideSpan s := by
  unfold spanless
  split
  · next h => simp [outsideSpan, spanSegs, h]
  · exact withoutSpan_own _ s

/-- What the order leaves behind it. -/
theorem leftOrder_parts (s : State) : (leftOrder s).cs = s.cs ∧ (leftOrder s).ds = s.ds ∧
    (leftOrder s).eu = { s.eu with padStop := false, stopTarget := none } ∧ (leftOrder s).os.active = none ∧
    (leftOrder s).os.pending = s.os.pending ∧ (leftOrder s).os.stopMark = false ∧ (leftOrder s).ce.attempts = 0 ∧
    (leftOrder s).ce.span = none ∧ (leftOrder s).ce.backoff = none ∧ (leftOrder s).pu.route = none ∧
    (leftOrder s).pu.known = s.pu.known ∧ (leftOrder s).pu.standstill = s.pu.standstill ∧
    (leftOrder s).ce.own = (outsideSpan s).map (fun e => { e with leg := .none }) := by
  obtain ⟨hcs, heu, hpu, hds, -, -, -, hpending, -, hspan⟩ := spanless_parts s
  have hown : (spanless s).ce.own.map (fun e => { e with leg := .none }) =
      (outsideSpan s).map (fun e => { e with leg := .none }) := by rw [spanless_own]
  have hknown : (spanless s).pu.known = s.pu.known := congrArg PosUnit.known hpu
  have hstill : (spanless s).pu.standstill = s.pu.standstill := congrArg PosUnit.standstill hpu
  exact ⟨hcs, hds, congrArg (fun v : Envelope => { v with padStop := false, stopTarget := none }) heu, rfl, hpending, rfl, rfl,
    hspan, rfl, rfl, hknown, hstill,
    hown⟩

/-! ## An order ends (R13, R14, R16, R18) -/

/-- The state once an order has ended in READY, the claims ahead of the head released where the ending asks for it. -/
def endedReady (ahead : Bool) (s : State) : State :=
  let u := entered .ready (leftOrder s)
  if ahead then releasedOwn (aheadSegs u) u else u

theorem aheadSegs_of_blank {s t : State} (h : blank s = blank t) : aheadSegs s = aheadSegs t := by
  have hs : aheadSegs (blank s) = aheadSegs s := rfl
  have ht : aheadSegs (blank t) = aheadSegs t := rfl
  rw [← hs, h, ht]

/-- An order that ends in READY: its REPORT, the plain update, and then the promotion. -/
theorem endOrder_ready {out : ReportOutcome} {ahead : Bool} {s : State} {a : ActiveOrder} (ha : s.os.active = some a)
    (hstate : s.cs.state ≠ .ready) : ∃ w, endOrder out ahead false s = promote w ∧ blank w = blank (endedReady ahead s) ∧
      Steady (report .os .orderEnd out a.ord.id s) w := by
  have hleft : blank (orderLeaves (report .os .orderEnd out a.ord.id s)) = blank (leftOrder s) :=
    (blank_orderLeaves_plain _).trans (blank_leftOrder (blank_report ..))
  have hready : blank (enterState .ready (orderLeaves (report .os .orderEnd out a.ord.id s))) =
      blank (entered .ready (leftOrder s)) := by
    refine (blank_enterState ?_).trans (blank_entered hleft)
    rw [cs_of_blank hleft, (leftOrder_parts s).1]
    exact hstate.symm
  have hsteady : Steady (report .os .orderEnd out a.ord.id s)
      (enterState .ready (orderLeaves (report .os .orderEnd out a.ord.id s))) :=
    (orderLeaves_steady _).trans (enterState_steady _ _)
  cases ahead with
  | false =>
    refine ⟨enterState .ready (orderLeaves (report .os .orderEnd out a.ord.id s)), ?_, hready, hsteady⟩
    simp only [endOrder, ha, Bool.false_eq_true, if_false]
  | true =>
    refine ⟨releaseOwn (aheadSegs (enterState .ready (orderLeaves (report .os .orderEnd out a.ord.id s))))
      (enterState .ready (orderLeaves (report .os .orderEnd out a.ord.id s))), ?_, ?_,
      hsteady.trans (releaseOwn_steady _ _)⟩
    · simp only [endOrder, ha, Bool.false_eq_true, if_false, if_true]
    · rw [blank_releaseOwn_plain, aheadSegs_of_blank hready]
      exact blank_releasedOwn _ hready

theorem promote_of_none {s : State} (h : s.os.pending = none) : promote s = s := by
  unfold promote
  rw [h]

/-- What an ending in READY leaves. -/
theorem endedReady_parts (ahead : Bool) (s : State) :
    (endedReady ahead s).cs = { s.cs with state := .ready, stopCond := none } ∧ (endedReady ahead s).ds = s.ds ∧
    (endedReady ahead s).eu = { s.eu with demand := 0, brake := .service, exceed := 0, rest := false, padStop := false,
                                          stopTarget := none } ∧
    (endedReady ahead s).os.active = none ∧ (endedReady ahead s).os.pending = s.os.pending ∧
    (endedReady ahead s).os.stopMark = false ∧ (endedReady ahead s).ce.attempts = 0 ∧ (endedReady ahead s).ce.span = none ∧
    (endedReady ahead s).ce.backoff = none ∧ (endedReady ahead s).pu.route = none ∧
    (endedReady ahead s).pu.known = s.pu.known ∧ (endedReady ahead s).pu.standstill = s.pu.standstill := by
  obtain ⟨hcs, hds, heu, hactive, hpending, hmark, hattempts, hspan, hbackoff, hroute, hknown, hstill, -⟩ := leftOrder_parts s
  have hentered : (entered .ready (leftOrder s)).cs = { s.cs with state := .ready, stopCond := none } ∧
      (entered .ready (leftOrder s)).eu = { s.eu with demand := 0, brake := .service, exceed := 0, rest := false,
                                                      padStop := false, stopTarget := none } := by
    refine ⟨congrArg (fun c : Supervisor => { c with state := .ready, stopCond := none }) hcs, ?_⟩
    exact congrArg (fun v : Envelope => { v with demand := 0, brake := .service, exceed := 0, rest := false,
                                                 stopTarget := none }) heu
  unfold endedReady
  dsimp only
  split
  · obtain ⟨f, hf⟩ := releasedOwn_eq (aheadSegs (entered .ready (leftOrder s))) (entered .ready (leftOrder s))
    rw [hf]
    exact ⟨hentered.1, hds, hentered.2, hactive, hpending, hmark, hattempts, hspan, hbackoff, hroute, hknown, hstill⟩
  · exact ⟨hentered.1, hds, hentered.2, hactive, hpending, hmark, hattempts, hspan, hbackoff, hroute, hknown, hstill⟩

/-- An order in ENDING ends at the rest event, FAILED ROUTE_BLOCKED (R18). -/
theorem restEvent_ending {s : State} {a : ActiveOrder} (ha : s.os.active = some a) (hphase : a.phase = .ending)
    (hmoving : movingState s.cs.state = true) :
    restEvent s = endOrder (.failed .routeBlocked) true false (s.setEu { s.eu with rest := true }) := by
  unfold restEvent
  dsimp only
  rw [State.setEu_os, ha]
  dsimp only
  rw [hphase, State.setEu_cs]
  cases hstate : s.cs.state <;> simp_all [movingState]

/-! ## Counted aborts (R58 to R60) -/

/-- The attempt counter and the span limit after a counted abort (R58, R59). -/
def attempted (reason : AbortReason) (pos : Nat) (s : State) : State :=
  s.setCe { s.ce with attempts := s.ce.attempts + 1,
                      spanLimit := if shrinks reason = true ∧ 2 ≤ pos then min s.ce.spanLimit (pos - 1)
                                   else s.ce.spanLimit }

theorem countAttempt_eq (reason : AbortReason) (pos : Nat) (s : State) : countAttempt reason pos s =
    if s.ce.attempts + 1 < 8 then (attempted reason pos s).setCe { (attempted reason pos s).ce with
      backoff := some ⟨0, 250 * (s.ce.attempts + 1) + 15 * s.tli.addr⟩ }
    else routeBlocked (attempted reason pos s) := by
  have hs1 : s.setCe { s.ce with attempts := s.ce.attempts + 1,
                                 spanLimit := if shrinks reason && decide (2 ≤ pos) then min s.ce.spanLimit (pos - 1)
                                              else s.ce.spanLimit } = attempted reason pos s := by
    simp [attempted]
  unfold countAttempt
  rw [hs1]
  rfl

theorem routeBlocked_of_moving {s : State} {a : ActiveOrder} (ha : s.os.active = some a)
    (h : s.eu.demand ≠ 0 ∨ s.pu.standstill = false ∨ movingState s.cs.state = false) :
    routeBlocked s = s.setOs { s.os with active := some { a with phase := .ending } } := by
  have hnot : atRest (s.setOs { s.os with active := some { a with phase := .ending } }) = false := by
    rcases h with h | h | h <;> simp [atRest, h]
  unfold routeBlocked
  rw [ha]
  dsimp only
  rw [if_neg (by simp [hnot])]

theorem routeBlocked_of_rest {s : State} {a : ActiveOrder} (ha : s.os.active = some a) (hdemand : s.eu.demand = 0)
    (hstill : s.pu.standstill = true) (hmoving : movingState s.cs.state = true) :
    routeBlocked s = endOrder (.failed .routeBlocked) true false
      ((s.setOs { s.os with active := some { a with phase := .ending } }).setEu { s.eu with rest := true }) := by
  have hrest : atRest (s.setOs { s.os with active := some { a with phase := .ending } }) = true := by
    simp [atRest, hdemand, hstill, hmoving]
  unfold routeBlocked
  rw [ha]
  dsimp only
  rw [if_pos hrest]
  exact restEvent_ending (s := s.setOs _) (a := { a with phase := .ending }) rfl rfl hmoving

/-! ## The span in flight aborts (R57) -/

/-- The state once the span in flight has aborted, with the record. -/
def aborted (reason : AbortReason) (seg : Seg) (rival : Addr) (sp : Span) (s : State) : State :=
  recordAbort reason seg rival sp.attempt (withoutSpan sp [] s)

/-- What an abort leaves as it was, and what it sets. -/
theorem aborted_parts (reason : AbortReason) (seg : Seg) (rival : Addr) (sp : Span) (s : State) :
    let u := aborted reason seg rival sp s
    u.cs = s.cs ∧ u.eu = s.eu ∧ u.pu = s.pu ∧ u.ds = s.ds ∧ u.cr = s.cr ∧ u.ov = s.ov ∧ u.tli = s.tli ∧
    u.os = { s.os with active := s.os.active.map (fun a => { a with nextClaim := sp.first }) } ∧
    u.ce = { s.ce with span := none, own := outsideSpan s, firmEnd := firmEndOf (s.setCe { s.ce with own := outsideSpan s }),
                       abort := some ⟨reason, seg, rival, sp.attempt, (s.os.active.map (fun a => a.ord.id)).getD 0⟩,
                       abortCount := satInc s.ce.abortCount } := by
  have hown : s.ce.own.filter (fun e => decide (e.seg ∉ spanSegs s ++ [])) = outsideSpan s := by simp [outsideSpan]
  refine ⟨rfl, rfl, rfl, rfl, rfl, rfl, rfl, rfl, ?_⟩
  unfold aborted recordAbort withoutSpan
  rw [hown]
  cases s.os.active <;> simp [withOwn]

section
variable {reason : AbortReason} {seg : Seg} {rival : Addr} {sp : Span} {s : State}

theorem spanAbort_eq (hspan : s.ce.span = some sp) : spanAbort reason seg rival s =
    testTrigger (overrunTest (if counts reason = true then countAttempt reason (spanPos seg s) (abortSpan reason seg rival s)
      else abortSpan reason seg rival s)) := by
  unfold spanAbort
  rw [if_neg (by simp [hspan])]

theorem spanAbort_of_none (hspan : s.ce.span = none) : spanAbort reason seg rival s = s := by
  unfold spanAbort
  rw [if_pos (by simp [hspan])]

/-- An abort raises no overrun where the firm end it leaves is not behind the head. -/
theorem overrunTest_of_aborted {u : State} (hwithin : headWithin (outsideSpan s) s)
    (hroute : u.pu.route = s.pu.route) (hfirm : u.ce.firmEnd = firmEndOf (s.setCe { s.ce with own := outsideSpan s })) :
    overrunTest u = u :=
  overrunTest_of_within u fun r f hr hf => hwithin r f (hroute ▸ hr) (hfirm ▸ hf)

/-- An abort that does not count (R57). -/
theorem blank_spanAbort_of_local (hspan : s.ce.span = some sp) (hwithin : headWithin (outsideSpan s) s)
    (hcounts : counts reason = false) :
    blank (spanAbort reason seg rival s) = blank (testTrigger (aborted reason seg rival sp s)) := by
  have h : blank (abortSpan reason seg rival s) = blank (aborted reason seg rival sp s) := blank_abortSpan hspan
  obtain ⟨-, -, hpu, -, -, -, -, -, hce⟩ := aborted_parts reason seg rival sp s
  rw [spanAbort_eq hspan, hcounts, if_neg Bool.false_ne_true, overrunTest_of_aborted hwithin]
  · exact blank_testTrigger h
  · rw [pu_of_blank h, hpu]
  · rw [ce_of_blank h, hce]

/-- A counted abort that starts a backoff (R58, R59). -/
def backedOff (reason : AbortReason) (pos : Nat) (s : State) : State :=
  (attempted reason pos s).setCe { (attempted reason pos s).ce with
    backoff := some ⟨0, 250 * (s.ce.attempts + 1) + 15 * s.tli.addr⟩ }

theorem blank_spanAbort_of_counted (hspan : s.ce.span = some sp) (hwithin : headWithin (outsideSpan s) s)
    (hcounts : counts reason = true) (hfew : s.ce.attempts + 1 < 8) :
    blank (spanAbort reason seg rival s) =
      blank (testTrigger (backedOff reason (spanPos seg s) (aborted reason seg rival sp s))) := by
  have h : blank (abortSpan reason seg rival s) = blank (aborted reason seg rival sp s) := blank_abortSpan hspan
  obtain ⟨-, -, hpu, -, -, -, -, -, hce⟩ := aborted_parts reason seg rival sp s
  have hroute : (aborted reason seg rival sp s).pu.route = s.pu.route := congrArg PosUnit.route hpu
  have hfirm : (aborted reason seg rival sp s).ce.firmEnd = firmEndOf (s.setCe { s.ce with own := outsideSpan s }) :=
    congrArg ClaimEngine.firmEnd hce
  have hattempts : (abortSpan reason seg rival s).ce.attempts = s.ce.attempts := by rw [ce_of_blank h, hce]
  have hcount : countAttempt reason (spanPos seg s) (abortSpan reason seg rival s) =
      backedOff reason (spanPos seg s) (abortSpan reason seg rival s) := by
    rw [countAttempt_eq, if_pos (by rw [hattempts]; exact hfew)]
    rfl
  have hback : blank (backedOff reason (spanPos seg s) (abortSpan reason seg rival s)) =
      blank (backedOff reason (spanPos seg s) (aborted reason seg rival sp s)) :=
    blank_congr (F := backedOff reason (spanPos seg s)) (fun _ => rfl) h
  rw [spanAbort_eq hspan, if_pos hcounts, hcount, overrunTest_of_aborted hwithin]
  · exact blank_testTrigger hback
  · rw [pu_of_blank hback]
    exact hroute
  · rw [ce_of_blank hback]
    exact hfirm

/-- The eighth counted abort, the carriage not at rest: the order enters ENDING (R60). -/
theorem blank_spanAbort_of_blocked {a : ActiveOrder} (hspan : s.ce.span = some sp) (hwithin : headWithin (outsideSpan s) s)
    (hcounts : counts reason = true) (hmany : 8 ≤ s.ce.attempts + 1) (ha : s.os.active = some a)
    (hmoving : s.eu.demand ≠ 0 ∨ s.pu.standstill = false ∨ movingState s.cs.state = false) :
    blank (spanAbort reason seg rival s) = blank (testTrigger ((attempted reason (spanPos seg s)
      (aborted reason seg rival sp s)).setOs
        { s.os with active := some { a with phase := .ending, nextClaim := sp.first } })) := by
  have h : blank (abortSpan reason seg rival s) = blank (aborted reason seg rival sp s) := blank_abortSpan hspan
  obtain ⟨hcs, heu, hpu, -, -, -, -, hos, hce⟩ := aborted_parts reason seg rival sp s
  have hroute : (aborted reason seg rival sp s).pu.route = s.pu.route := congrArg PosUnit.route hpu
  have hfirm : (aborted reason seg rival sp s).ce.firmEnd = firmEndOf (s.setCe { s.ce with own := outsideSpan s }) :=
    congrArg ClaimEngine.firmEnd hce
  set u := attempted reason (spanPos seg s) (abortSpan reason seg rival s) with hu
  have hattempts : (abortSpan reason seg rival s).ce.attempts = s.ce.attempts := by rw [ce_of_blank h, hce]
  have hactive : u.os.active = some { a with nextClaim := sp.first } := by
    show (abortSpan reason seg rival s).os.active = _
    rw [os_of_blank h, hos, ha]
    rfl
  have hstill : u.eu.demand ≠ 0 ∨ u.pu.standstill = false ∨ movingState u.cs.state = false := by
    have heu' : u.eu = s.eu := (eu_of_blank h).trans heu
    have hcs' : u.cs = s.cs := (cs_of_blank h).trans hcs
    have hpu' : u.pu.standstill = s.pu.standstill := by
      show (abortSpan reason seg rival s).pu.standstill = _
      rw [pu_of_blank h, hpu]
    rw [heu', hcs', hpu']
    exact hmoving
  have hcount : countAttempt reason (spanPos seg s) (abortSpan reason seg rival s) =
      u.setOs { u.os with active := some { a with phase := .ending, nextClaim := sp.first } } := by
    rw [countAttempt_eq, if_neg (by rw [hattempts]; exact not_lt.mpr hmany), ← hu, routeBlocked_of_moving hactive hstill]
  have hblank : blank (u.setOs { u.os with active := some { a with phase := .ending, nextClaim := sp.first } }) =
      blank ((attempted reason (spanPos seg s) (aborted reason seg rival sp s)).setOs
        { s.os with active := some { a with phase := .ending, nextClaim := sp.first } }) :=
    (blank_congr (F := fun v => (attempted reason (spanPos seg s) v).setOs
      { v.os with active := some { a with phase := .ending, nextClaim := sp.first } }) (fun _ => rfl) h).trans
      (by rw [hos])
  rw [spanAbort_eq hspan, if_pos hcounts, hcount, overrunTest_of_aborted hwithin]
  · exact blank_testTrigger hblank
  · rw [pu_of_blank hblank]
    exact hroute
  · rw [ce_of_blank hblank]
    exact hfirm

/-- The eighth counted abort at rest ends the order (R18, R60). -/
theorem spanAbort_of_rest {a : ActiveOrder} (hspan : s.ce.span = some sp) (hcounts : counts reason = true)
    (hmany : 8 ≤ s.ce.attempts + 1) (ha : s.os.active = some a) (hdemand : s.eu.demand = 0) (hstill : s.pu.standstill = true)
    (hmoving : movingState s.cs.state = true) (hpending : s.os.pending = none) :
    ∃ v w, v.os.active = some { a with phase := .ending, nextClaim := sp.first } ∧ v.cs = s.cs ∧ v.eu = { s.eu with rest := true } ∧
      spanAbort reason seg rival s = testTrigger (overrunTest w) ∧ blank w = blank (endedReady true v) ∧
      v.tli.clash = s.tli.clash ∧ console v = console s ∧
      Steady (report .os .orderEnd (.failed .routeBlocked) a.ord.id v) w := by
  have h : blank (abortSpan reason seg rival s) = blank (aborted reason seg rival sp s) := blank_abortSpan hspan
  obtain ⟨hcs, heu, hpu, -, -, -, htli, hos, hce⟩ := aborted_parts reason seg rival sp s
  set u := attempted reason (spanPos seg s) (abortSpan reason seg rival s) with hu
  have hattempts : (abortSpan reason seg rival s).ce.attempts = s.ce.attempts := by rw [ce_of_blank h, hce]
  have hos' : u.os = { s.os with active := some { a with nextClaim := sp.first } } := by
    refine (os_of_blank h).trans ?_
    rw [hos, ha]
    rfl
  have heu' : u.eu = s.eu := (eu_of_blank h).trans heu
  have hcs' : u.cs = s.cs := (cs_of_blank h).trans hcs
  have hpu' : u.pu.standstill = s.pu.standstill := by
    show (abortSpan reason seg rival s).pu.standstill = _
    rw [pu_of_blank h, hpu]
  have hpa : u.pa = s.pa := (pa_of_blank h).trans rfl
  have hkind : u.tli.kind = s.tli.kind := (kind_of_blank h).trans (congrArg Tli.kind htli)
  set v := (u.setOs { u.os with active := some { a with phase := .ending, nextClaim := sp.first } }).setEu
    { u.eu with rest := true } with hv
  have hactive : u.os.active = some { a with nextClaim := sp.first } := by rw [hos']
  have hcount : countAttempt reason (spanPos seg s) (abortSpan reason seg rival s) =
      endOrder (.failed .routeBlocked) true false v := by
    rw [countAttempt_eq, if_neg (by rw [hattempts]; exact not_lt.mpr hmany), ← hu,
      routeBlocked_of_rest hactive (by rw [heu']; exact hdemand) (by rw [hpu']; exact hstill) (by rw [hcs']; exact hmoving)]
  have hready : v.cs.state ≠ .ready := by
    have hstate : movingState v.cs.state = true := (congrArg (fun c => movingState c.state) hcs').trans hmoving
    intro h
    rw [h] at hstate
    cases hstate
  obtain ⟨w, hend, hblank, hsteady⟩ := endOrder_ready (out := .failed .routeBlocked) (ahead := true) (s := v) rfl hready
  have hnone : w.os.pending = none := by
    rw [os_of_blank hblank, (endedReady_parts true v).2.2.2.2.1]
    show u.os.pending = none
    rw [hos']
    exact hpending
  refine ⟨v, w, rfl, hcs', ?_, ?_, hblank, ?_, ?_, hsteady⟩
  · show { u.eu with rest := true } = _
    rw [heu']
  · rw [spanAbort_eq hspan, if_pos hcounts, hcount, hend, promote_of_none hnone]
  · exact (clash_of_blank h).trans (congrArg Tli.clash htli)
  · show console u = console s
    unfold console
    rw [hkind, hcs', hpa]

/-- The frames of an abort wait behind the end of its span. -/
theorem spanAbort_after_end (hspan : s.ce.span = some sp) : Steady (endSpan [] s) (spanAbort reason seg rival s) := by
  have habort : Steady (endSpan [] s) (abortSpan reason seg rival s) := by
    unfold abortSpan
    rw [hspan]
    exact .plain rfl rfl rfl rfl
  rw [spanAbort_eq hspan]
  refine (testTrigger_steady _).after ((overrunTest_steady _).after ?_)
  split
  · exact (countAttempt_steady _ _ _).after habort
  · exact habort

/-- An announced span that ends is released, and its acknowledged asks are freed (R57). -/
theorem endSpan_frames (hspan : s.ce.span = some sp) (hclash : s.tli.clash = false) :
    (sp.announced = true → ∀ g ∈ spanSegs s, ∃ ids, g ∈ ids ∧ .release ids ∈ waiting .ce (endSpan [] s).tli) ∧
    (∀ n ∈ sp.acked, .pointsFree n ∈ waiting .ce (endSpan [] s).tli) := by
  have hleaving : ∀ g ∈ spanSegs s, g ∈ (ownOf (spanSegs s ++ []) s).map OwnClaim.seg := by
    intro g hg
    have hown : g ∈ (s.ce.own.filter (inSpan sp)).map OwnClaim.seg := by
      rw [spanSegs, hspan] at hg
      exact hg
    obtain ⟨e, he, rfl⟩ := List.mem_map.mp hown
    exact (mem_map_seg_ownOf (List.mem_filter.mp he).1).mpr (List.mem_append_left _ hg)
  have hline (l : List Seg) : waiting .ce (endSpan [] s).tli = waiting .ce (releaseStep
      ((ownOf (spanSegs s ++ []) s).map OwnClaim.seg)
      ((if sp.announced then ownOf (spanSegs s ++ []) s
        else (ownOf (spanSegs s ++ []) s).filter (fun e => decide (e.seg ∉ spanSegs s))).map OwnClaim.seg)
      (((ownOf (spanSegs s ++ []) s).filter (fun e => decide (e.seg ∉ spanSegs s))).filterMap freeNode ++ sp.acked)
      (s.setTli (withdrawSpanFrames (spanSegs s) s.tli))).tli := by
    unfold endSpan
    rw [hspan]
    dsimp only
    rw [setNextClaim_eq]
    rfl
  have hclash' : (s.setTli (withdrawSpanFrames (spanSegs s) s.tli)).tli.clash = false :=
    (withdrawSpanFrames_steady (spanSegs s) s).clash.trans hclash
  rw [hline [], waiting_releaseStep _ _ _ _ hclash']
  refine ⟨fun hannounced g hg => ?_, fun n hn => ?_⟩
  · rw [if_pos hannounced]
    obtain ⟨ids, hids, hmem⟩ := mem_chunk4 (hleaving g hg)
    exact ⟨ids, hmem, List.mem_append_left _ (List.mem_append_right _ (List.mem_map_of_mem hids))⟩
  · exact List.mem_append_right _ (List.mem_map_of_mem (((nub_spec _).2 n).mpr (List.mem_append_right _ hn)))

end

end Sys2Proof.Machine
end

section
/-! Once no span is in flight, none of the carriage's operations opens one, and the record of the last abort stays (R57). -/

namespace Sys2Proof.Machine

open Sys2Proof

/-- With no span in flight before, there is none after, the abort record and its count stay, and a failed-points hold is not
set. -/
def SpanStays (s t : State) : Prop :=
  s.ce.span = none → t.ce.span = none ∧ t.ce.abort = s.ce.abort ∧ t.ce.abortCount = s.ce.abortCount ∧
    (s.ce.failedHold = none → t.ce.failedHold = none)

namespace SpanStays

theorem refl (s : State) : SpanStays s s := fun h => ⟨h, rfl, rfl, fun hn => hn⟩

theorem after {s t u : State} (k : SpanStays t u) (h : SpanStays s t) : SpanStays s u := fun hs => by
  obtain ⟨hspan, habort, hcount, hhold⟩ := h hs
  obtain ⟨hspan', habort', hcount', hhold'⟩ := k hspan
  exact ⟨hspan', habort'.trans habort, hcount'.trans hcount, fun hn => hhold' (hhold hn)⟩

theorem plain {s t : State} (hspan : t.ce.span = s.ce.span) (habort : t.ce.abort = s.ce.abort)
    (hcount : t.ce.abortCount = s.ce.abortCount) (hhold : s.ce.failedHold = none → t.ce.failedHold = none) : SpanStays s t :=
  fun h => ⟨hspan.trans h, habort, hcount, hhold⟩

theorem of_blank {s t : State} (h : blank t = blank s) : SpanStays s t :=
  plain (span_of_blank h) ((congrArg ClaimEngine.abort (ce_of_blank h)).trans rfl)
    ((congrArg ClaimEngine.abortCount (ce_of_blank h)).trans rfl) fun hn => (congrArg ClaimEngine.failedHold (ce_of_blank h)).trans hn

theorem ite {c : Prop} [Decidable c] {s t u : State} (ht : c → SpanStays s t) (hu : ¬ c → SpanStays s u) :
    SpanStays s (if c then t else u) := by
  split
  case isTrue h => exact ht h
  case isFalse h => exact hu h

end SpanStays

/-! ## The shared operations -/

theorem report_spanStays (b : Block) (u : Subject) (o : ReportOutcome) (n : Nat) (s : State) : SpanStays s (report b u o n s) :=
  .of_blank (blank_report ..)

theorem queueClaim_spanStays (g : TxTag) (c : Nat) (l : List OwnClaim) (s : State) : SpanStays s (queueClaim g c l s) :=
  .of_blank (blank_queueClaim ..)

theorem setOwn_spanStays (own : List OwnClaim) (s : State) : SpanStays s (setOwn own s) :=
  SpanStays.after (.of_blank (blank_setOwn own s)) (.plain rfl rfl rfl id)

theorem releaseOwn_spanStays (gone : List Seg) (s : State) : SpanStays s (releaseOwn gone s) := by
  obtain ⟨f, hf⟩ := blank_releaseOwn_eq gone s
  exact SpanStays.after (.of_blank hf) (.plain rfl rfl rfl id)

theorem endSpan_spanStays (more : List Seg) (s : State) : SpanStays s (endSpan more s) := fun h => by
  unfold endSpan
  rw [h]
  exact releaseOwn_spanStays more s h

theorem orderLeaves_spanStays (s : State) : SpanStays s (orderLeaves s) := fun h => by
  rw [orderLeaves_of_no_span h]
  exact ⟨h, rfl, rfl, fun _ => rfl⟩

theorem enterState_spanStays (st : CarState) (s : State) : SpanStays s (enterState st s) := by
  by_cases h : st = s.cs.state
  · rw [enterState_of_eq h]
    exact .refl s
  · exact SpanStays.after (.of_blank (blank_enterState h)) (.plain rfl rfl rfl id)

theorem makeStanding_spanStays (s : State) : SpanStays s (makeStanding s) := by
  obtain ⟨f, hf⟩ := blank_makeStanding_eq s
  exact SpanStays.after (.of_blank hf) (.plain rfl rfl rfl id)

theorem testTrigger_spanStays (s : State) : SpanStays s (testTrigger s) := by
  rw [testTrigger_eq]
  exact .plain rfl rfl rfl id

/-! ## Faults -/

theorem firstFault_spanStays (c : FaultCode) (g : Seg) (m : Mm) (s : State) : SpanStays s (firstFault c g m s) := by
  refine SpanStays.after (.of_blank (blank_firstFault c g m s)) fun h => ?_
  have hmarked : (faultMarked c g m s).ce.span = none := h
  have hgone : SpanStays s (faultGone (faultMarked c g m s)) := fun hs => by
    unfold faultGone
    rw [hmarked]
    obtain ⟨f, hf⟩ := releasedOwn_eq (faultAhead (faultMarked c g m s)) (faultMarked c g m s)
    rw [hf]
    exact ⟨hs, rfl, rfl, fun hn => hn⟩
  obtain ⟨hnone, habort, hcount, -⟩ := hgone h
  exact ⟨hnone, habort, hcount, fun _ => rfl⟩

theorem furtherFault_spanStays (c : FaultCode) (s : State) : SpanStays s (furtherFault c s) :=
  SpanStays.after (.ite (fun _ => .plain rfl rfl rfl id) (fun _ => .refl _))
    ((report_spanStays _ _ _ _ _).after (.plain rfl rfl rfl id))

theorem raiseFaultAt_spanStays (c : FaultCode) (g : Seg) (m : Mm) (s : State) : SpanStays s (raiseFaultAt c g m s) :=
  .ite (fun _ => furtherFault_spanStays c s) (fun _ => firstFault_spanStays c g m s)

theorem raiseFault_spanStays (c : FaultCode) (s : State) : SpanStays s (raiseFault c s) := raiseFaultAt_spanStays _ _ _ s

theorem overrunTest_spanStays (s : State) : SpanStays s (overrunTest s) := by
  unfold overrunTest
  split
  · exact .ite (fun _ => raiseFault_spanStays _ s) (fun _ => .refl s)
  · exact .refl s

/-! ## The life of an order -/

theorem padWatch_spanStays (s : State) : SpanStays s (padWatch s) := by
  unfold padWatch
  split
  · split
    · exact .ite (fun _ => raiseFault_spanStays _ s) (fun _ => .refl s)
    · exact .refl s
  · exact .refl s

theorem leaveUndocking_spanStays (s : State) : SpanStays s (leaveUndocking s) := by
  unfold leaveUndocking
  refine .ite (fun _ => (enterState_spanStays _ _).after (.plain rfl rfl rfl id))
    (fun _ => (testTrigger_spanStays _).after ?_)
  exact (enterState_spanStays _ _).after (.plain rfl rfl rfl id)

theorem startUndocking_spanStays (s : State) : SpanStays s (startUndocking s) := by
  unfold startUndocking
  refine SpanStays.after (.ite (fun _ => leaveUndocking_spanStays _) (fun _ => .refl _)) ((queueClaim_spanStays _ _ _ _).after ?_)
  refine SpanStays.after (.ite (fun _ => .refl _) (fun _ => setOwn_spanStays _ _)) ((enterState_spanStays _ _).after ?_)
  exact .plain rfl rfl rfl id

theorem beginOrder_spanStays (o : OrderRec) (s : State) : SpanStays s (beginOrder o s) := by
  unfold beginOrder
  split
  · refine (testTrigger_spanStays _).after ((overrunTest_spanStays _).after ((padWatch_spanStays _).after ?_))
    refine SpanStays.after (.ite (fun _ => startUndocking_spanStays _) (fun _ => enterState_spanStays _ _)) ?_
    refine SpanStays.after (.ite (fun _ => queueClaim_spanStays _ _ _ _) (fun _ => .refl _)) ?_
    exact (setOwn_spanStays _ _).after (.plain rfl rfl rfl fun _ => rfl)
  · exact .refl s

theorem startActive_spanStays (n : Nat) (s : State) : SpanStays s (startActive n s) := by
  induction n generalizing s with
  | zero => exact .refl s
  | succ n ih =>
    unfold startActive
    split
    · exact .refl s
    · refine .ite (fun _ => beginOrder_spanStays _ s) (fun _ => ?_)
      dsimp only
      split
      · exact SpanStays.after (.plain rfl rfl rfl id) (report_spanStays _ _ _ _ _)
      · exact (ih _).after (SpanStays.after (.plain rfl rfl rfl id) (report_spanStays _ _ _ _ _))

theorem promote_spanStays (s : State) : SpanStays s (promote s) := by
  unfold promote
  split
  · exact .refl s
  · exact SpanStays.after (.ite (fun _ => startActive_spanStays _ _) (fun _ => .refl _)) (.plain rfl rfl rfl id)

theorem endOrder_spanStays (o : ReportOutcome) (r p : Bool) (s : State) : SpanStays s (endOrder o r p s) := by
  unfold endOrder
  split
  · exact .refl s
  · refine (promote_spanStays _).after (SpanStays.after (.ite (fun _ => releaseOwn_spanStays _ _) (fun _ => .refl _)) ?_)
    refine SpanStays.after (.ite (fun _ => ?_) (fun _ => enterState_spanStays _ _))
      ((orderLeaves_spanStays _).after (report_spanStays _ _ _ _ _))
    exact (enterState_spanStays _ _).after (makeStanding_spanStays _)

theorem routeBlocked_spanStays (s : State) : SpanStays s (routeBlocked s) := by
  unfold routeBlocked
  split
  · exact .refl s
  · next a _ =>
    refine SpanStays.after (.ite (fun hrest => ?_) (fun _ => .refl _)) (.plain rfl rfl rfl id)
    have hmoving : movingState s.cs.state = true := (Bool.and_eq_true_iff.mp (Bool.and_eq_true_iff.mp hrest).1).1
    dsimp only
    rw [restEvent_ending (s := s.setOs { s.os with active := some { a with phase := .ending } }) rfl rfl hmoving]
    exact (endOrder_spanStays _ _ _ _).after (.plain rfl rfl rfl id)

theorem countAttempt_spanStays (r : AbortReason) (n : Nat) (s : State) : SpanStays s (countAttempt r n s) := by
  rw [countAttempt_eq]
  exact .ite (fun _ => .plain rfl rfl rfl id) (fun _ => (routeBlocked_spanStays _).after (.plain rfl rfl rfl id))

/-- Every abort ends the span, writes the record and raises the counter (R57). -/
theorem spanAbort_record {reason : AbortReason} {seg : Seg} {rival : Addr} {sp : Span} {s : State}
    (hspan : s.ce.span = some sp) : (spanAbort reason seg rival s).ce.span = none ∧
    (spanAbort reason seg rival s).ce.abort =
      some ⟨reason, seg, rival, sp.attempt, (s.os.active.map (fun a => a.ord.id)).getD 0⟩ ∧
    (spanAbort reason seg rival s).ce.abortCount = satInc s.ce.abortCount ∧
    (s.ce.failedHold = none → (spanAbort reason seg rival s).ce.failedHold = none) := by
  have h : blank (abortSpan reason seg rival s) = blank (aborted reason seg rival sp s) := blank_abortSpan hspan
  obtain ⟨-, -, -, -, -, -, -, -, hparts⟩ := aborted_parts reason seg rival sp s
  have hce := ce_of_blank h
  rw [hparts] at hce
  have hstays : SpanStays (abortSpan reason seg rival s) (spanAbort reason seg rival s) := by
    rw [spanAbort_eq hspan]
    refine (testTrigger_spanStays _).after ((overrunTest_spanStays _).after ?_)
    exact .ite (fun _ => countAttempt_spanStays _ _ _) (fun _ => .refl _)
  obtain ⟨hnone, habort, hcount, hhold⟩ := hstays (by rw [hce])
  rw [hce] at habort hcount hhold
  exact ⟨hnone, habort, hcount, hhold⟩

end Sys2Proof.Machine
end

section
/-! Aborts of a span (R57 to R60) as the statements have them: the two tables of reasons, a segment's place in its span, and
the fields after each kind of abort. -/

namespace Sys2Proof.Machine

open Sys2Proof

theorem spanPos_of_first {g : Seg} {s : State} {i : Nat} (hi : (spanSegs s)[i]? = some g) (hfirst : g ∉ (spanSegs s).take i) :
    spanPos g s = i + 1 := by
  have hfound : (spanSegs s).findIdx? (fun h => decide (h = g)) = some i := by
    obtain ⟨hlt, hget⟩ := List.getElem?_eq_some_iff.mp hi
    refine List.findIdx?_eq_some_iff_getElem.mpr ⟨hlt, by simp [hget], fun j hj => ?_⟩
    simp only [decide_eq_true_eq]
    exact fun heq => hfirst (List.mem_take_iff_getElem.mpr ⟨j, by omega, heq⟩)
  rw [spanPos, hfound]

theorem spanPos_of_not_mem {g : Seg} {s : State} (h : g ∉ spanSegs s) : spanPos g s = 0 := by
  have hnone : (spanSegs s).findIdx? (fun h => decide (h = g)) = none :=
    List.findIdx?_eq_none_iff.mpr fun x hx => decide_eq_false fun heq => h (heq ▸ hx)
  rw [spanPos, hnone]

section
variable {reason : AbortReason} {seg : Seg} {rival : Addr} {sp : Span} {s : State}

/-- The claim engine after an abort that does not count: the span gone, the record written, the trigger as its test has it. -/
theorem spanAbort_local_parts (hspan : s.ce.span = some sp) (hwithin : headWithin (outsideSpan s) s)
    (hcounts : counts reason = false) :
    let t := spanAbort reason seg rival s
    t.cs = s.cs ∧ t.eu = s.eu ∧ t.ds = s.ds ∧ t.cr = s.cr ∧ t.ov = s.ov ∧ s.pu = { t.pu with timer := s.pu.timer } ∧
    t.os = { s.os with active := s.os.active.map (fun a => { a with nextClaim := sp.first }) } ∧
    t.ce =
      { s.ce with span := none, own := outsideSpan s, firmEnd := firmEndOf (s.setCe { s.ce with own := outsideSpan s }),
                  abort := some ⟨reason, seg, rival, sp.attempt, (s.os.active.map (fun a => a.ord.id)).getD 0⟩,
                  abortCount := satInc s.ce.abortCount, refresh := t.ce.refresh, refreshOut := t.ce.refreshOut, triggered := t.ce.triggered } := by
  intro t
  have h := blank_spanAbort_of_local (seg := seg) (rival := rival) hspan hwithin hcounts
  obtain ⟨hcs, heu, hpu, hds, hcr, hov, -, hos, hce⟩ := aborted_parts reason seg rival sp s
  rw [testTrigger_eq] at h
  refine ⟨(cs_of_blank h).trans hcs, (eu_of_blank h).trans heu, (ds_of_blank h).trans hds, (cr_of_blank h).trans hcr,
    (ov_of_blank h).trans hov, ?_, (os_of_blank h).trans hos, ?_⟩
  · rw [pu_of_blank h]
    exact congrArg (fun p : PosUnit => { p with timer := s.pu.timer }) hpu.symm
  · have hce' := ce_of_blank h
    have htriggered : t.ce.triggered = _ := congrArg ClaimEngine.triggered hce'
    rw [htriggered, hce', State.setCe_ce, hce]

/-- The claim engine after an abort that counts and starts a backoff. -/
theorem spanAbort_counted_parts (hspan : s.ce.span = some sp) (hwithin : headWithin (outsideSpan s) s)
    (hcounts : counts reason = true) (hfew : s.ce.attempts + 1 < 8) :
    let t := spanAbort reason seg rival s
    t.cs = s.cs ∧ t.eu = s.eu ∧ t.ds = s.ds ∧ t.cr = s.cr ∧ t.ov = s.ov ∧ s.pu = { t.pu with timer := s.pu.timer } ∧
    t.os = { s.os with active := s.os.active.map (fun a => { a with nextClaim := sp.first }) } ∧
    t.ce =
      { s.ce with span := none, own := outsideSpan s, firmEnd := firmEndOf (s.setCe { s.ce with own := outsideSpan s }),
                  abort := some ⟨reason, seg, rival, sp.attempt, (s.os.active.map (fun a => a.ord.id)).getD 0⟩,
                  abortCount := satInc s.ce.abortCount, refresh := t.ce.refresh, refreshOut := t.ce.refreshOut, triggered := t.ce.triggered,
                  attempts := s.ce.attempts + 1, backoff := some ⟨0, 250 * (s.ce.attempts + 1) + 15 * s.tli.addr⟩,
                  spanLimit := if shrinks reason = true ∧ 2 ≤ spanPos seg s then min s.ce.spanLimit (spanPos seg s - 1)
                               else s.ce.spanLimit } := by
  intro t
  have h := blank_spanAbort_of_counted (seg := seg) (rival := rival) hspan hwithin hcounts hfew
  obtain ⟨hcs, heu, hpu, hds, hcr, hov, htli, hos, hce⟩ := aborted_parts reason seg rival sp s
  rw [testTrigger_eq] at h
  refine ⟨(cs_of_blank h).trans hcs, (eu_of_blank h).trans heu, (ds_of_blank h).trans hds, (cr_of_blank h).trans hcr,
    (ov_of_blank h).trans hov, ?_, (os_of_blank h).trans hos, ?_⟩
  · rw [pu_of_blank h]
    exact congrArg (fun p : PosUnit => { p with timer := s.pu.timer }) hpu.symm
  · have hce' := ce_of_blank h
    have htriggered : t.ce.triggered = _ := congrArg ClaimEngine.triggered hce'
    rw [htriggered, hce']
    simp only [backedOff, attempted, State.setCe_ce, hce, htli]

/-- The eighth abort, the carriage not at rest: the order is in ENDING, and no backoff starts. -/
theorem spanAbort_blocked_parts {a : ActiveOrder} (hspan : s.ce.span = some sp) (hwithin : headWithin (outsideSpan s) s)
    (hcounts : counts reason = true) (hmany : 8 ≤ s.ce.attempts + 1) (ha : s.os.active = some a)
    (hmoving : s.eu.demand ≠ 0 ∨ s.pu.standstill = false ∨ movingState s.cs.state = false) :
    let t := spanAbort reason seg rival s
    t.cs = s.cs ∧ t.eu = s.eu ∧ t.os.active = some { a with phase := .ending, nextClaim := sp.first } ∧
    t.ce.own = outsideSpan s ∧ t.ce.span = none ∧ t.ce.attempts = s.ce.attempts + 1 ∧ t.ce.backoff = s.ce.backoff ∧
    t.ce.abort = some ⟨reason, seg, rival, sp.attempt, (s.os.active.map (fun a => a.ord.id)).getD 0⟩ ∧
    t.ce.abortCount = satInc s.ce.abortCount := by
  intro t
  have h := blank_spanAbort_of_blocked (seg := seg) (rival := rival) hspan hwithin hcounts hmany ha hmoving
  obtain ⟨hcs, heu, -, -, -, -, -, -, hce⟩ := aborted_parts reason seg rival sp s
  rw [testTrigger_eq] at h
  have hce' := ce_of_blank h
  simp only [attempted, State.setCe_ce, State.setOs_ce, hce] at hce'
  exact ⟨(cs_of_blank h).trans hcs, (eu_of_blank h).trans heu, congrArg OrderStore.active (os_of_blank h),
    congrArg ClaimEngine.own hce', congrArg ClaimEngine.span hce', congrArg ClaimEngine.attempts hce',
    (congrArg ClaimEngine.backoff hce').trans rfl, congrArg ClaimEngine.abort hce', congrArg ClaimEngine.abortCount hce'⟩

theorem exec_pointsTimeout (hkind : s.tli.kind = .carriage) (hspan : s.ce.span = some sp) : exec .pointsTimeout s = .next
    (if sp.phase = .pointsWait then spanAbort .pointsTimeout (timeoutNames sp s).1 (timeoutNames sp s).2 s else s) := by
  show execPointsTimeout s = _
  rw [execPointsTimeout, onKind_of_eq _ hkind]
  simp only [hspan]

theorem timeoutNames_of_first {e : OwnClaim} {p : OwnPoints}
    (hfirst : (s.ce.own.filter (inSpan sp)).find? (fun o => o.points.any (fun q => decide (q.status ≠ .granted))) = some e)
    (hp : e.points = some p) : timeoutNames sp s = (e.seg, p.node) := by
  unfold timeoutNames
  rw [hfirst]
  simp only [hp]

/-- What the eighth abort leaves of a carriage at rest. -/
theorem spanAbort_rest_parts {a : ActiveOrder} (hspan : s.ce.span = some sp) (hcounts : counts reason = true)
    (hmany : 8 ≤ s.ce.attempts + 1) (ha : s.os.active = some a) (hdemand : s.eu.demand = 0) (hstill : s.pu.standstill = true)
    (hmoving : movingState s.cs.state = true) (hpending : s.os.pending = none) :
    let t := spanAbort reason seg rival s
    t.os.active = none ∧ t.cs.state = .ready ∧ t.ce.attempts = 0 ∧ t.eu.brake = .service ∧ t.ce.span = none ∧
    (s.tli.clash = false → ∀ c, console s = some c →
      queued (.report c { subject := .orderEnd, outcome := .failed .routeBlocked, oid := a.ord.id }) t) := by
  intro t
  obtain ⟨v, w, hactive, hcs, heu, ht, hblank, hclash, hconsole, hsteady⟩ :=
    spanAbort_of_rest (reason := reason) (seg := seg) (rival := rival) hspan hcounts hmany ha hdemand hstill hmoving hpending
  obtain ⟨hcs', -, heu', hactive', -, -, hattempts, hspan', -, hroute, -, -⟩ := endedReady_parts true v
  have hover : overrunTest w = w := overrunTest_of_within w fun r f hr _ => by
    rw [pu_of_blank hblank] at hr
    rw [show (endedReady true v).pu.route = some r from hr] at hroute
    cases hroute
  have ht' : t = testTrigger w := by rw [← hover]; exact ht
  rw [ht']
  refine ⟨?_, ?_, ?_, ?_, ?_, fun hfree c hc => ?_⟩
  · rw [testTrigger_os, os_of_blank hblank, hactive']
  · rw [testTrigger_cs, cs_of_blank hblank, hcs']
  · rw [testTrigger_eq]
    exact (congrArg ClaimEngine.attempts (ce_of_blank hblank)).trans hattempts
  · rw [testTrigger_eu, eu_of_blank hblank, heu']
  · rw [testTrigger_ce_span, span_of_blank hblank, hspan']
  · exact ((testTrigger_steady _).after hsteady).queued
      (mem_waiting_report (hclash.trans hfree) (hconsole.trans hc))

end

/-- Settles O48: an abort by whether its reason counts, and a counted one by the attempts before it and the carriage at rest or
not. -/
theorem spanAborts : Obligations.SpanAborts := by
  refine ⟨fun r => by cases r <;> decide, fun g s => ⟨fun i => spanPos_of_first, spanPos_of_not_mem⟩,
    fun reason seg rival sp s hspan => ⟨fun hwithin => ?abort, fun e p hkind hphase hfirst hp => ?timeout,
      fun hkind hphase => ?contest⟩⟩
  case timeout => rw [exec_pointsTimeout hkind hspan, if_pos hphase, timeoutNames_of_first hfirst hp]
  case contest => rw [exec_pointsTimeout hkind hspan, if_neg (by simp [hphase])]
  case abort =>
    intro t
    obtain ⟨hnone, habort, hcount, -⟩ := spanAbort_record (reason := reason) (seg := seg) (rival := rival) hspan
    have hafter : Steady (endSpan [] s) t := spanAbort_after_end hspan
    refine ⟨hnone, habort, hcount, fun hclash => ?frames, fun hfew => ?left, fun hlocal => ?uncounted, fun hc hfew => ?counted,
      fun a hc hmany ha => ⟨fun hmoving => ?blocked, fun hdemand hstill hmoving hpending => ?rest⟩⟩
    case frames =>
      obtain ⟨hreleased, hfreed⟩ := endSpan_frames hspan hclash
      refine ⟨fun hannounced g hg => ?_, fun n hn => hafter.queued (hfreed n hn)⟩
      obtain ⟨ids, hmem, hw⟩ := hreleased hannounced g hg
      exact ⟨ids, hmem, hafter.queued hw⟩
    case left =>
      cases hc : counts reason with
      | false =>
        obtain ⟨hcs, heu, -, -, -, -, hos, hce⟩ := spanAbort_local_parts (seg := seg) (rival := rival) hspan hwithin hc
        exact ⟨congrArg ClaimEngine.own hce, congrArg OrderStore.active hos, hcs, heu⟩
      | true =>
        obtain ⟨hcs, heu, -, -, -, -, hos, hce⟩ :=
          spanAbort_counted_parts (seg := seg) (rival := rival) hspan hwithin hc (hfew.resolve_left (by simp [hc]))
        exact ⟨congrArg ClaimEngine.own hce, congrArg OrderStore.active hos, hcs, heu⟩
    case uncounted =>
      obtain ⟨-, -, -, -, -, -, -, hce⟩ := spanAbort_local_parts (seg := seg) (rival := rival) hspan hwithin hlocal
      exact ⟨(congrArg ClaimEngine.attempts hce).trans rfl, (congrArg ClaimEngine.backoff hce).trans rfl,
        (congrArg ClaimEngine.spanLimit hce).trans rfl⟩
    case counted =>
      obtain ⟨-, -, -, -, -, -, -, hce⟩ := spanAbort_counted_parts (seg := seg) (rival := rival) hspan hwithin hc hfew
      exact ⟨congrArg ClaimEngine.attempts hce, congrArg ClaimEngine.backoff hce, congrArg ClaimEngine.spanLimit hce⟩
    case blocked =>
      obtain ⟨hcs, heu, hactive, hown, -, hattempts, hbackoff, -, -⟩ :=
        spanAbort_blocked_parts (seg := seg) (rival := rival) hspan hwithin hc hmany ha hmoving
      exact ⟨hactive, hown, hattempts, hbackoff, hcs, heu⟩
    case rest =>
      obtain ⟨hactive, hstate, hattempts, hbrake, -, hreport⟩ :=
        spanAbort_rest_parts (seg := seg) (rival := rival) hspan hc hmany ha hdemand hstill hmoving hpending
      exact ⟨hactive, hstate, hattempts, hbrake, hreport⟩

/-- The state in which a silence has been set, before the span in flight aborts. -/
def silenced (s : State) : State :=
  (s.setTli { s.tli with silence := Config.silenceMs, silent := true }).setOv { s.ov with listen := none }

theorem exec_lineSilence_carriage {s : State} (hsilent : s.tli.silent = false) (hkind : s.tli.kind = .carriage) :
    exec .lineSilence s = .next (spanAbort .lineSilent ((spanSegs s).headD 0) 0 (silenced s)) := by
  show execLineSilence s = _
  unfold execLineSilence
  rw [if_neg (by simp [hsilent])]
  dsimp only
  split
  · rfl
  · next h => cases hkind.symm.trans h

/-- Settles O19: by whether the silence is reported already, the kind of node, and a span in flight. -/
theorem silenceReported : Obligations.SilenceReported := by
  refine fun s => ⟨fun hsilent => ?_, fun hsilent => ⟨fun hkind => ⟨fun hspan => ?_, fun sp hspan => ?_⟩, fun hkind => ?_⟩⟩
  · exact congrArg Host.Outcome.next (if_pos hsilent)
  · rw [exec_lineSilence_carriage hsilent hkind]
    exact congrArg Host.Outcome.next (spanAbort_of_none hspan)
  · obtain ⟨hnone, habort, -⟩ := spanAbort_record (s := silenced s) (reason := .lineSilent) (seg := (spanSegs s).headD 0)
      (rival := 0) hspan
    refine ⟨_, exec_lineSilence_carriage hsilent hkind, hnone, by rw [spanAbort_ov]; rfl, ?_, by rw [habort]; rfl, fun hwithin => ?_⟩
    · exact (spanAbort_steady _ _ _ (silenced s)).silent
    · obtain ⟨hcs, -, -, -, -, -, -, hce⟩ :=
        spanAbort_local_parts (s := silenced s) (seg := (spanSegs s).headD 0) (rival := 0) hspan hwithin
          (reason := .lineSilent) rfl
      exact ⟨(congrArg ClaimEngine.attempts hce).trans rfl, (congrArg ClaimEngine.own hce).trans rfl, hcs⟩
  · show execLineSilence s = _
    unfold execLineSilence
    rw [if_neg (by simp [hsilent])]
    dsimp only
    split
    · next h => cases hkind.symm.trans h
    · rfl

end Sys2Proof.Machine
end

section
/-! Frames that are neither periodic nor a POSITION go on waiting while further frames are offered (R190). -/

namespace Sys2Proof.Machine

open Sys2Proof

/-- The entry of a frame offered that is not periodic. -/
def offered (b : Block) (tag : TxTag) (f : Frame) : TxEntry :=
  { frame := f, block := b, periodic := false, tag := tag, sending := false, cut := [], withdrawn := false }

/-- Every frame that waits, neither periodic nor a POSITION, waits on as it is. -/
def FramesStay (s t : State) : Prop :=
  ∀ k ∈ s.tli.txq ++ s.tli.kept, k.periodic = false → isPosition k = false → k ∈ t.tli.txq ++ t.tli.kept

namespace FramesStay

theorem refl (s : State) : FramesStay s s := fun _ hk _ _ => hk

theorem trans {s t u : State} (h : FramesStay s t) (h' : FramesStay t u) : FramesStay s u :=
  fun k hk hp hn => h' k (h k hk hp hn) hp hn

theorem after {s t u : State} (h' : FramesStay t u) (h : FramesStay s t) : FramesStay s u := h.trans h'

theorem of_eq {s t : State} (h : t.tli = s.tli) : FramesStay s t := fun k hk _ _ => h ▸ hk

theorem ite {c : Prop} [Decidable c] {s t u : State} (ht : c → FramesStay s t) (hu : ¬ c → FramesStay s u) :
    FramesStay s (if c then t else u) := by
  split
  case isTrue h => exact ht h
  case isFalse h => exact hu h

end FramesStay

theorem queued_of_mem {e : TxEntry} {s : State} (h : e ∈ s.tli.txq ++ s.tli.kept) : queued e.frame s :=
  List.mem_map_of_mem h

/-- A frame offered waits, unless it is periodic or an address clash is held. -/
theorem offer_mem {b : Block} {tag : TxTag} {f : Frame} {s : State} (hclash : s.tli.clash = false)
    (hf : isPosition (offered b tag f) = false) :
    offered b tag f ∈ (offer b false tag f s).tli.txq ++ (offer b false tag f s).tli.kept := by
  have hline : (offer b false tag f s).tli = offerPlain (offered b tag f) s.tli := by
    rw [offer, settleRefresh_tli]
    exact offerTli_of_nonperiodic hclash rfl hf
  have hkept (t : Tli) : offered b tag f ∈ (keepFrame (offered b tag f) t).txq ++ (keepFrame (offered b tag f) t).kept :=
    List.mem_append_right _ (List.mem_append_right _ List.mem_cons_self)
  have hjoined (l : List TxEntry) : offered b tag f ∈ (l ++ [offered b tag f]) ++ s.tli.kept :=
    List.mem_append_left _ (List.mem_append_right _ List.mem_cons_self)
  rw [hline]
  by_cases hbehind : ∃ k ∈ s.tli.kept, k.block = (offered b tag f).block
  · rw [offerPlain_behind rfl hbehind]
    exact hkept s.tli
  · by_cases hroom : s.tli.txq.length < 10
    · rw [offerPlain_room rfl hbehind hroom]
      exact hjoined _
    · rw [offerPlain_full rfl hbehind (by omega)]
      split
      · exact hjoined _
      · exact hkept s.tli

theorem offer_framesStay (b : Block) (tag : TxTag) (f : Frame) (s : State) (hf : isPosition (offered b tag f) = false) :
    FramesStay s (offer b false tag f s) := by
  intro k hk hp _
  rw [offer, settleRefresh_tli]
  by_cases hclash : s.tli.clash = true
  · rw [State.setTli_tli, offerTli_of_clash hclash]
    exact hk
  · exact mem_offerTli_of_nonperiodic (Bool.not_eq_true _ ▸ hclash) rfl hf hk hp

theorem report_framesStay (b : Block) (u : Subject) (o : ReportOutcome) (n : Nat) (s : State) : FramesStay s (report b u o n s) := by
  unfold report
  split
  · exact .refl s
  · exact offer_framesStay _ _ _ s rfl

theorem queueClaim_framesStay (g : TxTag) (c : Nat) (l : List OwnClaim) (s : State) : FramesStay s (queueClaim g c l s) :=
  .ite (fun _ => .refl s) (fun _ => offer_framesStay _ _ _ s rfl)

/-- A CLAIM queued waits. -/
theorem queueClaim_mem {g : TxTag} {c : Nat} {l : List OwnClaim} {s : State} (hclash : s.tli.clash = false) (hl : l ≠ []) :
    offered .ce g (.claim c (cfg s).refresh (l.map itemOf)) ∈ (queueClaim g c l s).tli.txq ++ (queueClaim g c l s).tli.kept := by
  unfold queueClaim
  rw [if_neg (by simpa using hl)]
  exact offer_mem hclash rfl

/-- A POSITION takes the place of its like, joins or is discarded. -/
theorem queuePosition_framesStay (s : State) : FramesStay s (queuePosition s) := by
  unfold queuePosition
  refine .ite (fun _ => .refl s) fun hclash => ?_
  intro k hk _ hn
  have hline : k ∈ (offer .pu true .plain (.position (positionNotice s)) s).tli.txq ++
      (offer .pu true .plain (.position (positionNotice s)) s).tli.kept := by
    rw [offer, settleRefresh_tli, State.setTli_tli]
    unfold offerTli
    rw [if_neg hclash]
    dsimp only
    split
    · rcases List.mem_append.mp hk with h | h
      · refine List.mem_append_left _ (List.mem_map.mpr ⟨k, h, ?_⟩)
        rw [hn, Bool.false_and, if_neg Bool.false_ne_true]
      · exact List.mem_append_right _ h
    · split
      · exact hk
      · rw [offerPlain_periodic rfl]
        split
        · rcases List.mem_append.mp hk with h | h
          · exact List.mem_append_left _ (List.mem_append_left _ h)
          · exact List.mem_append_right _ h
        · exact hk
  exact hline

theorem setOwn_framesStay (own : List OwnClaim) (s : State) : FramesStay s (setOwn own s) := by
  unfold setOwn
  exact .ite (fun _ => (queuePosition_framesStay _).after (.of_eq rfl)) (fun _ => .of_eq rfl)

theorem enterState_framesStay (st : CarState) (s : State) : FramesStay s (enterState st s) := by
  unfold enterState
  refine .ite (fun _ => .refl s) (fun _ => (queuePosition_framesStay _).after (.of_eq ?_))
  cases hm : movingState st <;> cases hd : driftState st <;> rfl

theorem testTrigger_framesStay (s : State) : FramesStay s (testTrigger s) := .of_eq (by rw [testTrigger_eq]; rfl)

end Sys2Proof.Machine
end

section
/-! A CLAIM's entries against the own claims: the OBJECT and FIRM_CLASH (R72, R73). -/

namespace Sys2Proof.Machine

open Sys2Proof

/-! ## The OBJECT -/

theorem blank_queueObject (y : Addr) (g : Seg) (st : ClaimState) (s : State) : blank (queueObject y g st s) = blank s := by
  unfold queueObject
  split
  · rfl
  · exact blank_offer ..

/-- The OBJECT waits, its like or itself. -/
theorem queued_queueObject {y : Addr} {g : Seg} {st : ClaimState} {s : State} (hclash : s.tli.clash = false) :
    queued (.object y g st) (queueObject y g st s) := by
  unfold queueObject
  split
  case isTrue h =>
    rcases Bool.or_eq_true_iff.mp h with h | h
    · obtain ⟨e, he, hframe⟩ := List.any_eq_true.mp h
      exact of_decide_eq_true hframe ▸ queued_of_mem (List.mem_append_left _ (List.mem_filter.mp he).1)
    · obtain ⟨e, he, hframe⟩ := List.any_eq_true.mp h
      exact of_decide_eq_true hframe ▸ queued_of_mem (List.mem_append_right _ he)
  case isFalse => exact queued_of_mem (offer_mem (tag := .plain) hclash rfl)

theorem outranks_asymm {c₁ c₂ : Nat} {a₁ a₂ : Addr} (h : outranks c₁ a₁ c₂ a₂ = true) : outranks c₂ a₂ c₁ a₁ = false := by
  unfold outranks at h ⊢
  simp only [Bool.or_eq_true, Bool.and_eq_true, decide_eq_true_eq, Bool.or_eq_false_iff, Bool.and_eq_false_iff,
    decide_eq_false_iff_not] at h ⊢
  rcases h with h | ⟨rfl, h⟩
  · exact ⟨Nat.lt_asymm h, .inl (Nat.ne_of_gt h)⟩
  · exact ⟨Nat.lt_irrefl _, .inr (Nat.lt_asymm h)⟩

/-! ## One entry examined -/

section
variable {src : Addr} {cls : Nat} {i : ClaimItem} {e : OwnClaim} {s : State}

theorem firmState_eq_true_iff (st : ClaimState) : firmState st = true ↔ st ≠ .tentative := by cases st <;> decide

theorem examineSpan_of_outside (he : ownOn s i.seg = some e) (hout : ∀ sp, s.ce.span = some sp → inSpan sp e = false) :
    examineSpan src cls i s = s := by
  unfold examineSpan
  rw [he]
  cases hspan : s.ce.span with
  | none => rfl
  | some sp => exact if_pos (by rw [hout sp hspan]; rfl)

theorem examineItem_of_compatible (he : ownOn s i.seg = some e) (hfits : compatible e.dir e.convoy i.dir i.convoy = true) :
    examineItem src cls i s = s := by
  have hspan : examineSpan src cls i s = s := by
    unfold examineSpan
    rw [he]
    cases s.ce.span with
    | none => rfl
    | some sp => exact if_pos (by rw [hfits, Bool.or_true])
  rw [examineItem, hspan, examineHeld, he]
  exact if_pos hfits

section
variable (he : ownOn s i.seg = some e) (hconflict : compatible e.dir e.convoy i.dir i.convoy = false)
include he hconflict

/-- Of a span's entry, a TENTATIVE one of no better rank is passed over. -/
theorem examineSpan_of_outranked {sp : Span} (hspan : s.ce.span = some sp) (hst : i.st = .tentative)
    (hrank : outranks cls src (ownClass s) s.tli.addr = false) : examineSpan src cls i s = s := by
  unfold examineSpan
  rw [hspan, he]
  dsimp only
  rw [hconflict, hst, hrank]
  cases inSpan sp e <;> rfl

theorem examineHeld_objects (hst : i.st = .tentative) (hheld : firmState e.st = true) :
    examineHeld src cls i s = queueObject src i.seg e.st s := by
  unfold examineHeld
  rw [he]
  dsimp only
  rw [hconflict, hst, hheld]
  rfl

theorem examineHeld_objects_tentative (hst : i.st = .tentative) (hheld : e.st = .tentative)
    (hrank : outranks (ownClass s) s.tli.addr cls src = true) : examineHeld src cls i s = queueObject src i.seg .tentative s := by
  unfold examineHeld
  rw [he]
  dsimp only
  rw [hconflict, hst, hheld, hrank]
  rfl

theorem examineItem_clashes (hout : s.ce.span = none) (hst : i.st ≠ .tentative) (hheld : firmState e.st = true) :
    examineItem src cls i s = raiseClash src i.seg s := by
  rw [examineItem, examineSpan_of_outside he (by simp [hout]), examineHeld, he]
  dsimp only
  rw [hconflict, (firmState_eq_true_iff _).mpr hst, hheld]
  rfl

end

/-! ## FIRM_CLASH -/

/-- With no span in flight a first fault releases the claims ahead, and its clash entries stay. -/
theorem firstFault_own_of_no_span {code : FaultCode} {g : Seg} {off : Mm} (hspan : s.ce.span = none) :
    (firstFault code g off s).ce.own =
      (s.ce.own.filter (fun o => decide (o.seg ∉ faultAhead s))).map (fun o => { o with leg := .none }) := by
  have h := own_of_blank (blank_firstFault code g off s)
  have hnone : (faultMarked code g off s).ce.span = none := hspan
  obtain ⟨f, hf⟩ := releasedOwn_eq (faultAhead (faultMarked code g off s)) (faultMarked code g off s)
  have hgone : (faultGone (faultMarked code g off s)).ce.own = s.ce.own.filter (fun o => decide (o.seg ∉ faultAhead s)) := by
    unfold faultGone
    rw [hnone]
    exact (congrArg (fun u => u.ce.own) hf).trans rfl
  rw [← hgone]
  exact h

/-- The pair enters the clash memory. -/
def clashNoted (rival : Addr) (g : Seg) (s : State) : State :=
  s.setCe { s.ce with clashMem := s.ce.clashMem ++ [(rival, g)] }

/-- The state in which the FIRM_CLASH stands raised, its CLAIM not yet queued. -/
def clashed (rival : Addr) (g : Seg) (s : State) : State := firstFault .firmClash g 0 (clashNoted rival g s)

theorem raiseClash_of_not_fault {rival : Addr} {g : Seg} (h : s.cs.state ≠ .fault) : raiseClash rival g s =
    queueClaim .plain (claimClass (clashed rival g s)) ((clashed rival g s).ce.own.filter (fun o => decide (o.seg = g)))
      (clashed rival g s) := by
  unfold raiseClash
  rw [if_neg fun hand => h hand.1]
  have hraise : raiseFaultAt .firmClash g 0 (clashNoted rival g s) = clashed rival g s := raiseFaultAt_of_not_fault h
  exact congrArg (fun u => queueClaim .plain (claimClass u) (u.ce.own.filter (fun o => decide (o.seg = g))) u) hraise

theorem ownOn_mem {g : Seg} (he : ownOn s g = some e) : e ∈ s.ce.own ∧ e.seg = g :=
  ⟨List.mem_of_find?_eq_some he, of_decide_eq_true (List.find?_some (p := fun o : OwnClaim => decide (o.seg = g)) he)⟩

/-- The entry of a FIRM_CLASH is kept. -/
theorem clashed_entry {rival : Addr} {g : Seg} (hspan : s.ce.span = none) (he : ownOn s g = some e) :
    ∃ o ∈ (clashed rival g s).ce.own, o.seg = g ∧ o.st = e.st := by
  obtain ⟨hmem, hseg⟩ := ownOn_mem he
  have hstays : e.seg ∉ faultAhead (clashNoted rival g s) := by
    intro h
    obtain ⟨-, hloose⟩ := List.mem_filter.mp h
    refine of_decide_eq_true hloose ?_
    rw [hseg]
    exact List.mem_map_of_mem (f := Prod.snd) (List.mem_append_right s.ce.clashMem (List.mem_singleton_self (rival, g)))
  rw [clashed, firstFault_own_of_no_span (s := clashNoted rival g s) hspan]
  exact ⟨_, List.mem_map_of_mem (List.mem_filter.mpr ⟨hmem, decide_eq_true hstays⟩), hseg, rfl⟩

theorem claimClass_of_none (h : s.os.active = none) : claimClass s = 3 := by
  unfold claimClass started
  rw [h]
  rfl

end

/-- Settles O44: an entry by what it meets, a FIRM_CLASH by whether FAULT stands. -/
theorem claimAnswered : Obligations.ClaimAnswered := by
  refine ⟨fun src cls period items s hkind hfrom hwf => exec_claim_carriage hkind hfrom hwf, fun src cls i s h => ?_,
    fun src cls i e s _ he hconflict => ⟨fun hst hheld hout => ?object, fun sp hst hspan hin hheld hrank => ?tentative,
      fun hst hheld hspan hstate => ?clash, fun hst hheld hspan hstate hmem => ?once⟩⟩
  · rcases h with h | ⟨e, he, hfits⟩
    · exact examineItem_of_none h
    · exact examineItem_of_compatible he hfits
  case object =>
    have ht : examineItem src cls i s = queueObject src i.seg e.st s := by
      rw [examineItem, examineSpan_of_outside he hout, examineHeld_objects he hconflict hst hheld]
    have hblank := blank_queueObject src i.seg e.st s
    rw [ht]
    exact ⟨own_of_blank hblank, span_of_blank hblank, congrArg Supervisor.state (cs_of_blank hblank), os_of_blank hblank,
      eu_of_blank hblank, queued_queueObject⟩
  case tentative =>
    have ht : examineItem src cls i s = queueObject src i.seg .tentative s := by
      rw [examineItem, examineSpan_of_outranked he hconflict hspan hst (outranks_asymm hrank),
        examineHeld_objects_tentative he hconflict hst hheld hrank]
    have hblank := blank_queueObject src i.seg .tentative s
    rw [ht]
    exact ⟨own_of_blank hblank, (span_of_blank hblank).trans hspan, congrArg Supervisor.state (cs_of_blank hblank),
      os_of_blank hblank, queued_queueObject⟩
  case clash =>
    have ht : examineItem src cls i s = _ := (examineItem_clashes he hconflict hspan hst hheld).trans (raiseClash_of_not_fault hstate)
    obtain ⟨hcs, heu, hactive, -, -, -, ⟨hclash, -⟩, -⟩ := firstFault_parts .firmClash i.seg 0 (clashNoted src i.seg s)
    have hblank := blank_queueClaim .plain (claimClass (clashed src i.seg s))
      ((clashed src i.seg s).ce.own.filter (fun o => decide (o.seg = i.seg))) (clashed src i.seg s)
    have hown := own_of_blank hblank
    obtain ⟨o, ho, hoseg, host⟩ := clashed_entry (rival := src) hspan he
    rw [ht, hown]
    have hcs' := (cs_of_blank hblank).trans hcs
    refine ⟨congrArg Supervisor.state hcs', congrArg Supervisor.fault hcs', ?_,
      (congrArg Envelope.brake ((eu_of_blank hblank).trans heu)).trans rfl, ⟨o, ho, hoseg, host⟩, fun hfree => ?_⟩
    · have hmem := (congrArg ClaimEngine.clashMem (ce_of_blank hblank)).trans hclash
      rw [hmem]
      exact List.mem_append_right _ (List.mem_singleton_self _)
    · have hcfg : cfg (clashed src i.seg s) = cfg s :=
        (congrArg (fun c : Supervisor => c.comm.getD _) hcs).trans rfl
      have hkeep : (clashed src i.seg s).ce.own.filter (fun o => decide (o.seg = i.seg)) ≠ [] :=
        List.ne_nil_of_mem (List.mem_filter.mpr ⟨ho, decide_eq_true hoseg⟩)
      have hclear : (clashed src i.seg s).tli.clash = false := (firstFault_steady _ _ _ _).clash.trans hfree
      have hclass : claimClass (clashed src i.seg s) = 3 := claimClass_of_none hactive
      have hmem := queueClaim_mem (g := .plain) (c := claimClass (clashed src i.seg s)) hclear hkeep
      rw [hclass, hcfg] at hmem
      rw [hclass]
      exact queued_of_mem hmem
  case once =>
    have ht : examineItem src cls i s = s :=
      (examineItem_clashes he hconflict hspan hst hheld).trans (if_pos ⟨hstate, hmem⟩)
    rw [ht]
    exact ⟨rfl, rfl⟩

end Sys2Proof.Machine
end

section
/-! A span in flight against CLAIM, OBJECT and the answers of its points node (R48, R49, R52). -/

namespace Sys2Proof.Machine

open Sys2Proof

/-! ## What an abort short of the eighth leaves -/

/-- The tail's place is a matter of the orders, the position and the commissioning. -/
theorem tailPos_congr {s t : State} (hos : t.os = s.os) (hpu : t.pu = s.pu) (hcomm : t.cs.comm = s.cs.comm) :
    tailPos t = tailPos s := by
  have hroute (a : ActiveOrder) (r : Route) : routeTail t a r = routeTail s a r := by
    simp only [routeTail, tailCoord, cfg, hcomm]
  have hend (e : End) : endPos t e = endPos s e := by
    simp only [endPos, endRec, hpu, hos, hroute]
  simp only [tailPos, noticeEnd, hpu, hend]

/-- The firm end is a matter of the orders, the position, the own claims and the commissioning. -/
theorem firmEndOf_congr {s t : State} (hos : t.os = s.os) (hpu : t.pu = s.pu) (hown : t.ce.own = s.ce.own)
    (hcomm : t.cs.comm = s.cs.comm) : firmEndOf t = firmEndOf s := by
  have hstarted : started t = started s := by rw [started, started, hos]
  have htail : tailPos t = tailPos s := tailPos_congr hos hpu hcomm
  unfold firmEndOf
  rw [hstarted, htail, hown, hpu]

theorem headWithin_congr {own : List OwnClaim} {s t : State} (h : headWithin own s) (hos : t.os = s.os) (hpu : t.pu = s.pu)
    (hcomm : t.cs.comm = s.cs.comm) : headWithin own t := by
  intro r f hr hf
  exact h r f (hpu ▸ hr) ((firmEndOf_congr (s := s.setCe { s.ce with own := own }) (t := t.setCe { t.ce with own := own })
    hos hpu rfl hcomm).symm.trans hf)

section
variable {reason : AbortReason} {seg : Seg} {rival : Addr} {sp : Span} {s : State}

/-- A counted abort short of the eighth: what the claim engine and the state show (R57, R58). -/
theorem spanAbort_few (hspan : s.ce.span = some sp) (hwithin : headWithin (outsideSpan s) s) (hcounts : counts reason = true)
    (hfew : s.ce.attempts + 1 < 8) :
    let t := spanAbort reason seg rival s
    t.ce.span = none ∧ t.ce.own = outsideSpan s ∧
    t.ce.abort.map (fun a => (a.reason, a.seg, a.rival)) = some (reason, seg, rival) ∧ t.ce.attempts = s.ce.attempts + 1 ∧
    t.ce.failedHold = s.ce.failedHold ∧ t.cs = s.cs := by
  intro t
  obtain ⟨hcs, -, -, -, -, -, -, hce⟩ := spanAbort_counted_parts (seg := seg) (rival := rival) hspan hwithin hcounts hfew
  exact ⟨congrArg ClaimEngine.span hce, congrArg ClaimEngine.own hce,
    (congrArg (fun c : ClaimEngine => c.abort.map (fun a => (a.reason, a.seg, a.rival))) hce).trans rfl,
    (congrArg ClaimEngine.attempts hce).trans rfl, (congrArg ClaimEngine.failedHold hce).trans rfl, hcs⟩

end

theorem mem_outsideSpan {s : State} {e : OwnClaim} : e ∈ outsideSpan s ↔ e ∈ s.ce.own ∧ e.seg ∉ spanSegs s := by
  rw [outsideSpan, List.mem_filter, decide_eq_true_eq]

theorem mem_spanSegs {s : State} {sp : Span} {e : OwnClaim} (hspan : s.ce.span = some sp) (he : e ∈ s.ce.own)
    (hin : inSpan sp e = true) : e.seg ∈ spanSegs s := by
  rw [spanSegs, hspan]
  exact List.mem_map_of_mem (List.mem_filter.mpr ⟨he, hin⟩)

/-! ## A conflicting entry on a segment of the span -/

section
variable {src : Addr} {cls : Nat} {i : ClaimItem} {sp : Span} {e : OwnClaim} {s : State} (hspan : s.ce.span = some sp)
  (he : ownOn s i.seg = some e) (hin : inSpan sp e = true)
include hspan he hin

/-- With the span's entries gone the segment is no own claim's, and no held claim is tested. -/
theorem examineHeld_of_aborted {t : State} (hown : t.ce.own = outsideSpan s) : examineHeld src cls i t = t := by
  obtain ⟨hmem, hseg⟩ := ownOn_mem he
  have hnone : ownOn t i.seg = none := by
    refine ownOn_eq_none_iff.mpr fun o ho hoseg => ?_
    rw [hown] at ho
    exact (mem_outsideSpan.mp ho).2 (hoseg ▸ hseg ▸ mem_spanSegs hspan hmem hin)
  rw [examineHeld, hnone]

theorem examineSpan_of_firm (hconflict : compatible e.dir e.convoy i.dir i.convoy = false) (hst : i.st ≠ .tentative) :
    examineSpan src cls i s = spanAbort .firmConflict i.seg src s := by
  unfold examineSpan
  rw [hspan, he]
  dsimp only
  rw [hin, hconflict, (firmState_eq_true_iff _).mpr hst]
  rfl

theorem examineSpan_of_outranking (hconflict : compatible e.dir e.convoy i.dir i.convoy = false) (hst : i.st = .tentative)
    (hrank : outranks cls src (ownClass s) s.tli.addr = true) :
    examineSpan src cls i s = spanAbort .outranked i.seg src s := by
  unfold examineSpan
  rw [hspan, he]
  dsimp only
  rw [hin, hconflict, hst, hrank]
  rfl

end

/-! ## OBJECT (R49, R74) -/

section
variable {src target : Addr} {g : Seg} {st : ClaimState} {s : State} (hkind : s.tli.kind = .carriage)
  (hfrom : fromOther src s = true) (htarget : addrOk target = true) (hseg : segOk g = true)
include hkind hfrom htarget hseg

/-- What an OBJECT from another station does. -/
theorem exec_object_carriage : exec (.object src target g st) s = .next (
    if target ≠ s.tli.addr then quiet s
    else match ownOn (quiet s) g with
      | none => quiet s
      | some e =>
        if !firmState e.st then spanAbort .objected g src (quiet s)
        else if firmState st then raiseClash src g (quiet s)
        else quiet s) := by
  have hvalid : (addrOk target && segOk g) = true := by rw [htarget, hseg]; rfl
  show execObject src target g st s = _
  rw [execObject, Bool.and_assoc, hear_of_fromOther _ hfrom hvalid, onKind_of_eq _ (by simpa using hkind), quiet_tli_addr] <;> rfl

end

end Sys2Proof.Machine
end

section
/-! A POINTS notice on a carriage node: the table entry, and what is presented of it (R31, R52, R53, R61). -/

namespace Sys2Proof.Machine

open Sys2Proof

/-! ## The notice stored -/

/-- The state in which a POINTS notice heard has been entered in the table. -/
def noticed (src : Addr) (n : PointsNotice) (s : State) : State := storePoints (pointsEntryOf src n) (quiet s)

/-- The points table alone is written. -/
theorem storePoints_eq (e : PointsEntry) (s : State) : ∃ v, storePoints e s = s.setOv { s.ov with pointsTab := v } := by
  unfold storePoints
  split
  · exact ⟨_, rfl⟩
  · split
    · exact ⟨_, rfl⟩
    · split
      · exact ⟨s.ov.pointsTab, rfl⟩
      · exact ⟨_, rfl⟩

theorem exec_points_carriage {src : Addr} {n : PointsNotice} {s : State} (hkind : s.tli.kind = .carriage)
    (hfrom : fromOther src s = true) (hwf : n.wf = true) :
    exec (.points src n) s = .next (presentPoints (prevAnswer src s) (pointsEntryOf src n) (noticed src n s)) := by
  have hne : src ≠ (quiet s).tli.addr := by simpa using ((fromOther_iff src s).mp hfrom).2
  have hprev : prevAnswer src (quiet s) = prevAnswer src s := by simp only [prevAnswer, quiet_ov_pointsTab]
  show execPoints src n s = _
  rw [execPoints, hear_of_fromOther _ hfrom hwf, onKind_of_eq _ (by simpa using hkind), toView_of_ne _ hne, takePoints, hprev,
    noticed]

section
variable (src : Addr) (n : PointsNotice) (s : State)

theorem noticed_eq : ∃ v, noticed src n s = (quiet s).setOv { (quiet s).ov with pointsTab := v } := storePoints_eq _ _

@[simp] theorem noticed_ce : (noticed src n s).ce = s.ce := by
  obtain ⟨v, h⟩ := noticed_eq src n s
  rw [h, State.setOv_ce, quiet_ce]

@[simp] theorem noticed_os : (noticed src n s).os = s.os := by
  obtain ⟨v, h⟩ := noticed_eq src n s
  rw [h, State.setOv_os, quiet_os]

@[simp] theorem noticed_pu : (noticed src n s).pu = s.pu := by
  obtain ⟨v, h⟩ := noticed_eq src n s
  rw [h, State.setOv_pu, quiet_pu]

@[simp] theorem noticed_tli_addr : (noticed src n s).tli.addr = s.tli.addr := by
  obtain ⟨v, h⟩ := noticed_eq src n s
  rw [h, State.setOv_tli, quiet_tli_addr]

@[simp] theorem noticed_tli_clash : (noticed src n s).tli.clash = s.tli.clash := by
  obtain ⟨v, h⟩ := noticed_eq src n s
  rw [h, State.setOv_tli, quiet_tli_clash]

@[simp] theorem noticed_cs_state : (noticed src n s).cs.state = s.cs.state := by
  obtain ⟨v, h⟩ := noticed_eq src n s
  rw [h, State.setOv_cs, quiet_cs_state]

@[simp] theorem noticed_cs_comm : (noticed src n s).cs.comm = s.cs.comm := by
  obtain ⟨v, h⟩ := noticed_eq src n s
  rw [h, State.setOv_cs, quiet_cs_comm]

end

/-! ## The parts of what is presented -/

/-- A hold that clears changes itself, and the trigger. -/
theorem clearFailedHold_eq (x : Addr) (s : State) : ∃ b, clearFailedHold x s = s.setCe
    { s.ce with failedHold := if s.ce.failedHold = some x then none else s.ce.failedHold, triggered := b } := by
  unfold clearFailedHold
  split
  · rw [testTrigger_eq]
    exact ⟨_, rfl⟩
  · exact ⟨s.ce.triggered, rfl⟩

theorem presentPoints_of_not_failed {prev : Addr × AnswerCode} {pe : PointsEntry} {s : State} (h : pe.state ≠ .failed) :
    presentPoints prev pe s = commitOnNotice pe.node (readGrants pe (answerForSpan prev pe (clearFailedHold pe.node s))) :=
  if_neg h

theorem namesNode_iff {x : Addr} {e : OwnClaim} : namesNode x e = true ↔ ∃ p, e.points = some p ∧ p.node = x := by
  unfold namesNode
  cases e.points <;> simp

theorem points_status_congr (e : OwnClaim) {f g : OwnPoints → PtStatus} (h : ∀ p, e.points = some p → f p = g p) :
    ({ e with points := e.points.map (fun p => { p with status := f p }) } : OwnClaim) =
      { e with points := e.points.map (fun p => { p with status := g p }) } := by
  cases hp : e.points with
  | none => rfl
  | some p => rw [Option.map_some, Option.map_some, h p hp]

/-- A change of status that changes nothing. -/
theorem points_status_self (e : OwnClaim) (f : OwnPoints → PtStatus) (h : ∀ p, e.points = some p → f p = p.status) :
    { e with points := e.points.map (fun p => { p with status := f p }) } = e := by
  cases hp : e.points with
  | none => rw [Option.map_none, ← hp]
  | some p => rw [Option.map_some, h p hp, ← hp]

/-- The status that a notice's entry gives an own points field (R53, R70). -/
def gradeOf (me : Addr) (pe : PointsEntry) (e : OwnClaim) (p : OwnPoints) : PtStatus :=
  if p.node ≠ pe.node then p.status
  else if grantedBy me pe e.seg p.pos = true then (if e.st = .tentative ∨ p.status = .freed then .granted else p.status)
  else if p.status = .granted then (if e.st = .tentative then .queued else .freed) else p.status

theorem readGrants_eq (pe : PointsEntry) (s : State) :
    readGrants pe s = s.setCe { s.ce with own := mapPoints (gradeOf s.tli.addr pe) s.ce.own } := by
  have hgrade : (fun (e : OwnClaim) (p : OwnPoints) =>
      if p.node ≠ pe.node then p.status
      else if firmState e.st then
        match p.status, grantedBy s.tli.addr pe e.seg p.pos with
        | .granted, false => PtStatus.freed
        | .freed, true => .granted
        | st, _ => st
      else askedStatus p.status (grantedBy s.tli.addr pe e.seg p.pos)) = gradeOf s.tli.addr pe := by
    funext e p
    unfold gradeOf
    by_cases hnode : p.node ≠ pe.node
    · rw [if_pos hnode, if_pos hnode]
    · rw [if_neg hnode, if_neg hnode]
      cases hst : e.st <;> cases hstatus : p.status <;> cases grantedBy s.tli.addr pe e.seg p.pos <;> rfl
  rw [← hgrade] <;> rfl

/-- Where no entry names the node no status changes. -/
theorem mapPoints_gradeOf_of_unnamed {me : Addr} {pe : PointsEntry} {own : List OwnClaim}
    (h : ∀ e ∈ own, namesNode pe.node e = false) : mapPoints (gradeOf me pe) own = own := by
  refine (List.map_congr_left fun e he => points_status_self e (gradeOf me pe e) fun p hp => if_pos fun hnode => ?_).trans
    (List.map_id _)
  exact Bool.false_ne_true ((h e he).symm.trans (namesNode_iff.mpr ⟨p, hp, hnode⟩))

theorem readGrants_of_unnamed {pe : PointsEntry} {s : State} (h : ∀ e ∈ s.ce.own, namesNode pe.node e = false) :
    readGrants pe s = s := by
  rw [readGrants_eq, mapPoints_gradeOf_of_unnamed h]
  rfl

theorem commitOnNotice_of_none {x : Addr} {s : State} (h : s.ce.span = none) : commitOnNotice x s = s := by
  unfold commitOnNotice
  rw [h]

/-- In a list the only entry with a property is the one found. -/
theorem find?_eq_of_only {α : Type} {p : α → Bool} {l : List α} {a : α} (ha : a ∈ l) (hp : p a = true)
    (honly : ∀ b ∈ l, p b = true → b = a) : l.find? p = some a := by
  obtain ⟨b, hb⟩ := Option.isSome_iff_exists.mp (List.find?_isSome.mpr ⟨a, ha, hp⟩)
  rw [hb, honly b (List.mem_of_find?_eq_some hb) (List.find?_some hb)]

theorem only_of_filter_singleton {α : Type} {p : α → Bool} {l : List α} {a : α} (h : l.filter p = [a]) :
    a ∈ l ∧ p a = true ∧ ∀ b ∈ l, p b = true → b = a := by
  obtain ⟨ha, hp⟩ := List.mem_filter.mp (h ▸ List.mem_singleton_self a)
  exact ⟨ha, hp, fun b hb hpb => List.mem_singleton.mp (h ▸ List.mem_filter.mpr ⟨hb, hpb⟩)⟩

end Sys2Proof.Machine
end

section
/-! The contest of a span in flight: CLAIM, OBJECT and the answers to its asks (R48, R49, R52, R74). -/

namespace Sys2Proof.Machine

open Sys2Proof

/-! ## The answer to an ask of the span (R52) -/

/-- A leg of the span that awaits the answer of a node. -/
def awaits (sp : Span) (x : Addr) (e : OwnClaim) : Bool :=
  inSpan sp e && e.points.any (fun p => decide (p.node = x) && (decide (p.status = .asked) || decide (p.status = .queued)))

theorem namesNode_of_awaits {sp : Span} {x : Addr} {e : OwnClaim} (h : awaits sp x e = true) : namesNode x e = true := by
  obtain ⟨-, hpoints⟩ := Bool.and_eq_true_iff.mp h
  unfold namesNode
  cases hp : e.points with
  | none => simp [hp] at hpoints
  | some p =>
    rw [hp, Option.any_some] at hpoints
    exact (Bool.and_eq_true_iff.mp hpoints).1

theorem answerForSpan_eq {prev : Addr × AnswerCode} {pe : PointsEntry} {sp : Span} {s : State} (hspan : s.ce.span = some sp) :
    answerForSpan prev pe s = (s.ce.own.find? (awaits sp pe.node)).elim s fun e =>
      if pe.requester ≠ s.tli.addr ∨ prev = (pe.requester, pe.code) then s
      else if refusal pe.code then spanAbort .pointsRefused e.seg pe.node s
      else if pe.code = .queued then s.setCe
        { s.ce with own := mapPoints (fun k p => if awaits sp pe.node k then .queued else p.status) s.ce.own }
      else s := by
  have hfind : s.ce.own.find? (awaits sp pe.node) = s.ce.own.find? (fun e => inSpan sp e && e.points.any (fun p =>
      decide (p.node = pe.node) && (decide (p.status = .asked) || decide (p.status = .queued)))) := rfl
  unfold answerForSpan
  rw [hspan, hfind]
  dsimp only
  cases s.ce.own.find? _ with
  | none => rfl
  | some e => rfl

section
variable {prev : Addr × AnswerCode} {pe : PointsEntry} {sp : Span} {o : OwnClaim} {s : State} (hspan : s.ce.span = some sp)
  (hfirst : s.ce.own.find? (awaits sp pe.node) = some o) (hmine : pe.requester = s.tli.addr)
  (hnew : prev ≠ (pe.requester, pe.code))
include hspan hfirst hmine hnew

theorem answerForSpan_of_refusal (hcode : refusal pe.code = true) :
    answerForSpan prev pe s = spanAbort .pointsRefused o.seg pe.node s := by
  rw [answerForSpan_eq hspan, hfirst, Option.elim_some, if_neg fun h => h.elim (fun h => h hmine) hnew, if_pos hcode]

theorem answerForSpan_of_queued (hcode : pe.code = .queued) : answerForSpan prev pe s = s.setCe
    { s.ce with own := mapPoints (fun k p => if awaits sp pe.node k then .queued else p.status) s.ce.own } := by
  rw [answerForSpan_eq hspan, hfirst, Option.elim_some, if_neg fun h => h.elim (fun h => h hmine) hnew, hcode] <;> rfl

end

theorem prevAnswer_ne {x : Addr} {c : AnswerCode} {s : State} (haddr : s.tli.addr ≠ 0)
    (h : ∀ k ∈ s.ov.pointsTab, k.node = x → k.requester ≠ s.tli.addr ∨ k.code ≠ c) : prevAnswer x s ≠ (s.tli.addr, c) := by
  unfold prevAnswer
  split
  · next k hk =>
    rintro heq
    obtain ⟨hreq, hcode⟩ := Prod.mk.inj heq
    rcases h k (List.mem_of_find?_eq_some hk) (of_decide_eq_true (List.find?_some (p := fun k : PointsEntry => decide (k.node = x)) hk))
      with hne | hne
    · exact hne hreq
    · exact hne hcode
  · rintro heq
    exact haddr (Prod.mk.inj heq).1.symm

section
variable {src : Addr} {n : PointsNotice} {sp : Span} {o : OwnClaim} {p : OwnPoints} {s : State}

/-- A leg of the span is the only own claim that names the answering node. -/
structure Asked (src : Addr) (n : PointsNotice) (sp : Span) (o : OwnClaim) (p : OwnPoints) (s : State) : Prop where
  kind : s.tli.kind = .carriage
  other : fromOther src s = true
  wf : n.wf = true
  works : n.state ≠ .failed
  span : s.ce.span = some sp
  only : s.ce.own.filter (namesNode src) = [o]
  inside : inSpan sp o = true
  st : o.st = .tentative
  points : o.points = some p
  waits : p.status = .asked ∨ p.status = .queued
  mine : n.requester = s.tli.addr
  addr : s.tli.addr ≠ 0
  new : ∀ k ∈ s.ov.pointsTab, k.node = src → k.requester ≠ s.tli.addr ∨ k.code ≠ n.code

variable (h : Asked src n sp o p s)
include h

theorem Asked.node : p.node = src := by
  obtain ⟨-, hnames, -⟩ := only_of_filter_singleton h.only
  obtain ⟨q, hq, hnode⟩ := namesNode_iff.mp hnames
  rw [h.points] at hq
  exact Option.some.inj hq ▸ hnode

theorem Asked.awaits : awaits sp src o = true := by
  unfold Machine.awaits
  rw [h.inside, h.points, Option.any_some, h.node]
  rcases h.waits with hs | hs <;> simp [hs]

theorem Asked.awaits_iff {k : OwnClaim} (hk : k ∈ s.ce.own) : Machine.awaits sp src k = true ↔ k = o := by
  obtain ⟨-, -, honly⟩ := only_of_filter_singleton h.only
  exact ⟨fun hw => honly k hk (namesNode_of_awaits hw), fun heq => heq ▸ h.awaits⟩

theorem Asked.first : s.ce.own.find? (Machine.awaits sp src) = some o := by
  obtain ⟨ho, -, honly⟩ := only_of_filter_singleton h.only
  exact find?_eq_of_only ho h.awaits fun k hk hw => honly k hk (namesNode_of_awaits hw)

/-- A new answer that refuses aborts the span. -/
theorem Asked.refused (hcode : refusal n.code = true) (hfew : s.ce.attempts + 1 < 8) (hwithin : headWithin (outsideSpan s) s) :
    ∃ t, exec (.points src n) s = .next t ∧ t.ce.span = none ∧ t.ce.own = outsideSpan s ∧
      t.ce.abort.map (fun a => (a.reason, a.seg, a.rival)) = some (.pointsRefused, o.seg, src) ∧
      t.ce.attempts = s.ce.attempts + 1 ∧ t.cs.state = s.cs.state := by
  obtain ⟨b, hu⟩ := clearFailedHold_eq src (noticed src n s)
  set u := clearFailedHold src (noticed src n s) with hudef
  have hspan : u.ce.span = some sp := by rw [hu]; simpa using h.span
  have hown : u.ce.own = s.ce.own := by rw [hu]; simp
  have haddr : u.tli.addr = s.tli.addr := by rw [hu]; simp
  have hout : outsideSpan u = outsideSpan s := by simp only [outsideSpan, spanSegs, hspan, hown, h.span]
  have hattempts : u.ce.attempts = s.ce.attempts := by rw [hu]; simp
  have hwithin' : headWithin (outsideSpan u) u := by
    rw [hout]
    refine headWithin_congr hwithin ?_ ?_ ?_ <;> rw [hu] <;> simp
  have habort : answerForSpan (prevAnswer src s) (pointsEntryOf src n) u = spanAbort .pointsRefused o.seg src u :=
    answerForSpan_of_refusal hspan (by rw [hown]; exact h.first) (h.mine.trans haddr.symm)
      (by rw [show (pointsEntryOf src n).requester = s.tli.addr from h.mine]; exact prevAnswer_ne h.addr h.new) hcode
  obtain ⟨hnone, hleft, hrecord, hcount, -, hcs⟩ := spanAbort_few (reason := .pointsRefused) (seg := o.seg) (rival := src) hspan hwithin' rfl
    (by rw [hattempts]; exact hfew)
  have hunnamed : ∀ e ∈ (spanAbort .pointsRefused o.seg src u).ce.own, namesNode src e = false := by
    intro e he
    rw [hleft, hout] at he
    obtain ⟨hmem, hseg⟩ := mem_outsideSpan.mp he
    obtain ⟨ho, -, honly⟩ := only_of_filter_singleton h.only
    refine Bool.eq_false_iff.mpr fun hnames => hseg ?_
    rw [honly e hmem hnames]
    exact mem_spanSegs h.span ho h.inside
  refine ⟨spanAbort .pointsRefused o.seg src u, ?_, hnone, hleft.trans hout, hrecord, hcount.trans (by rw [hattempts]), ?_⟩
  · rw [exec_points_carriage h.kind h.other h.wf, presentPoints_of_not_failed (by exact h.works)]
    refine congrArg Host.Outcome.next ?_
    show commitOnNotice src (readGrants (pointsEntryOf src n) (answerForSpan _ _ u)) = _
    rw [habort, readGrants_of_unnamed hunnamed, commitOnNotice_of_none hnone]
  · rw [hcs, hu]
    simp

/-- The answer QUEUED sets the leg queued, and the span goes on. -/
theorem Asked.queued (hcode : n.code = .queued) (hholder : n.holder ≠ s.tli.addr) :
    ∃ t, exec (.points src n) s = .next t ∧ t.ce.span = some sp ∧ t.cs.state = s.cs.state ∧
      t.ce.own = s.ce.own.map (fun k =>
        if namesNode src k then { k with points := k.points.map (fun q => { q with status := .queued }) } else k) := by
  obtain ⟨b, hu⟩ := clearFailedHold_eq src (noticed src n s)
  set u := clearFailedHold src (noticed src n s) with hudef
  have hspan : u.ce.span = some sp := by rw [hu]; simpa using h.span
  have hown : u.ce.own = s.ce.own := by rw [hu]; simp
  have haddr : u.tli.addr = s.tli.addr := by rw [hu]; simp
  set q := s.ce.own.map (fun k =>
    if namesNode src k then { k with points := k.points.map (fun q => { q with status := .queued }) } else k) with hq
  have hqueued : answerForSpan (prevAnswer src s) (pointsEntryOf src n) u = u.setCe
      { u.ce with own := mapPoints (fun k p => if Machine.awaits sp src k then .queued else p.status) s.ce.own } := by
    rw [← hown]
    exact answerForSpan_of_queued hspan (by rw [hown]; exact h.first) (h.mine.trans haddr.symm)
      (by rw [show (pointsEntryOf src n).requester = s.tli.addr from h.mine]; exact prevAnswer_ne h.addr h.new) hcode
  obtain ⟨ho, hnames, honly⟩ := only_of_filter_singleton h.only
  have hmarked : mapPoints (fun k p => if Machine.awaits sp src k then .queued else p.status) s.ce.own = q := by
    refine List.map_congr_left fun k hk => ?_
    by_cases hko : k = o
    · rw [hko, if_pos hnames]
      exact points_status_congr o fun _ _ => if_pos h.awaits
    · have hn : namesNode src k = false := Bool.eq_false_iff.mpr fun hn => hko (honly k hk hn)
      have hw : Machine.awaits sp src k = false := Bool.eq_false_iff.mpr fun hw => hko ((h.awaits_iff hk).mp hw)
      rw [hn, if_neg Bool.false_ne_true]
      exact points_status_self k _ fun _ _ => if_neg (by rw [hw]; exact Bool.false_ne_true)
  have hgraded : mapPoints (gradeOf s.tli.addr (pointsEntryOf src n)) q = q := by
    refine (List.map_congr_left fun k hk => points_status_self k _ fun r hr => ?_).trans (List.map_id _)
    obtain ⟨j, hj, rfl⟩ := List.mem_map.mp hk
    by_cases hn : namesNode src j = true
    · rw [if_pos hn] at hr ⊢
      rw [honly j hj hn, h.points] at hr
      obtain rfl := Option.some.inj hr
      have hnot : grantedBy s.tli.addr (pointsEntryOf src n) j.seg p.pos = false := by
        simp [grantedBy, pointsEntryOf, hholder]
      unfold gradeOf
      split
      · rfl
      · dsimp only
        rw [hnot] <;> rfl
    · rw [if_neg hn] at hr ⊢
      exact if_pos fun hnode => hn (namesNode_iff.mpr ⟨r, hr, hnode⟩)
  have hread : readGrants (pointsEntryOf src n) (u.setCe { u.ce with own := q }) = u.setCe { u.ce with own := q } := by
    rw [readGrants_eq]
    show u.setCe { u.ce with own := mapPoints (gradeOf u.tli.addr (pointsEntryOf src n)) q } = _
    rw [haddr, hgraded]
  have hkeep : commitOnNotice src (u.setCe { u.ce with own := q }) = u.setCe { u.ce with own := q } := by
    have hqueuedLeg : { o with points := o.points.map (fun q => { q with status := .queued }) } ∈ q.filter (inSpan sp) := by
      refine List.mem_filter.mpr ⟨List.mem_map.mpr ⟨o, ho, if_pos hnames⟩, h.inside⟩
    have hnot : commitTest sp (u.setCe { u.ce with own := q }) = false := by
      refine Bool.eq_false_iff.mpr fun hall => ?_
      have := List.all_eq_true.mp hall _ hqueuedLeg
      simp [h.points] at this
    unfold commitOnNotice
    rw [show (u.setCe { u.ce with own := q }).ce.span = some sp from hspan]
    dsimp only
    rw [if_neg fun hand => Bool.false_ne_true (hnot.symm.trans hand.2.2)]
  refine ⟨u.setCe { u.ce with own := q }, ?_, hspan, ?_, rfl⟩
  · rw [exec_points_carriage h.kind h.other h.wf, presentPoints_of_not_failed (by exact h.works)]
    refine congrArg Host.Outcome.next ?_
    show commitOnNotice src (readGrants (pointsEntryOf src n) (answerForSpan _ _ u)) = _
    rw [hqueued, hmarked, hread, hkeep]
  · rw [State.setCe_cs, hu]
    simp

end

/-- Settles O45: a CLAIM's entry, an OBJECT and an answer, each by what it says of the leg. -/
theorem spanContested : Obligations.SpanContested := by
  refine ⟨fun src target cls i st s hkind hfrom htarget hseg _ => ⟨fun sp e hspan he hin hst hfew hwithin => ⟨?claim, ?objected⟩,
    ?heard, ?clash⟩, fun src n sp o p s hkind hfrom hwf hworks hspan honly hin hst hp hwaits hmine haddr hnew => ?answer⟩
  case claim =>
    intro hconflict t
    refine ⟨fun hfirm => ?_, fun htent hrank => ?_⟩
    · obtain ⟨hnone, hown, hrecord, hcount, -, hcs⟩ := spanAbort_few (reason := .firmConflict) (seg := i.seg) (rival := src) hspan hwithin rfl hfew
      have ht : t = spanAbort .firmConflict i.seg src s := by
        show examineHeld src cls i (examineSpan src cls i s) = _
        rw [examineSpan_of_firm hspan he hin hconflict hfirm, examineHeld_of_aborted hspan he hin hown]
      rw [ht]
      exact ⟨hnone, hrecord, hcount, hown, congrArg Supervisor.state hcs⟩
    · obtain ⟨hnone, hown, hrecord, hcount, -, hcs⟩ := spanAbort_few (reason := .outranked) (seg := i.seg) (rival := src) hspan hwithin rfl hfew
      have ht : t = spanAbort .outranked i.seg src s := by
        show examineHeld src cls i (examineSpan src cls i s) = _
        rw [examineSpan_of_outranking hspan he hin hconflict htent hrank, examineHeld_of_aborted hspan he hin hown]
      rw [ht]
      exact ⟨hnone, hrecord, hcount, hown, congrArg Supervisor.state hcs⟩
  case objected =>
    intro hmine
    have he' : ownOn (quiet s) i.seg = some e := by rw [ownOn, quiet_ce]; exact he
    have hout : outsideSpan (quiet s) = outsideSpan s := by
      unfold outsideSpan spanSegs
      rw [quiet_ce]
    have hwithin' : headWithin (outsideSpan (quiet s)) (quiet s) := by
      rw [hout]
      exact headWithin_congr hwithin (quiet_os s) (quiet_pu s) (quiet_cs_comm s)
    obtain ⟨hnone, -, hrecord, hcount, -⟩ := spanAbort_few (s := quiet s) (reason := .objected) (seg := i.seg) (rival := src)
      (by simpa using hspan) hwithin' rfl (by simpa using hfew)
    refine ⟨spanAbort .objected i.seg src (quiet s), ?_, hnone, hrecord, by simpa using hcount⟩
    rw [exec_object_carriage hkind hfrom htarget hseg, if_neg (not_not_intro hmine), he']
    dsimp only
    rw [hst] <;> rfl
  case heard =>
    intro h
    rw [exec_object_carriage hkind hfrom htarget hseg]
    by_cases hmine : target ≠ s.tli.addr
    · rw [if_pos hmine]
    · rw [if_neg hmine]
      have hown : ownOn (quiet s) i.seg = ownOn s i.seg := by rw [ownOn, ownOn, quiet_ce]
      rcases h with h | h | ⟨hst, e, he, hheld⟩
      · exact absurd h hmine
      · rw [hown, h]
      · rw [hown, he, hst]
        dsimp only
        rw [hheld] <;> rfl
  case clash =>
    intro e hmine he hheld hst hstate
    have he' : ownOn (quiet s) i.seg = some e := by rw [ownOn, quiet_ce]; exact he
    have hexec : exec (.object src target i.seg st) s = .next (raiseClash src i.seg (quiet s)) := by
      rw [exec_object_carriage hkind hfrom htarget hseg, if_neg (not_not_intro hmine), he']
      dsimp only
      rw [hheld, (firmState_eq_true_iff st).mpr hst] <;> rfl
    have hstate' : (quiet s).cs.state ≠ .fault := by simpa using hstate
    obtain ⟨hcs, -⟩ := firstFault_parts .firmClash i.seg 0 (clashNoted src i.seg (quiet s))
    have hcs' := (cs_of_blank (blank_queueClaim .plain (claimClass (clashed src i.seg (quiet s)))
      ((clashed src i.seg (quiet s)).ce.own.filter (fun o => decide (o.seg = i.seg))) (clashed src i.seg (quiet s)))).trans hcs
    refine ⟨_, hexec, ?_, ?_⟩
    · rw [raiseClash_of_not_fault hstate']
      exact congrArg Supervisor.state hcs'
    · rw [raiseClash_of_not_fault hstate']
      exact congrArg Supervisor.fault hcs'
  case answer =>
    have hasked : Asked src n sp o p s := ⟨hkind, hfrom, hwf, hworks, hspan, honly, hin, hst, hp, hwaits, hmine, haddr, hnew⟩
    refine ⟨fun hqueued hgranted hfew hwithin => hasked.refused ?_ hfew hwithin, hasked.queued⟩
    cases hc : n.code <;> simp_all [refusal]

end Sys2Proof.Machine
end

section
/-! The commit of a span, and the window that closes (R54 to R56). -/

namespace Sys2Proof.Machine

open Sys2Proof

/-! ## The commit -/

theorem effPeriod_congr {s t : State} (hcomm : t.cs.comm = s.cs.comm)
    (hconvoy : t.ce.own.any OwnClaim.convoy = s.ce.own.any OwnClaim.convoy) : effPeriod t = effPeriod s := by
  unfold effPeriod
  rw [hcomm, hconvoy]

/-- With the convoy marks as they were, no POSITION falls due as the list changes. -/
theorem setOwn_of_same_convoy {own : List OwnClaim} {s : State}
    (h : own.any OwnClaim.convoy = s.ce.own.any OwnClaim.convoy) : setOwn own s = withOwn own s := by
  have hperiod : effPeriod s = effPeriod (withOwn own s) := (effPeriod_congr (s := s) (t := withOwn own s) rfl h).symm
  unfold setOwn
  exact if_neg fun hand => hand.1 hperiod

/-- The own list once the entries of a span stand FIRM. -/
def firmed (sp : Span) (own : List OwnClaim) : List OwnClaim :=
  own.map (fun e => if inSpan sp e then { e with st := .firm } else e)

theorem firmed_convoy (sp : Span) (own : List OwnClaim) : (firmed sp own).any OwnClaim.convoy = own.any OwnClaim.convoy := by
  rw [firmed, List.any_map]
  refine congrArg own.any (funext fun e => ?_)
  show OwnClaim.convoy (if inSpan sp e then { e with st := .firm } else e) = e.convoy
  split <;> rfl

/-- A change that leaves the legs alone, and then the commit. -/
theorem firmed_map {sp : Span} {f : OwnClaim → OwnClaim} (hleg : ∀ e, (f e).leg = e.leg) (own : List OwnClaim) :
    firmed sp (own.map f) = own.map (fun e => if inSpan sp e then { f e with st := .firm } else f e) := by
  rw [firmed, List.map_map]
  refine List.map_congr_left fun e _ => ?_
  have hin : inSpan sp (f e) = inSpan sp e := by rw [inSpan, inSpan, hleg]
  show (if inSpan sp (f e) then { f e with st := .firm } else f e) = _
  rw [hin]

theorem exists_inSpan_firmed {sp : Span} {own : List OwnClaim} (h : ∃ e ∈ own, inSpan sp e = true) :
    (firmed sp own).filter (inSpan sp) ≠ [] := by
  obtain ⟨e, he, hin⟩ := h
  refine List.ne_nil_of_mem (a := { e with st := .firm }) (List.mem_filter.mpr ⟨List.mem_map.mpr ⟨e, he, if_pos hin⟩, hin⟩)

/-- A frame offered that is not periodic is the only one that may join the queue. -/
theorem offer_txq_subset {b : Block} {tag : TxTag} {f : Frame} {s : State} (hf : isPosition (offered b tag f) = false)
    {k : TxEntry} (hk : k ∈ (offer b false tag f s).tli.txq) : k ∈ s.tli.txq ∨ k = offered b tag f := by
  have hline : (offer b false tag f s).tli = offerTli (offered b tag f) s.tli := by
    rw [offer, settleRefresh_tli]
    rfl
  rw [hline] at hk
  by_cases hclash : s.tli.clash = true
  · rw [offerTli_of_clash hclash] at hk
    exact .inl hk
  · rw [offerTli_of_nonperiodic (Bool.not_eq_true _ ▸ hclash) rfl hf] at hk
    have hjoin {l : List TxEntry} (hl : ∀ x ∈ l, x ∈ s.tli.txq) (hmem : k ∈ l ++ [offered b tag f]) :
        k ∈ s.tli.txq ∨ k = offered b tag f := by
      rcases List.mem_append.mp hmem with h | h
      · exact .inl (hl k h)
      · exact .inr (List.mem_singleton.mp h)
    by_cases hbehind : ∃ x ∈ s.tli.kept, x.block = b
    · rw [offerPlain_behind rfl hbehind] at hk
      exact .inl hk
    · by_cases hroom : s.tli.txq.length < 10
      · rw [offerPlain_room rfl hbehind hroom] at hk
        exact hjoin (fun _ hx => hx) hk
      · rw [offerPlain_full rfl hbehind (by omega)] at hk
        split at hk
        · exact hjoin (fun _ hx => List.mem_of_mem_eraseIdx hx) hk
        · exact .inl hk

theorem queueClaim_txq_subset {tag : TxTag} {c : Nat} {l : List OwnClaim} {s : State} {k : TxEntry}
    (hk : k ∈ (queueClaim tag c l s).tli.txq) : k ∈ s.tli.txq ∨ k.tag = tag := by
  unfold queueClaim at hk
  split at hk
  · exact .inl hk
  · exact (offer_txq_subset rfl hk).imp_right (congrArg TxEntry.tag)

/-- An ask that still waits at the commit is the span's no more. -/
theorem untag_ask {e : TxEntry} {x : Addr} {g : Seg} (h : (untag e).tag = .ask x g) : (untag e).withdrawn = true := by
  unfold untag at h ⊢
  split at h
  · split at h
    · next hw => rwa [if_pos hw]
    · cases h
  · next htag => exact absurd h (htag x g)

/-- The state once the span is gone and its entries stand FIRM, the CLAIM not yet queued. -/
def spanCommitted (sp : Span) (s : State) : State :=
  withOwn (firmed sp s.ce.own) ((s.setTli (untagAsks s.tli)).setCe
    { s.ce with span := none, attempts := 0, spanLimit := Config.spanMax, attemptLeg := none })

section
variable {sp : Span} {s : State}

theorem commit_eq (hwithin : headWithin (firmed sp s.ce.own) s) : commit sp s = testTrigger
    (queueClaim .plain (claimClass s) ((firmed sp s.ce.own).filter (inSpan sp)) (spanCommitted sp s)) := by
  have hset : setOwn (firmed sp s.ce.own) ((s.setTli (untagAsks s.tli)).setCe
      { s.ce with span := none, attempts := 0, spanLimit := Config.spanMax, attemptLeg := none }) = spanCommitted sp s :=
    setOwn_of_same_convoy (firmed_convoy sp s.ce.own)
  have hblank := blank_queueClaim .plain (claimClass s) ((firmed sp s.ce.own).filter (inSpan sp)) (spanCommitted sp s)
  have hover : overrunTest (queueClaim .plain (claimClass s) ((firmed sp s.ce.own).filter (inSpan sp)) (spanCommitted sp s)) =
      queueClaim .plain (claimClass s) ((firmed sp s.ce.own).filter (inSpan sp)) (spanCommitted sp s) := by
    refine overrunTest_of_within _ fun r f hr hf => hwithin r f ?_ ?_
    · rwa [pu_of_blank hblank] at hr
    · rwa [ce_of_blank hblank] at hf
  have hcommit : commit sp s = testTrigger (overrunTest (queueClaim .plain
      (claimClass (setOwn (firmed sp s.ce.own) ((s.setTli (untagAsks s.tli)).setCe
        { s.ce with span := none, attempts := 0, spanLimit := Config.spanMax, attemptLeg := none })))
      ((firmed sp s.ce.own).filter (inSpan sp)) (setOwn (firmed sp s.ce.own) ((s.setTli (untagAsks s.tli)).setCe
        { s.ce with span := none, attempts := 0, spanLimit := Config.spanMax, attemptLeg := none })))) := rfl
  rw [hcommit, hset]
  exact congrArg testTrigger hover

/-- What a commit leaves (R55). -/
theorem commit_parts (hwithin : headWithin (firmed sp s.ce.own) s) :
    let t := commit sp s
    t.ce.own = firmed sp s.ce.own ∧ t.ce.span = none ∧ t.ce.attempts = 0 ∧ t.ce.spanLimit = 4 ∧ t.ce.attemptLeg = none ∧
    t.os = s.os ∧ t.pu = s.pu ∧ t.cs = s.cs ∧ t.ce.firmEnd = firmEndOf (s.setCe { s.ce with own := firmed sp s.ce.own }) ∧
    (∀ k ∈ t.tli.txq, ∀ x g, k.tag = .ask x g → k.withdrawn = true) ∧
    (s.tli.clash = false → (∃ e ∈ s.ce.own, inSpan sp e = true) →
      queued (.claim (claimClass s) (cfg s).refresh (((firmed sp s.ce.own).filter (inSpan sp)).map itemOf)) t) := by
  intro t
  set u := queueClaim .plain (claimClass s) ((firmed sp s.ce.own).filter (inSpan sp)) (spanCommitted sp s) with hu
  have ht : t = u.setCe { u.ce with triggered := u.ce.triggered || acquisitionReady u } :=
    (commit_eq hwithin).trans (testTrigger_eq u)
  have hblank : blank u = blank (spanCommitted sp s) := blank_queueClaim ..
  have hce := ce_of_blank hblank
  have hpu : u.pu = s.pu := by
    rw [hu, queueClaim_pu]
    rfl
  rw [ht]
  refine ⟨congrArg ClaimEngine.own hce, congrArg ClaimEngine.span hce, congrArg ClaimEngine.attempts hce,
    congrArg ClaimEngine.spanLimit hce, congrArg ClaimEngine.attemptLeg hce, (os_of_blank hblank).trans rfl, hpu, (cs_of_blank hblank).trans rfl,
    congrArg ClaimEngine.firmEnd hce, fun k hk x g htag => ?_, fun hclash hlegs => ?_⟩
  · rcases queueClaim_txq_subset hk with hmem | hplain
    · obtain ⟨e, -, rfl⟩ := List.mem_map.mp hmem
      exact untag_ask htag
    · rw [hplain] at htag
      cases htag
  · exact queued_of_mem (s := u) (queueClaim_mem (s := spanCommitted sp s) hclash (exists_inSpan_firmed hlegs))

end

/-! ## The granted question at the close of the window (R33, R54) -/

theorem tableGrants_iff {s : State} {x : Addr} {g : Seg} {p : PointsPos} : tableGrants s x g p = true ↔
    ∃ k ∈ s.ov.pointsTab, k.node = x ∧ k.seg = g ∧ k.holder = s.tli.addr ∧ k.holderStale = false ∧ k.pos = p ∧
      k.state = lockedAt p := by
  simp [tableGrants, grantedBy, and_assoc]

theorem commitTest_iff {sp : Span} {s : State} : commitTest sp s = true ↔
    ∀ e ∈ s.ce.own, inSpan sp e = true → ∀ p, e.points = some p → p.status = .granted := by
  unfold commitTest
  rw [List.all_eq_true]
  constructor
  · intro h e he hin p hp
    have hgranted := h e (List.mem_filter.mpr ⟨he, hin⟩)
    rw [hp] at hgranted
    exact of_decide_eq_true hgranted
  · intro h e he
    obtain ⟨hmem, hin⟩ := List.mem_filter.mp he
    cases hp : e.points with
    | none => rfl
    | some p => exact decide_eq_true (h e hmem hin p hp)

section
variable {sp : Span} {s : State} (hkind : s.tli.kind = .carriage) (hspan : s.ce.span = some sp)
include hkind hspan

theorem exec_contestWindowExpiry : exec .contestWindowExpiry s = .next (
    if sp.phase = .contest ∧ sp.window.isSome then
      if commitTest sp (askTable sp s) then commit sp (askTable sp s)
      else (askTable sp s).setCe { (askTable sp s).ce with
        span := some { sp with phase := .pointsWait, window := some Config.windowMs } }
    else s) := by
  show execContestWindowExpiry s = _
  rw [execContestWindowExpiry, onKind_of_eq _ hkind, hspan]

end

/-- The list once the grants have been asked for, every leg of the span by its answer. -/
theorem askTable_own (sp : Span) (s : State) : (askTable sp s).ce.own = s.ce.own.map (fun e =>
    if inSpan sp e then { e with points := e.points.map (fun p =>
      { p with status := if tableGrants s p.node e.seg p.pos then .granted
                         else if p.status = .granted then .queued else p.status }) } else e) := by
  refine List.map_congr_left fun e _ => ?_
  by_cases hin : inSpan sp e = true
  · rw [if_pos hin]
    refine points_status_congr e fun p _ => ?_
    refine (if_pos hin).trans ?_
    cases tableGrants s p.node e.seg p.pos <;> cases p.status <;> rfl
  · rw [if_neg hin]
    exact points_status_self e _ fun p _ => if_neg hin

/-- With every leg granted the commit gives every entry of the span FIRM and granted. -/
theorem firmed_askTable {sp : Span} {s : State}
    (hall : ∀ e ∈ s.ce.own, inSpan sp e = true → ∀ p, e.points = some p → tableGrants s p.node e.seg p.pos = true) :
    firmed sp (askTable sp s).ce.own = s.ce.own.map (fun e => if inSpan sp e then
      { e with st := .firm, points := e.points.map (fun p => { p with status := .granted }) } else e) := by
  rw [askTable_own, firmed_map (fun e => by split <;> rfl)]
  refine List.map_congr_left fun e he => ?_
  by_cases hin : inSpan sp e = true
  · rw [if_pos hin, if_pos hin, if_pos hin]
    exact congrArg (fun v : OwnClaim => { v with st := .firm }) (points_status_congr e fun p hp => if_pos (hall e he hin p hp))
  · rw [if_neg hin, if_neg hin, if_neg hin]

end Sys2Proof.Machine
end

section
/-! The close of the contest window, and the notices that grade a points status (R33, R53 to R56, R70). -/

namespace Sys2Proof.Machine

open Sys2Proof

section
variable {sp : Span} {s : State} (hkind : s.tli.kind = .carriage) (hspan : s.ce.span = some sp)
include hkind hspan

/-- A leg not granted as the window closes: POINTS_WAIT. -/
theorem exec_window_waits (hphase : sp.phase = .contest) (hwindow : sp.window.isSome = true)
    (hleg : ∃ e ∈ s.ce.own, inSpan sp e = true ∧ ∃ p, e.points = some p ∧ tableGrants s p.node e.seg p.pos = false) :
    exec .contestWindowExpiry s = .next ((askTable sp s).setCe { (askTable sp s).ce with
      span := some { sp with phase := .pointsWait, window := some Config.windowMs } }) := by
  obtain ⟨e, he, hin, p, hp, hnot⟩ := hleg
  have htest : ¬ commitTest sp (askTable sp s) = true := by
    rw [commitTest_iff, askTable_own]
    intro hall
    have hgranted := hall _ (List.mem_map_of_mem he) (by rw [if_pos hin]; exact hin)
      { p with status := if tableGrants s p.node e.seg p.pos then .granted
                         else if p.status = .granted then .queued else p.status } (by rw [if_pos hin, hp]; rfl)
    dsimp only at hgranted
    rw [hnot] at hgranted
    cases hstatus : p.status <;> rw [hstatus] at hgranted <;> simp at hgranted
  rw [exec_contestWindowExpiry hkind hspan, if_pos ⟨hphase, hwindow⟩, if_neg htest]

/-- Every leg granted as the window closes: the commit. -/
theorem exec_window_commits (hphase : sp.phase = .contest) (hwindow : sp.window.isSome = true)
    (hall : ∀ e ∈ s.ce.own, inSpan sp e = true → ∀ p, e.points = some p → tableGrants s p.node e.seg p.pos = true) :
    exec .contestWindowExpiry s = .next (commit sp (askTable sp s)) := by
  have htest : commitTest sp (askTable sp s) = true := by
    rw [commitTest_iff, askTable_own]
    intro e he hin p hp
    obtain ⟨o, ho, rfl⟩ := List.mem_map.mp he
    by_cases hino : inSpan sp o = true
    · rw [if_pos hino] at hp
      obtain ⟨q, hq, rfl⟩ := Option.map_eq_some_iff.mp hp
      exact if_pos (hall o ho hino q hq)
    · rw [if_neg hino] at hin
      exact absurd hin hino
  rw [exec_contestWindowExpiry hkind hspan, if_pos ⟨hphase, hwindow⟩, if_pos htest]

end

/-! ## A notice that grades the statuses -/

theorem answerForSpan_of_other {prev : Addr × AnswerCode} {pe : PointsEntry} {s : State}
    (h : pe.requester ≠ s.tli.addr ∨ pe.code = .granted) : answerForSpan prev pe s = s := by
  cases hspan : s.ce.span with
  | none =>
    unfold answerForSpan
    rw [hspan]
  | some sp =>
    rw [answerForSpan_eq hspan]
    cases s.ce.own.find? (awaits sp pe.node) with
    | none => rfl
    | some e =>
      rw [Option.elim_some]
      rcases h with h | h
      · rw [if_pos (.inl h)]
      · rw [h] <;> simp [refusal]

/-- The list as a notice grades it. -/
def graded (me : Addr) (pe : PointsEntry) (e : OwnClaim) : OwnClaim :=
  { e with points := e.points.map (fun p => { p with status := gradeOf me pe e p }) }

theorem mapPoints_gradeOf (me : Addr) (pe : PointsEntry) (own : List OwnClaim) :
    mapPoints (gradeOf me pe) own = own.map (graded me pe) := rfl

section
variable {src : Addr} {n : PointsNotice} {s : State} (hkind : s.tli.kind = .carriage) (hfrom : fromOther src s = true)
  (hwf : n.wf = true) (hworks : n.state ≠ .failed) (hother : n.requester ≠ s.tli.addr ∨ n.code = .granted)
include hkind hfrom hwf hworks hother

/-- The state a notice leaves before the commit test. -/
theorem exec_points_grades : ∃ u, exec (.points src n) s = .next (commitOnNotice src u) ∧
    u.ce.own = s.ce.own.map (graded s.tli.addr (pointsEntryOf src n)) ∧ u.ce.span = s.ce.span ∧ u.os = s.os ∧ u.pu = s.pu ∧
    u.cs.state = s.cs.state ∧ u.cs.comm = s.cs.comm ∧ u.tli.clash = s.tli.clash := by
  obtain ⟨b, hu⟩ := clearFailedHold_eq src (noticed src n s)
  have hcleared : clearFailedHold (pointsEntryOf src n).node (noticed src n s) = _ := hu
  refine ⟨readGrants (pointsEntryOf src n) (clearFailedHold src (noticed src n s)), ?_, ?_, ?_, ?_, ?_, ?_, ?_, ?_⟩
  · rw [exec_points_carriage hkind hfrom hwf, presentPoints_of_not_failed (by exact hworks)]
    refine congrArg (fun t => Host.Outcome.next (commitOnNotice src (readGrants (pointsEntryOf src n) t)))
      (answerForSpan_of_other ?_)
    rw [hcleared]
    rw [State.setCe_tli, noticed_tli_addr]
    exact hother
  all_goals rw [readGrants_eq, hu]
  · simp [mapPoints_gradeOf]
  all_goals simp

end

/-- Settles O47: the granted question, the close of the window by its answers, and a notice by what it completes. -/
theorem windowCloses : Obligations.WindowCloses := by
  refine ⟨fun s x g p => tableGrants_iff, fun sp s hkind hspan => ⟨?idle, fun hphase hwindow => ⟨?waits, ?commits⟩⟩,
    fun src n s hkind hfrom hwf hworks hother => ⟨?grades, ?completes⟩⟩
  case idle =>
    intro h
    rw [exec_contestWindowExpiry hkind hspan, if_neg]
    rintro ⟨hphase, hwindow⟩
    rcases h with h | h
    · rw [h] at hphase
      cases hphase
    · rw [h] at hwindow
      cases hwindow
  case waits =>
    intro hleg
    rw [exec_window_waits hkind hspan hphase hwindow hleg, ← askTable_own] <;> rfl
  case commits =>
    intro hall hwithin
    obtain hcommit := exec_window_commits hkind hspan hphase hwindow hall
    have hown := firmed_askTable hall
    have hwithin' : headWithin (firmed sp (askTable sp s).ce.own) (askTable sp s) := by
      rw [hown]
      exact headWithin_congr hwithin rfl rfl rfl
    obtain ⟨hown', hspan', hattempts, hlimit, hleg, hos, hpu, hcs, hfirm, hasks, hclaim⟩ := commit_parts hwithin'
    rw [hown] at hown' hfirm hclaim
    refine ⟨_, hcommit, hown', hspan', hattempts, hlimit, hleg, hos, hpu, hcs, hfirm, hasks, fun hclash hlegs => hclaim hclash ?_⟩
    obtain ⟨e, he, hin⟩ := hlegs
    obtain ⟨o, ho, rfl⟩ := List.mem_map.mp he
    have hino : inSpan sp o = true := by
      by_contra hno
      rw [if_neg hno] at hin
      exact hno hin
    rw [askTable_own]
    exact ⟨_, List.mem_map_of_mem ho, by rw [if_pos hino]; exact hino⟩
  case grades =>
    intro hcontest
    obtain ⟨u, hexec, hown, hspan, hos, -, hstate, -⟩ := exec_points_grades hkind hfrom hwf hworks hother
    have hkeep : commitOnNotice src u = u := by
      unfold commitOnNotice
      split
      · rfl
      · next sp hsp =>
        rw [if_neg fun hand => by rw [hcontest sp (hspan ▸ hsp)] at hand; cases hand.1]
    refine ⟨u, hexec.trans (by rw [hkeep]), hown.trans ?_, hspan, hos, hstate⟩
    exact List.map_congr_left fun e _ => rfl
  case completes =>
    intro sp hspan hphase hnames hall own hwithin
    obtain ⟨u, hexec, hown, huspan, hos, hpu, hstate, hcomm, hclash⟩ := exec_points_grades hkind hfrom hwf hworks hother
    have hfirmed : firmed sp u.ce.own = own := by
      rw [hown, firmed_map (f := graded s.tli.addr (pointsEntryOf src n)) (fun _ => rfl)]
      exact List.map_congr_left fun e _ => rfl
    have htest : commitTest sp u = true := by
      rw [commitTest_iff, hown]
      intro e he hin p hp
      obtain ⟨o, ho, rfl⟩ := List.mem_map.mp he
      obtain ⟨q, hq, rfl⟩ := Option.map_eq_some_iff.mp hp
      obtain ⟨htent, hgranted⟩ := hall o ho hin
      rcases hgranted q hq with ⟨hnode, hg⟩ | ⟨hnode, hg⟩
      · show gradeOf _ _ o q = _
        exact (if_neg (not_not_intro hnode)).trans ((if_pos hg).trans (if_pos (.inl htent)))
      · exact (if_pos hnode).trans hg
    have hcommit : commitOnNotice src u = commit sp u := by
      have hany : (u.ce.own.filter (inSpan sp)).any (namesNode src) = true := by
        obtain ⟨e, he, hin, hn⟩ := hnames
        refine List.any_eq_true.mpr ⟨graded s.tli.addr (pointsEntryOf src n) e, List.mem_filter.mpr ⟨?_, hin⟩, ?_⟩
        · rw [hown]
          exact List.mem_map_of_mem he
        · obtain ⟨p, hp, hnode⟩ := namesNode_iff.mp hn
          exact namesNode_iff.mpr ⟨_, congrArg (Option.map _) hp, hnode⟩
      unfold commitOnNotice
      rw [huspan, hspan]
      exact if_pos ⟨hphase, hany, htest⟩
    have hwithin' : headWithin (firmed sp u.ce.own) u := by
      rw [hfirmed]
      exact headWithin_congr hwithin hos hpu hcomm
    obtain ⟨hown', hspan', hattempts, hlimit, -, hos', -, hcs, -, -, hclaim⟩ := commit_parts hwithin'
    have hclass : claimClass u = claimClass s := by rw [claimClass, claimClass, started, started, hos]
    have hcfg : cfg u = cfg s := by rw [cfg, cfg, hcomm]
    rw [hfirmed, hclass, hcfg] at hclaim
    refine ⟨commit sp u, hexec.trans (by rw [hcommit]), hown'.trans hfirmed, hspan', hattempts, hlimit, hos'.trans hos,
      (congrArg Supervisor.state hcs).trans hstate, fun hfree => hclaim (hclash.trans hfree) ?_⟩
    obtain ⟨e, he, hin, -⟩ := hnames
    rw [hown]
    exact ⟨_, List.mem_map_of_mem he, hin⟩

end Sys2Proof.Machine
end

section
/-! The points table, and what a FAILED node's notice does but for the pull-back (R31, R32, R53, R61, R103). -/

namespace Sys2Proof.Machine

open Sys2Proof

/-! ## The table -/

theorem storePoints_of_known {e : PointsEntry} {s : State} (h : ∃ k ∈ s.ov.pointsTab, k.node = e.node) :
    storePoints e s = s.setOv { s.ov with pointsTab := s.ov.pointsTab.map (fun k => if k.node = e.node then e else k) } :=
  if_pos (by simpa using h)

theorem storePoints_of_room {e : PointsEntry} {s : State} (h : ∀ k ∈ s.ov.pointsTab, k.node ≠ e.node)
    (hroom : s.ov.pointsTab.length < 16) : storePoints e s = s.setOv { s.ov with pointsTab := s.ov.pointsTab ++ [e] } := by
  unfold storePoints
  rw [if_neg (by simpa using h)]
  exact if_pos hroom

theorem pointsInUse_congr {s t : State} (h : t.ce.own = s.ce.own) (x : Addr) : pointsInUse t x = pointsInUse s x := by
  rw [pointsInUse, pointsInUse, h]

/-- The entry that gives way is the oldest of those not in use, and there is one where any is not in use. -/
theorem pointsVictim_spec (s : State) (l : List PointsEntry) :
    (pointsVictim s l = none → ∀ k ∈ l, pointsInUse s k.node = true) ∧
    ∀ v, pointsVictim s l = some v → v ∈ l ∧ pointsInUse s v.node = false ∧
      ∀ k ∈ l, pointsInUse s k.node = false → k.age ≤ v.age := by
  induction l with
  | nil => exact ⟨fun _ _ hk => (nomatch hk), fun _ hv => (nomatch hv)⟩
  | cons e rest ih =>
    obtain ⟨hnone, hsome⟩ := ih
    unfold pointsVictim
    dsimp only
    by_cases huse : pointsInUse s e.node = true
    · rw [if_pos huse]
      refine ⟨fun h => List.forall_mem_cons.mpr ⟨huse, hnone h⟩, fun v hv => ?_⟩
      obtain ⟨hmem, hfree, hage⟩ := hsome v hv
      exact ⟨List.mem_cons_of_mem _ hmem, hfree, List.forall_mem_cons.mpr ⟨fun h => absurd huse (by simp [h]), hage⟩⟩
    · rw [if_neg huse]
      have hfree : pointsInUse s e.node = false := Bool.eq_false_iff.mpr huse
      cases hrest : pointsVictim s rest with
      | none =>
        refine ⟨fun h => (nomatch h), fun v hv => ?_⟩
        obtain rfl := Option.some.inj hv
        refine ⟨List.mem_cons_self, hfree, List.forall_mem_cons.mpr ⟨fun _ => le_refl _, fun k hk h => ?_⟩⟩
        exact absurd (hnone hrest k hk) (by simp [h])
      | some f =>
        obtain ⟨hmem, hffree, hage⟩ := hsome f hrest
        dsimp only
        split
        case isTrue hbefore =>
          refine ⟨fun h => (nomatch h), fun v hv => ?_⟩
          obtain rfl := Option.some.inj hv
          have hle : f.age ≤ e.age := hbefore.elim Nat.le_of_lt fun h => Nat.le_of_eq h.1
          exact ⟨List.mem_cons_self, hfree, List.forall_mem_cons.mpr ⟨fun _ => le_refl _, fun k hk h => (hage k hk h).trans hle⟩⟩
        case isFalse hbefore =>
          refine ⟨fun h => (nomatch h), fun v hv => ?_⟩
          obtain rfl := Option.some.inj hv
          have hle : e.age ≤ f.age := Nat.le_of_not_lt fun h => hbefore (.inl h)
          exact ⟨List.mem_cons_of_mem _ hmem, hffree, List.forall_mem_cons.mpr ⟨fun _ => hle, hage⟩⟩

/-- At 16 entries one not in use gives way. -/
theorem storePoints_of_full {e : PointsEntry} {s : State} (h : ∀ k ∈ s.ov.pointsTab, k.node ≠ e.node)
    (hfull : 16 ≤ s.ov.pointsTab.length) (hfree : ∃ k ∈ s.ov.pointsTab, pointsInUse s k.node = false) :
    ∃ v ∈ s.ov.pointsTab, pointsInUse s v.node = false ∧
      (∀ k ∈ s.ov.pointsTab, pointsInUse s k.node = false → k.age ≤ v.age) ∧
      storePoints e s = s.setOv
        { s.ov with pointsTab := s.ov.pointsTab.filter (fun k => decide (k.node ≠ v.node)) ++ [e] } := by
  obtain ⟨hnone, hsome⟩ := pointsVictim_spec s s.ov.pointsTab
  cases hv : pointsVictim s s.ov.pointsTab with
  | none =>
    obtain ⟨k, hk, hkfree⟩ := hfree
    exact absurd (hnone hv k hk) (by simp [hkfree])
  | some v =>
    obtain ⟨hmem, hvfree, hage⟩ := hsome v hv
    refine ⟨v, hmem, hvfree, hage, ?_⟩
    unfold storePoints
    rw [if_neg (by simpa using h), if_neg (show ¬ s.ov.pointsTab.length < Config.pointsTabCap from Nat.not_lt.mpr hfull), hv]

/-! ## A node that no own claim names -/

theorem pointsFailed_of_unnamed {x : Addr} {s : State} (h : ∀ o ∈ s.ce.own, namesNode x o = false) : pointsFailed x s = s := by
  have hheld : s.ce.own.filter (fun e => firmState e.st && namesNode x e) = [] :=
    List.filter_eq_nil_iff.mpr fun e he => by simp [h e he]
  unfold pointsFailed
  rw [hheld]
  dsimp only [List.find?_nil]
  cases hspan : s.ce.span with
  | none => rfl
  | some sp =>
    have hnone : (s.ce.own.filter (inSpan sp)).find? (namesNode x) = none :=
      List.find?_eq_none.mpr fun e he => by simp [h e (List.mem_filter.mp he).1]
    dsimp only
    rw [hnone]

/-- A notice of a node that no own claim names, with no hold for it, is stored and changes nothing else. -/
theorem presentPoints_of_unnamed {prev : Addr × AnswerCode} {pe : PointsEntry} {s : State}
    (h : ∀ o ∈ s.ce.own, namesNode pe.node o = false) (hhold : s.ce.failedHold ≠ some pe.node) :
    presentPoints prev pe s = s := by
  by_cases hfailed : pe.state = .failed
  · exact (if_pos hfailed).trans (pointsFailed_of_unnamed h)
  · have hanswer : answerForSpan prev pe s = s := by
      cases hspan : s.ce.span with
      | none =>
        unfold answerForSpan
        rw [hspan]
      | some sp =>
        have hnone : s.ce.own.find? (awaits sp pe.node) = none :=
          List.find?_eq_none.mpr fun e he hw => Bool.false_ne_true ((h e he).symm.trans (namesNode_of_awaits hw))
        rw [answerForSpan_eq hspan, hnone, Option.elim_none]
    have hcommit : commitOnNotice pe.node s = s := by
      unfold commitOnNotice
      cases hspan : s.ce.span with
      | none => rfl
      | some sp =>
        refine if_neg fun hand => ?_
        obtain ⟨e, he, hn⟩ := List.any_eq_true.mp hand.2.1
        exact Bool.false_ne_true ((h e (List.mem_filter.mp he).1).symm.trans hn)
    rw [presentPoints_of_not_failed hfailed, show clearFailedHold pe.node s = s from if_neg hhold, hanswer,
      readGrants_of_unnamed h, hcommit]

/-! ## POINTS_LOST (R103) -/

section
variable {x : Addr} {o : OwnClaim} {s : State}

theorem reachedLeg_eq_true (h : o.leg = .none ∨ o.leg = .rear ∨ ∃ k a r, o.leg = .leg k ∧ s.os.active = some a ∧
    s.pu.route = some r ∧ ((legStart a.ord.legs k : Nat) : Int) ≤ r.x) : reachedLeg s o = true := by
  unfold reachedLeg
  rcases h with h | h | ⟨k, a, r, hleg, ha, hr, hx⟩
  · rw [h]
  · rw [h]
  · rw [hleg, ha, hr]
    exact decide_eq_true hx

theorem pointsFailed_lost (hheld : s.ce.own.filter (namesNode x) = [o]) (hfirm : firmState o.st = true)
    (hreached : reachedLeg s o = true) (hstate : s.cs.state ≠ .fault) :
    let t := pointsFailed x s
    t.cs.state = .fault ∧ t.cs.fault = some ⟨.pointsLost, o.seg, 0, 0, none, false⟩ ∧ t.ce.lostMem = s.ce.lostMem ++ [x] := by
  intro t
  obtain ⟨ho, hnames, honly⟩ := only_of_filter_singleton hheld
  have hfind : (s.ce.own.filter (fun e => firmState e.st && namesNode x e)).find? (reachedLeg s) = some o := by
    refine find?_eq_of_only (List.mem_filter.mpr ⟨ho, by rw [hfirm, hnames]; rfl⟩) hreached fun k hk _ => ?_
    obtain ⟨hmem, hboth⟩ := List.mem_filter.mp hk
    exact honly k hmem (Bool.and_eq_true_iff.mp hboth).2
  have hlost : pointsLost x o.seg s = firstFault .pointsLost o.seg 0 (s.setCe { s.ce with lostMem := s.ce.lostMem ++ [x] }) := by
    unfold pointsLost
    rw [if_neg fun hand => hstate hand.1]
    exact raiseFaultAt_of_not_fault hstate
  obtain ⟨hcs, -, -, -, hnone, -, ⟨-, hlostMem⟩, -⟩ :=
    firstFault_parts .pointsLost o.seg 0 (s.setCe { s.ce with lostMem := s.ce.lostMem ++ [x] })
  have ht : t = firstFault .pointsLost o.seg 0 (s.setCe { s.ce with lostMem := s.ce.lostMem ++ [x] }) := by
    show pointsFailed x s = _
    unfold pointsFailed
    dsimp only
    rw [hfind]
    dsimp only
    rw [hlost, hnone]
  rw [ht]
  exact ⟨congrArg Supervisor.state hcs, congrArg Supervisor.fault hcs, hlostMem⟩

/-! ## The abort of a span that names the node (R53) -/

theorem pointsFailed_aborts {sp : Span} (hspan : s.ce.span = some sp) (hheld : s.ce.own.filter (namesNode x) = [o])
    (hin : inSpan sp o = true) (hst : o.st = .tentative) :
    pointsFailed x s = spanAbort .pointsFailed o.seg x (s.setCe { s.ce with failedHold := some x }) := by
  obtain ⟨ho, hnames, honly⟩ := only_of_filter_singleton hheld
  have hnone : s.ce.own.filter (fun e => firmState e.st && namesNode x e) = [] := by
    refine List.filter_eq_nil_iff.mpr fun e he hboth => ?_
    obtain ⟨hfirm, hn⟩ := Bool.and_eq_true_iff.mp hboth
    rw [honly e he hn, hst] at hfirm
    cases hfirm
  have hfind : (s.ce.own.filter (inSpan sp)).find? (namesNode x) = some o :=
    find?_eq_of_only (List.mem_filter.mpr ⟨ho, hin⟩) hnames fun k hk hn => honly k (List.mem_filter.mp hk).1 hn
  unfold pointsFailed
  rw [hnone]
  dsimp only [List.find?_nil]
  rw [hspan]
  dsimp only
  rw [hfind]

end

/-! ## The hold that clears (R61) -/

theorem commit_spanStays (sp : Span) (s : State) (h : s.ce.failedHold = none) : (commit sp s).ce.failedHold = none := by
  have hstays (own : List OwnClaim) (u : State) (c : State → Nat) (l : List OwnClaim) :
      SpanStays u (testTrigger (overrunTest (queueClaim .plain (c (setOwn own u)) l (setOwn own u)))) :=
    (testTrigger_spanStays _).after ((overrunTest_spanStays _).after ((queueClaim_spanStays _ _ _ _).after (setOwn_spanStays _ _)))
  obtain ⟨-, -, -, hhold⟩ := hstays (firmed sp s.ce.own) ((s.setTli (untagAsks s.tli)).setCe
    { s.ce with span := none, attempts := 0, spanLimit := Config.spanMax, attemptLeg := none }) claimClass
    ((firmed sp s.ce.own).filter (inSpan sp)) rfl
  exact hhold h

/-- A node that works sets no hold again in the same notice. -/
theorem presentPoints_hold {prev : Addr × AnswerCode} {pe : PointsEntry} {s : State} (hworks : pe.state ≠ .failed)
    (hhold : s.ce.failedHold = some pe.node) : (presentPoints prev pe s).ce.failedHold = none := by
  obtain ⟨b, hu⟩ := clearFailedHold_eq pe.node s
  set u := clearFailedHold pe.node s with hudef
  have hclear : u.ce.failedHold = none := by rw [hu]; exact if_pos hhold
  have hanswer : (answerForSpan prev pe u).ce.failedHold = none := by
    cases hspan : u.ce.span with
    | none =>
      unfold answerForSpan
      rw [hspan]
      exact hclear
    | some sp =>
      rw [answerForSpan_eq hspan]
      cases u.ce.own.find? (awaits sp pe.node) with
      | none => exact hclear
      | some e =>
        rw [Option.elim_some]
        split
        · exact hclear
        · split
          · obtain ⟨-, -, -, h⟩ := spanAbort_record (reason := .pointsRefused) (seg := e.seg) (rival := pe.node) hspan
            exact h hclear
          · split
            · exact hclear
            · exact hclear
  have hread : (readGrants pe (answerForSpan prev pe u)).ce.failedHold = none := by
    rw [readGrants_eq]
    exact hanswer
  rw [presentPoints_of_not_failed hworks]
  unfold commitOnNotice
  split
  · exact hread
  · split
    · exact commit_spanStays _ _ hread
    · exact hread

end Sys2Proof.Machine
end

section
/-! The pull-back before failed points (R102), and the POINTS notice in full (R31, R32, R53, R61, R103). -/

namespace Sys2Proof.Machine

open Sys2Proof

/-! ## The attempt state at a leg (R44) -/

theorem attemptAt_eq (k : Nat) (s : State) : attemptAt k s = s.setCe
    { s.ce with attempts := if s.ce.attemptLeg = some k then s.ce.attempts else 0,
                spanLimit := if s.ce.attemptLeg = some k then s.ce.spanLimit else 4, attemptLeg := some k } := by
  unfold attemptAt
  split
  · next h => rw [← h] <;> rfl
  · rfl

/-! ## The pull-back -/

section
variable {x : Addr} {g : Seg} {j : Nat} {a : ActiveOrder} {s : State}

/-- A pull-back short of the eighth abort (R102, step 5). -/
theorem countPullBack_eq (ha : s.os.active = some a) (hphase : a.phase = .underway)
    (hfew : (if s.ce.attemptLeg = some j then s.ce.attempts else 0) + 1 < 8) : countPullBack j g x s =
      backedOff .pointsFailed 0 (recordAbort .pointsFailed g x
        ((if s.ce.attemptLeg = some j then s.ce.attempts else 0) + 1) (attemptAt j s)) := by
  have hattempts : (attemptAt j s).ce.attempts = if s.ce.attemptLeg = some j then s.ce.attempts else 0 := by
    rw [attemptAt_eq]
    rfl
  unfold countPullBack
  rw [ha]
  dsimp only
  rw [if_neg (by rw [hphase]; exact OrderPhase.noConfusion), hattempts, countAttempt_eq]
  exact if_pos (by rw [← hattempts] at hfew; exact hfew)

end

section
variable {x : Addr} {j : Nat} {a : ActiveOrder} {o : OwnClaim} {before after : List OwnClaim} {s : State}
  (hown : s.ce.own = before ++ o :: after) (hnodup : (s.ce.own.map OwnClaim.seg).Nodup)
include hown hnodup

/-- The entries from the named one on are those that go. -/
theorem dropWhile_own : (s.ce.own.dropWhile (fun k => decide (k.seg ≠ o.seg))).map OwnClaim.seg = (o :: after).map OwnClaim.seg := by
  have hdistinct := hnodup
  rw [hown, List.map_append, List.nodup_append] at hdistinct
  obtain ⟨-, -, hapart⟩ := hdistinct
  have hbefore : ∀ k ∈ before, decide (k.seg ≠ o.seg) = true := fun k hk =>
    decide_eq_true (hapart _ (List.mem_map_of_mem hk) _ (List.mem_map_of_mem List.mem_cons_self))
  rw [hown, List.dropWhile_append_of_pos hbefore, List.dropWhile_cons_of_neg (by simp)]

theorem ownOf_rest : ownOf ((o :: after).map OwnClaim.seg) s = o :: after :=
  ownOf_part before (o :: after) [] s (by rw [hown, List.append_nil]) hnodup

theorem filter_not_rest : s.ce.own.filter (fun e => decide (e.seg ∉ (o :: after).map OwnClaim.seg)) = before := by
  have hdistinct := hnodup
  rw [hown, List.map_append, List.nodup_append] at hdistinct
  obtain ⟨-, -, hapart⟩ := hdistinct
  have hstay : before.filter (fun e => decide (e.seg ∉ (o :: after).map OwnClaim.seg)) = before :=
    List.filter_eq_self.mpr fun k hk => decide_eq_true fun hmem => hapart _ (List.mem_map_of_mem hk) _ hmem rfl
  have hgo : (o :: after).filter (fun e => decide (e.seg ∉ (o :: after).map OwnClaim.seg)) = [] :=
    List.filter_eq_nil_iff.mpr fun k hk h => of_decide_eq_true h (List.mem_map_of_mem hk)
  rw [hown, List.filter_append, hstay, hgo, List.append_nil]

/-- What a pull-back leaves (R102). -/
theorem pullBack_parts (hspan : s.ce.span = none) (ha : s.os.active = some a) (hphase : a.phase = .underway)
    (hwithin : headWithin before s) (hfew : (if s.ce.attemptLeg = some j then s.ce.attempts else 0) + 1 < 8) :
    let m := if s.ce.attemptLeg = some j then s.ce.attempts else 0
    let t := pullBack x o j s
    t.ce.span = none ∧ t.ce.own = before ∧ t.os.active = some { a with nextClaim := j } ∧ t.ce.failedHold = some x ∧
    t.ce.attempts = m + 1 ∧ t.ce.abort = some ⟨.pointsFailed, o.seg, x, m + 1, a.ord.id⟩ ∧
    t.ce.backoff = some ⟨0, 250 * (m + 1) + 15 * s.tli.addr⟩ ∧ t.cs = s.cs ∧
    (s.tli.clash = false → (∀ k ∈ o :: after, ∃ ids, k.seg ∈ ids ∧ queued (.release ids) t) ∧
      (∀ p, o.points = some p → p.status ≠ .asked → queued (.pointsFree p.node) t)) := by
  intro m t
  set gone := (o :: after).map OwnClaim.seg with hgone
  set v := releaseOwn gone s with hv
  have hblank : blank v = blank (withOwn before s) := by
    have h := blank_releaseOwn (gone := gone) (s := s)
      ⟨o, by rw [hown]; simp, List.mem_map_of_mem List.mem_cons_self⟩
    rwa [filter_not_rest hown hnodup] at h
  have hce := ce_of_blank hblank
  have hos := os_of_blank hblank
  have hleg : v.ce.attemptLeg = s.ce.attemptLeg := (congrArg ClaimEngine.attemptLeg hce).trans rfl
  have hattempts : v.ce.attempts = s.ce.attempts := (congrArg ClaimEngine.attempts hce).trans rfl
  have hactive : v.os.active = some a := (congrArg OrderStore.active hos).trans ha
  have haddr : v.tli.addr = s.tli.addr := by rw [hv]; simp
  set u := (setNextClaim j v).setCe { (setNextClaim j v).ce with failedHold := some x } with hu
  have hu' : u = (v.setOs { v.os with active := some { a with nextClaim := j } }).setCe { v.ce with failedHold := some x } := by
    rw [hu, setNextClaim_eq, hactive]
    rfl
  have huactive : u.os.active = some { a with nextClaim := j } := by rw [hu'] <;> rfl
  have hulegs : u.ce.attemptLeg = s.ce.attemptLeg := by rw [hu']; exact hleg
  have huattempts : u.ce.attempts = s.ce.attempts := by rw [hu']; exact hattempts
  set w := backedOff .pointsFailed 0 (recordAbort .pointsFailed o.seg x (m + 1) (attemptAt j u)) with hw
  have hcount : countPullBack j o.seg x u = w := by
    have h := countPullBack_eq (x := x) (g := o.seg) huactive hphase (by rw [hulegs, huattempts]; exact hfew)
    rw [hulegs, huattempts] at h
    exact h
  rw [attemptAt_eq, hulegs, huattempts, hu'] at hw
  have hover : overrunTest w = w := by
    refine overrunTest_of_within w fun r f hr hf => hwithin r f ?_ ?_
    · have hpu : w.pu = v.pu := by rw [hw]; rfl
      rwa [hpu, pu_of_blank hblank] at hr
    · have hfirm : w.ce.firmEnd = v.ce.firmEnd := by rw [hw]; rfl
      rwa [hfirm, hce] at hf
  have ht : t = w := by
    show pullBack x o j s = _
    unfold pullBack
    have hend : endSpan gone s = v := by
      unfold endSpan
      rw [hspan]
    dsimp only
    rw [dropWhile_own hown hnodup, ← hgone, hend, ← hu, hcount, hover]
  have hownv : v.ce.own = before := congrArg ClaimEngine.own hce
  have hspanv : v.ce.span = none := (congrArg ClaimEngine.span hce).trans hspan
  have hcsv : v.cs = s.cs := releaseOwn_cs gone s
  rw [ht]
  refine ⟨?_, ?_, ?_, ?_, ?_, ?_, ?_, ?_, fun hclash => ?_⟩
  case refine_9 =>
    have hreleased := releaseOwn_releasedWith gone s hclash
    rw [ownOf_rest hown hnodup] at hreleased
    have htli : w.tli = v.tli := by rw [hw]; rfl
    refine ⟨fun k hk => ?_, fun p hp hst => ?_⟩
    · obtain ⟨ids, hids, hmem⟩ := release_of_releasedWith hreleased hk
      exact ⟨ids, hids, queued_of_mem_waiting (b := .ce) (by rw [htli]; exact hmem)⟩
    · exact queued_of_mem_waiting (b := .ce) (by rw [htli]; exact free_of_releasedWith hreleased List.mem_cons_self hp hst)
  all_goals rw [hw]
  · exact hspanv
  · exact hownv
  · rfl
  · rfl
  · rfl
  · rfl
  · exact congrArg (fun n => some (⟨0, 250 * (m + 1) + 15 * n⟩ : Backoff)) haddr
  · exact hcsv

end

section
variable {x : Addr} {j : Nat} {a : ActiveOrder} {r : Route} {o : OwnClaim} {before after : List OwnClaim} {s : State}

/-- With every held claim of the node ahead of the head, the order is pulled back to the first of them. -/
theorem pointsFailed_pulls (hown : s.ce.own = before ++ o :: after) (hnodup : (s.ce.own.map OwnClaim.seg).Nodup)
    (hfirm : firmState o.st = true) (hleg : o.leg = .leg j) (hnames : namesNode x o = true)
    (hbefore : ∀ k ∈ before, firmState k.st = true → namesNode x k = false) (ha : s.os.active = some a)
    (hphase : a.phase = .underway) (hr : s.pu.route = some r) (hspan : s.ce.span = none)
    (hahead : ∀ k ∈ o :: after, firmState k.st = true → namesNode x k = true →
      ∃ i, k.leg = .leg i ∧ r.x < ((legStart a.ord.legs i : Nat) : Int))
    (hwithin : headWithin before s) (hfew : (if s.ce.attemptLeg = some j then s.ce.attempts else 0) + 1 < 8) :
    pointsFailed x s = pullBack x o j s := by
  obtain ⟨hnone, -⟩ := pullBack_parts (x := x) hown hnodup hspan ha hphase hwithin hfew
  have hheld : s.ce.own.filter (fun e => firmState e.st && namesNode x e) =
      o :: after.filter (fun e => firmState e.st && namesNode x e) := by
    have hnil : before.filter (fun e => firmState e.st && namesNode x e) = [] := by
      refine List.filter_eq_nil_iff.mpr fun k hk hboth => ?_
      obtain ⟨hf, hn⟩ := Bool.and_eq_true_iff.mp hboth
      exact Bool.false_ne_true ((hbefore k hk hf).symm.trans hn)
    rw [hown, List.filter_append, hnil, List.nil_append, List.filter_cons_of_pos (by rw [hfirm, hnames]; rfl)]
  have hshort : (o :: after.filter (fun e => firmState e.st && namesNode x e)).find? (reachedLeg s) = none := by
    refine List.find?_eq_none.mpr fun k hk => ?_
    have hmem : k ∈ o :: after ∧ firmState k.st = true ∧ namesNode x k = true := by
      rcases List.mem_cons.mp hk with rfl | hk
      · exact ⟨List.mem_cons_self, hfirm, hnames⟩
      · obtain ⟨hk, hboth⟩ := List.mem_filter.mp hk
        exact ⟨List.mem_cons_of_mem _ hk, Bool.and_eq_true_iff.mp hboth⟩
    obtain ⟨i, hi, hx⟩ := hahead k hmem.1 hmem.2.1 hmem.2.2
    unfold reachedLeg
    rw [hi, hr, ha]
    simpa using hx
  unfold pointsFailed
  rw [hheld]
  dsimp only
  rw [hshort]
  dsimp only
  rw [hleg]
  dsimp only
  rw [hnone]

end

/-- Settles O43: the table, and then what the node's state asks of the own claims. -/
theorem pointsStored : Obligations.PointsStored := by
  intro src n s hkind hfrom hwf e
  have hexec := exec_points_carriage hkind hfrom hwf
  have hpresent (hfailed : n.state = .failed) : exec (.points src n) s = .next (pointsFailed src (noticed src n s)) :=
    hexec.trans (congrArg Host.Outcome.next (if_pos hfailed))
  refine ⟨fun hunnamed hhold => ?stored, fun hfailed o hheld hfirm hleg hstate _ => ?lost,
    fun hfailed before after o j a r hown hnodup hfirm hleg hnames hbefore ha hphase hr hspan hahead hwithin hfew => ?pulled,
    fun hfailed sp o hspan hheld hin hst hfew hwithin => ?aborted, fun hworks hhold => ?cleared⟩
  case stored =>
    have hstored : exec (.points src n) s = .next (noticed src n s) := by
      rw [hexec, presentPoints_of_unnamed (by simpa [pointsEntryOf] using hunnamed) (by simpa [pointsEntryOf] using hhold)]
    refine ⟨fun hknown => ?_, fun hfresh => ⟨fun hroom => ?_, fun hfull hfree => ?_⟩⟩
    · rw [hstored, noticed, storePoints_of_known (by simpa [pointsEntryOf] using hknown), quiet_ov_pointsTab] <;> rfl
    · rw [hstored, noticed, storePoints_of_room (by simpa [pointsEntryOf] using hfresh) (by simpa using hroom), quiet_ov_pointsTab] <;> rfl
    · have hfree' : ∃ k ∈ (quiet s).ov.pointsTab, pointsInUse (quiet s) k.node = false := by
        simpa [pointsInUse_congr (quiet_ce s ▸ rfl : (quiet s).ce.own = s.ce.own)] using hfree
      have huse (y : Addr) : pointsInUse (quiet s) y = pointsInUse s y := pointsInUse_congr (by rw [quiet_ce]) y
      obtain ⟨v, hmem, hvfree, hage, hstore⟩ := storePoints_of_full (e := e) (s := quiet s) (by simpa using hfresh)
        (by simpa using hfull) (by simpa [huse] using hfree)
      simp only [huse, quiet_ov_pointsTab] at hmem hvfree hage
      refine ⟨noticed src n s, v, hstored, hmem, hvfree, hage, ?_⟩
      have hnoticed : noticed src n s = _ := hstore
      rw [hnoticed, State.setOv_ov, quiet_ov_pointsTab]
  case lost =>
    obtain ⟨hfault, hrecord, hlost⟩ := pointsFailed_lost (x := src) (s := noticed src n s) (by simpa using hheld) hfirm
      (reachedLeg_eq_true (by simpa using hleg)) (by simpa using hstate)
    exact ⟨_, hpresent hfailed, hfault, hrecord, by simpa using hlost⟩
  case pulled =>
    have hwithin' : headWithin before (noticed src n s) :=
      headWithin_congr hwithin (noticed_os src n s) (noticed_pu src n s) (noticed_cs_comm src n s)
    have hown' : (noticed src n s).ce.own = before ++ o :: after := by simpa using hown
    have hnodup' : ((noticed src n s).ce.own.map OwnClaim.seg).Nodup := by simpa using hnodup
    have hpull := pointsFailed_pulls (x := src) hown' hnodup' hfirm hleg hnames hbefore (by simpa using ha) hphase
      (by simpa using hr) (by simpa using hspan) hahead hwithin' (by simpa using hfew)
    obtain ⟨-, hleft, hactive, hhold, hattempts, hrecord, hbackoff, hcs, hframes⟩ := pullBack_parts (x := src) (j := j) hown' hnodup'
      (by simpa using hspan) (by simpa using ha) hphase hwithin' (by simpa using hfew)
    rw [noticed_ce] at hattempts hrecord hbackoff
    rw [noticed_tli_addr] at hbackoff
    rw [noticed_tli_clash] at hframes
    exact ⟨_, (hpresent hfailed).trans (by rw [hpull]), hleft, hactive, hhold, hattempts, hrecord, hbackoff,
      (congrArg Supervisor.state hcs).trans (noticed_cs_state src n s), hframes⟩
  case aborted =>
    set u := (noticed src n s).setCe { (noticed src n s).ce with failedHold := some src } with hu
    have hspan' : u.ce.span = some sp := by rw [hu]; simpa using hspan
    have hout : outsideSpan u = outsideSpan s := by
      unfold outsideSpan spanSegs
      rw [hu, State.setCe_ce, noticed_ce]
    have hwithin' : headWithin (outsideSpan u) u := by
      rw [hout]
      exact headWithin_congr hwithin (noticed_os src n s) (noticed_pu src n s) (noticed_cs_comm src n s)
    obtain ⟨hnone, hown, hrecord, hattempts, hhold, hcs⟩ := spanAbort_few (reason := .pointsFailed) (seg := o.seg) (rival := src)
      hspan' hwithin' rfl (by rw [hu]; simpa using hfew)
    refine ⟨_, (hpresent hfailed).trans ?_, hnone, hown.trans hout, hrecord, hattempts.trans ?_, hhold.trans rfl,
      (congrArg Supervisor.state hcs).trans ?_⟩
    · rw [pointsFailed_aborts (s := noticed src n s) (by simpa using hspan) (by simpa using hheld) hin hst]
    · rw [hu, State.setCe_ce, noticed_ce]
    · rw [hu, State.setCe_cs, noticed_cs_state]
  case cleared =>
    exact ⟨_, hexec, presentPoints_hold (by exact hworks) (by simpa [pointsEntryOf] using hhold)⟩

end Sys2Proof.Machine
end

section
/-! The blocking test, the conditions of an acquisition, and the legs of a span (R27, R28, R42 to R45). -/

namespace Sys2Proof.Machine

open Sys2Proof

/-! ## The blocking test (R28) -/

theorem compatible_iff {d₁ d₂ : Dir} {c₁ c₂ : Bool} : compatible d₁ c₁ d₂ c₂ = true ↔ c₁ = true ∧ c₂ = true ∧ d₁ = d₂ := by
  simp [compatible, and_assoc]

theorem outranks_iff {c₁ c₂ : Nat} {a₁ a₂ : Addr} : outranks c₁ a₁ c₂ a₂ = true ↔ c₁ < c₂ ∨ (c₁ = c₂ ∧ a₁ < a₂) := by
  simp [outranks]

/-- The rank of an entry is no worse than another's. -/
def ranksFirst (e f : ClaimEntry) : Prop := e.cls < f.cls ∨ (e.cls = f.cls ∧ e.holder ≤ f.holder)

theorem ranksFirst_refl (e : ClaimEntry) : ranksFirst e e := .inr ⟨rfl, Nat.le_refl _⟩

theorem ranksFirst_trans {e f g : ClaimEntry} (h : ranksFirst e f) (h' : ranksFirst f g) : ranksFirst e g := by
  rcases h with h | ⟨h, ha⟩ <;> rcases h' with h' | ⟨h', ha'⟩
  · exact .inl (Nat.lt_trans h h')
  · exact .inl (h' ▸ h)
  · exact .inl (h ▸ h')
  · exact .inr ⟨h.trans h', Nat.le_trans ha ha'⟩

theorem ranksFirst_of_outranks {e f : ClaimEntry} (h : outranks e.cls e.holder f.cls f.holder = true) : ranksFirst e f :=
  (outranks_iff.mp h).imp_right fun ⟨hc, ha⟩ => ⟨hc, Nat.le_of_lt ha⟩

theorem ranksFirst_of_not_outranks {e f : ClaimEntry} (h : ¬ outranks e.cls e.holder f.cls f.holder = true) : ranksFirst f e := by
  rw [outranks_iff, not_or, not_and, Nat.not_lt] at h
  obtain ⟨hc, ha⟩ := h
  rcases Nat.lt_or_eq_of_le hc with hlt | heq
  · exact .inl hlt
  · exact .inr ⟨heq, Nat.le_of_not_lt (ha heq.symm)⟩

theorem bestRank_spec (l : List ClaimEntry) : (bestRank l = none ↔ l = []) ∧
    ∀ b, bestRank l = some b → b ∈ l ∧ ∀ f ∈ l, ranksFirst b f := by
  induction l with
  | nil => exact ⟨⟨fun _ => rfl, fun _ => rfl⟩, fun b hb => nomatch hb⟩
  | cons e rest ih =>
    obtain ⟨hnone, hsome⟩ := ih
    unfold bestRank
    cases hrest : bestRank rest with
    | none =>
      refine ⟨⟨fun h => (nomatch h), fun h => (nomatch h)⟩, fun b hb => ?_⟩
      obtain rfl := Option.some.inj hb
      rw [hnone.mp hrest]
      exact ⟨List.mem_cons_self, fun f hf => List.mem_singleton.mp hf ▸ ranksFirst_refl _⟩
    | some f =>
      obtain ⟨hmem, hbest⟩ := hsome f hrest
      dsimp only
      split
      case isTrue h =>
        refine ⟨⟨fun h => (nomatch h), fun h => (nomatch h)⟩, fun b hb => ?_⟩
        obtain rfl := Option.some.inj hb
        exact ⟨List.mem_cons_of_mem _ hmem, List.forall_mem_cons.mpr ⟨ranksFirst_of_outranks h, hbest⟩⟩
      case isFalse h =>
        refine ⟨⟨fun h => (nomatch h), fun h => (nomatch h)⟩, fun b hb => ?_⟩
        obtain rfl := Option.some.inj hb
        exact ⟨List.mem_cons_self, List.forall_mem_cons.mpr ⟨ranksFirst_refl _, fun k hk =>
          ranksFirst_trans (ranksFirst_of_not_outranks h) (hbest k hk)⟩⟩

theorem blocks_iff {d : Dir} {c : Bool} {cls : Nat} {a : Addr} {e : ClaimEntry} : blocks d c cls a e = true ↔
    ¬(c = true ∧ e.convoy = true ∧ d = e.dir) ∧
    (e.st = .firm ∨ e.st = .standing ∨ e.stale = true ∨ e.cls < cls ∨ (e.cls = cls ∧ e.holder < a)) := by
  have hfirm : firmState e.st = true ↔ e.st = .firm ∨ e.st = .standing := by cases e.st <;> simp [firmState]
  unfold blocks
  rw [Bool.and_eq_true, Bool.not_eq_true', ← Bool.not_eq_true, compatible_iff, Bool.or_eq_true, Bool.or_eq_true, hfirm, outranks_iff,
    or_assoc, or_assoc]

/-- What the blocking test answers: the holder of the blocking entry with the best rank. -/
theorem blockedBy_spec (s : State) (g : Seg) (d : Dir) (c : Bool) (cls : Nat) :
    (blockedBy s g d c cls = none ↔ ∀ e ∈ s.ov.claims, e.seg = g → ¬ blocks d c cls s.tli.addr e = true) ∧
    ∀ h, blockedBy s g d c cls = some h → ∃ e ∈ s.ov.claims, e.seg = g ∧ blocks d c cls s.tli.addr e = true ∧ e.holder = h ∧
      ∀ f ∈ s.ov.claims, f.seg = g → blocks d c cls s.tli.addr f = true → ranksFirst e f := by
  obtain ⟨hnone, hsome⟩ := bestRank_spec (s.ov.claims.filter (fun e => decide (e.seg = g) && blocks d c cls s.tli.addr e))
  refine ⟨?_, fun h hh => ?_⟩
  · rw [blockedBy, Option.map_eq_none_iff, hnone, List.filter_eq_nil_iff]
    simp
  · obtain ⟨e, he, rfl⟩ := Option.map_eq_some_iff.mp hh
    obtain ⟨hmem, hbest⟩ := hsome e he
    obtain ⟨hclaim, hboth⟩ := List.mem_filter.mp hmem
    obtain ⟨hseg, hblocks⟩ := Bool.and_eq_true_iff.mp hboth
    refine ⟨e, hclaim, of_decide_eq_true hseg, hblocks, rfl, fun f hf hfseg hfblocks => ?_⟩
    exact hbest f (List.mem_filter.mpr ⟨hf, by rw [decide_eq_true hfseg, hfblocks]; rfl⟩)

/-! ## The conditions of R42 -/

theorem firstLegHeld_eq_false {a : ActiveOrder} {s : State} : firstLegHeld s a = false ↔
    ∀ l, legAt a.ord.legs a.nextClaim = some l → ∀ e ∈ s.ce.own, e.seg ≠ l.seg := by
  unfold firstLegHeld
  cases legAt a.ord.legs a.nextClaim with
  | none => simp
  | some l => simp [← Option.not_isSome_iff_eq_none, ownOn]

theorem remaining_le_iff {x : Int} {n : Nat} {s : State} : remaining s x ≤ n ↔
    (((s.ce.firmEnd.getD 0 - (cfg s).margin : Nat) : Int)) - x ≤ (n : Int) := by
  have hend : (authorityEnd s).getD 0 = s.ce.firmEnd.getD 0 - (cfg s).margin := by
    unfold authorityEnd
    cases s.ce.firmEnd with
    | none => exact (Nat.zero_sub _).symm
    | some f => rfl
  rw [remaining, hend]
  exact Int.toNat_le

theorem acquisitionReady_iff {a : ActiveOrder} {s : State} (ha : s.os.active = some a) :
    acquisitionReady s = true ↔ ∃ r, s.pu.route = some r ∧ s.cs.state = .running ∧ a.phase = .underway ∧
      s.ce.span = none ∧ s.ce.backoff = none ∧ a.nextClaim ≤ a.ord.legs.length ∧ s.cs.latch = none ∧
      s.ov.listen = none ∧ s.tli.silent = false ∧ s.ce.own.length < 12 ∧ s.ce.failedHold = none ∧
      (s.ce.exempt = true ∨ (((s.ce.firmEnd.getD 0 - (cfg s).margin : Nat) : Int) - r.x ≤ ((lookahead s : Nat) : Int))) ∧
      (∀ l, legAt a.ord.legs a.nextClaim = some l → ∀ e ∈ s.ce.own, e.seg ≠ l.seg) := by
  unfold acquisitionReady
  rw [ha]
  cases hr : s.pu.route with
  | none => simp
  | some r =>
    simp only [Bool.and_eq_true, decide_eq_true_eq, Option.isNone_iff_eq_none, Bool.not_eq_true', Bool.or_eq_true,
      remaining_le_iff, firstLegHeld_eq_false, and_assoc, Option.some.injEq, exists_eq_left']
    exact Iff.rfl

/-! ## The legs of a span (R44) -/

/-- The legs taken by a prefix that stops at the first to fail. -/
theorem takeWhile_take_spec {α : Type} (p : α → Bool) (n : Nat) (l : List α) :
    let k := ((l.take n).takeWhile p).length
    (l.take n).takeWhile p = l.take k ∧ k ≤ n ∧ (k = n ∨ l.length ≤ k ∨ ∃ x, l[k]? = some x ∧ p x = false) := by
  intro k
  have hprefix : (l.take n).takeWhile p <+: l := (List.takeWhile_prefix _).trans (List.take_prefix n l)
  have hle : k ≤ (l.take n).length := (List.takeWhile_prefix _).length_le
  refine ⟨List.prefix_iff_eq_take.mp hprefix, hle.trans (List.length_take_le _ _), ?_⟩
  rcases hrest : (l.take n).dropWhile p with _ | ⟨x, rest⟩
  · have hall : (l.take n).takeWhile p = l.take n := by
      have h := List.takeWhile_append_dropWhile (p := p) (l := l.take n)
      rwa [hrest, List.append_nil] at h
    have hk : k = min n l.length := by
      show ((l.take n).takeWhile p).length = _
      rw [hall, List.length_take]
    rcases Nat.le_total n l.length with h | h
    · exact .inl (hk.trans (Nat.min_eq_left h))
    · exact .inr (.inl (Nat.le_of_eq (hk.trans (Nat.min_eq_right h)).symm))
  · refine .inr (.inr ⟨x, ?_, ?_⟩)
    · have h := List.takeWhile_append_dropWhile (p := p) (l := l.take n)
      have hx : (l.take n)[k]? = some x := by
        rw [← h, hrest, List.getElem?_append_right (Nat.le_refl _), Nat.sub_self]
        rfl
      have hkn : k < n := by
        obtain ⟨hlt, -⟩ := List.getElem?_eq_some_iff.mp hx
        exact Nat.lt_of_lt_of_le hlt (List.length_take_le _ _)
      rwa [List.getElem?_take_of_lt hkn] at hx
    · have hhead := List.head?_dropWhile_not p (l.take n)
      rw [hrest] at hhead
      simpa using hhead

theorem chooseSpan_spec (a : ActiveOrder) (limit : Nat) (s : State) :
    let legs := chooseSpan a limit s
    let next := a.nextClaim - 1 + legs.length
    legs = (a.ord.legs.drop (a.nextClaim - 1)).take legs.length ∧ legs.length ≤ 4 ∧ legs.length ≤ limit ∧
    legs.length ≤ 12 - s.ce.own.length ∧ (∀ l ∈ legs, ∀ e ∈ s.ce.own, e.seg ≠ l.seg) ∧
    (legs.length = 4 ∨ legs.length = limit ∨ 12 ≤ s.ce.own.length + legs.length ∨ a.ord.legs.length ≤ next ∨
      ∃ l, a.ord.legs[next]? = some l ∧ ∃ e ∈ s.ce.own, e.seg = l.seg) := by
  intro legs next
  obtain ⟨htake, hle, hstop⟩ := takeWhile_take_spec (fun l : Leg => (ownOn s l.seg).isNone)
    (min Config.spanMax (min limit (Config.ownCap - s.ce.own.length))) (a.ord.legs.drop (a.nextClaim - 1))
  have hbound : legs.length ≤ min 4 (min limit (12 - s.ce.own.length)) := hle
  obtain ⟨hfour, hrest⟩ := Nat.le_min.mp hbound
  obtain ⟨hlimit, hroom⟩ := Nat.le_min.mp hrest
  refine ⟨htake, hfour, hlimit, hroom, fun l hl => ?_, ?_⟩
  · have hnone := List.mem_takeWhile_imp hl
    exact ownOn_eq_none_iff.mp (Option.isNone_iff_eq_none.mp hnone)
  · rcases hstop with h | h | ⟨l, hl, hheld⟩
    · have hlen : legs.length = min 4 (min limit (12 - s.ce.own.length)) := h
      rcases Nat.le_total (min limit (12 - s.ce.own.length)) 4 with h4 | h4
      · rw [Nat.min_eq_right h4] at hlen
        rcases Nat.le_total limit (12 - s.ce.own.length) with h5 | h5
        · exact .inr (.inl (hlen.trans (Nat.min_eq_left h5)))
        · exact .inr (.inr (.inl (by omega)))
      · exact .inl (hlen.trans (Nat.min_eq_left h4))
    · refine .inr (.inr (.inr (.inl ?_)))
      rw [List.length_drop] at h
      exact Nat.sub_le_iff_le_add'.mp h
    · refine .inr (.inr (.inr (.inr ⟨l, ?_, ?_⟩)))
      · rwa [List.getElem?_drop] at hl
      · by_contra hnone
        refine Bool.false_ne_true (hheld.symm.trans (Option.isNone_iff_eq_none.mpr (ownOn_eq_none_iff.mpr fun e he hseg => ?_)))
        exact hnone ⟨e, he, hseg⟩

/-! ## The local check (R45) -/

theorem firstBlocked_eq_none {cls : Nat} {s : State} {legs : List Leg} (p : Nat)
    (h : ∀ l ∈ legs, blockedBy s l.seg l.dir l.convoy cls = none) : firstBlocked cls s p legs = none := by
  induction legs generalizing p with
  | nil => rfl
  | cons l rest ih =>
    obtain ⟨hl, hrest⟩ := List.forall_mem_cons.mp h
    rw [firstBlocked, hl]
    exact ih (p + 1) hrest

theorem firstBlocked_eq_some {cls : Nat} {s : State} {legs : List Leg} {i : Nat} {l : Leg} {h : Addr} (p : Nat)
    (hl : legs[i]? = some l) (hblocked : blockedBy s l.seg l.dir l.convoy cls = some h)
    (hclear : ∀ m ∈ legs.take i, blockedBy s m.seg m.dir m.convoy cls = none) :
    firstBlocked cls s p legs = some (p + i, l.seg, h) := by
  induction legs generalizing p i with
  | nil => simp at hl
  | cons m rest ih =>
    cases i with
    | zero =>
      obtain rfl := Option.some.inj hl
      rw [firstBlocked, hblocked] <;> rfl
    | succ i =>
      rw [List.take_succ_cons] at hclear
      obtain ⟨hm, hrest⟩ := List.forall_mem_cons.mp hclear
      rw [firstBlocked, hm]
      dsimp only
      rw [ih (p + 1) (by simpa using hl) hrest, Nat.add_assoc, Nat.add_comm 1 i]

end Sys2Proof.Machine
end

section
/-! A span opened: announced, or aborted at the local check (R44 to R46, R57 to R59). -/

namespace Sys2Proof.Machine

open Sys2Proof

/-! ## The announcement (R46) -/

section
variable (cls oid : Nat)

/-- The POINTS-ASK of one leg, if it has points. -/
def askForLeg (l : Leg) (s : State) : State :=
  match l.points with
  | none => s
  | some p => offer .ce false (.ask p.node l.seg) (.pointsAsk p.node p.pos cls oid) s

theorem queueAsks_cons (l : Leg) (rest : List Leg) (s : State) :
    queueAsks cls oid (l :: rest) s = queueAsks cls oid rest (askForLeg cls oid l s) := rfl

theorem blank_askForLeg (l : Leg) (s : State) : blank (askForLeg cls oid l s) = blank s := by
  unfold askForLeg
  split
  · rfl
  · exact blank_offer ..

theorem askForLeg_framesStay (l : Leg) (s : State) : FramesStay s (askForLeg cls oid l s) := by
  unfold askForLeg
  split
  · exact .refl s
  · exact offer_framesStay _ _ _ s rfl

theorem blank_queueAsks (legs : List Leg) (s : State) : blank (queueAsks cls oid legs s) = blank s := by
  induction legs generalizing s with
  | nil => rfl
  | cons l rest ih => exact (ih _).trans (blank_askForLeg cls oid l s)

theorem queueAsks_framesStay (legs : List Leg) (s : State) : FramesStay s (queueAsks cls oid legs s) := by
  induction legs generalizing s with
  | nil => exact .refl s
  | cons l rest ih => exact (ih _).after (askForLeg_framesStay cls oid l s)

theorem queueAsks_queued {legs : List Leg} {l : Leg} {p : PointsRef} {s : State} (hclash : s.tli.clash = false) (hl : l ∈ legs)
    (hp : l.points = some p) : queued (.pointsAsk p.node p.pos cls oid) (queueAsks cls oid legs s) := by
  induction legs generalizing s with
  | nil => cases hl
  | cons m rest ih =>
    rw [queueAsks_cons]
    rcases List.mem_cons.mp hl with rfl | hl
    · have hmem := offer_mem (b := .ce) (tag := .ask p.node l.seg) (f := .pointsAsk p.node p.pos cls oid) hclash rfl
      have hask : askForLeg cls oid l s = offer .ce false (.ask p.node l.seg) (.pointsAsk p.node p.pos cls oid) s := by
        unfold askForLeg
        rw [hp]
      rw [hask]
      exact queued_of_mem (queueAsks_framesStay cls oid rest _ _ hmem rfl rfl)
    · exact ih ((clash_of_blank (blank_askForLeg cls oid m s)).trans hclash) hl

end

/-- The state of a span announced, its frames apart. -/
def spanAnnounced (a : ActiveOrder) (legs : List Leg) (s : State) : State :=
  (withOwn (s.ce.own ++ spanEntries a.nextClaim legs) (s.setCe
    { s.ce with exempt := false,
                span := some { first := a.nextClaim, count := legs.length, phase := .contest, announced := false,
                               window := none, pointsWait := none, attempt := s.ce.attempts + 1, acked := [] } })).setOs
    { s.os with active := some { a with nextClaim := a.nextClaim + legs.length } }

section
variable {a : ActiveOrder} {legs : List Leg} {s : State}

theorem announce_parts (ha : s.os.active = some a) (hlegs : legs ≠ [])
    (hwithin : headWithin (s.ce.own ++ spanEntries a.nextClaim legs) s) :
    let t := announce a legs s
    t.ce.span = some ⟨a.nextClaim, legs.length, .contest, false, none, none, s.ce.attempts + 1, []⟩ ∧
    t.ce.own = s.ce.own ++ spanEntries a.nextClaim legs ∧ t.ce.exempt = false ∧
    t.os.active = some { a with nextClaim := a.nextClaim + legs.length } ∧
    (s.tli.clash = false →
      queued (.claim a.ord.cls (cfg s).refresh ((spanEntries a.nextClaim legs).map itemOf)) t ∧
      (∀ l ∈ legs, ∀ p, l.points = some p → queued (.pointsAsk p.node p.pos a.ord.cls a.ord.id) t)) := by
  intro t
  set s₁ := s.setCe
    { s.ce with exempt := false,
                span := some { first := a.nextClaim, count := legs.length, phase := .contest, announced := false,
                               window := none, pointsWait := none, attempt := s.ce.attempts + 1, acked := [] } } with hs₁
  set s₂ := setNextClaim (a.nextClaim + legs.length) (setOwn (s.ce.own ++ spanEntries a.nextClaim legs) s₁) with hs₂
  set s₃ := queueClaim .announcement a.ord.cls (spanEntries a.nextClaim legs) s₂ with hs₃
  set s₄ := queueAsks a.ord.cls a.ord.id legs s₃ with hs₄
  have hset : blank (setOwn (s.ce.own ++ spanEntries a.nextClaim legs) s₁) =
      blank (withOwn (s.ce.own ++ spanEntries a.nextClaim legs) s₁) := blank_setOwn _ _
  have hblank₂ : blank s₂ = blank (spanAnnounced a legs s) := by
    rw [hs₂, setNextClaim_eq]
    have h := blank_congr (F := fun u => u.setOs { u.os with active := u.os.active.map (fun b =>
      { b with nextClaim := a.nextClaim + legs.length }) }) (fun _ => rfl) hset
    refine h.trans ?_
    show blank ((withOwn (s.ce.own ++ spanEntries a.nextClaim legs) s₁).setOs { s.os with active := s.os.active.map _ }) = _
    rw [ha]
    rfl
  have hblank : blank s₄ = blank (spanAnnounced a legs s) := by
    rw [hs₄, blank_queueAsks, hs₃, blank_queueClaim, hblank₂]
  have hover : t = s₄ := by
    refine overrunTest_of_within s₄ fun r f hr hf => hwithin r f ?_ ?_
    · rwa [pu_of_blank hblank] at hr
    · rwa [ce_of_blank hblank] at hf
  have hce := ce_of_blank hblank
  rw [hover]
  refine ⟨congrArg ClaimEngine.span hce, congrArg ClaimEngine.own hce, congrArg ClaimEngine.exempt hce,
    congrArg OrderStore.active (os_of_blank hblank), fun hclash => ⟨?_, fun l hl p hp => ?_⟩⟩
  · have hne : spanEntries a.nextClaim legs ≠ [] := by
      rw [← List.length_pos_iff, spanEntries_length]
      exact List.length_pos_iff.mpr hlegs
    have hclash₂ : s₂.tli.clash = false := (clash_of_blank hblank₂).trans hclash
    have hcfg : cfg s₂ = cfg s := by rw [cfg, cfg, cs_of_blank hblank₂] <;> rfl
    have hmem := queueClaim_mem (g := .announcement) (c := a.ord.cls) hclash₂ hne
    rw [hcfg] at hmem
    exact queued_of_mem (queueAsks_framesStay _ _ legs s₃ _ hmem rfl rfl)
  · exact queueAsks_queued _ _ ((clash_of_blank ((blank_queueClaim ..).trans hblank₂)).trans hclash) hl hp

end

/-! ## The local check that fails (R45, R57 to R59) -/

theorem abortAtCheck_parts {reason : AbortReason} {g : Seg} {rival : Addr} {pos : Nat} {s : State} (hspan : s.ce.span = none)
    (hfew : s.ce.attempts + 1 < 8) :
    let t := abortAtCheck reason g rival pos s
    t.ce.span = none ∧ t.ce.own = s.ce.own ∧ t.os = s.os ∧ t.tli = s.tli ∧ t.ce.attempts = s.ce.attempts + 1 ∧
    t.ce.spanLimit = (if shrinks reason = true ∧ 2 ≤ pos then min s.ce.spanLimit (pos - 1) else s.ce.spanLimit) ∧
    t.ce.abort = some ⟨reason, g, rival, s.ce.attempts + 1, (s.os.active.map (fun a => a.ord.id)).getD 0⟩ ∧
    t.ce.backoff = some ⟨0, 250 * (s.ce.attempts + 1) + 15 * s.tli.addr⟩ := by
  intro t
  have ht : t = testTrigger (backedOff reason pos (recordAbort reason g rival (s.ce.attempts + 1)
      (s.setCe { s.ce with exempt := false }))) := by
    show testTrigger (countAttempt reason pos _) = _
    rw [countAttempt_eq, if_pos (by exact hfew)] <;> rfl
  rw [ht, testTrigger_eq]
  exact ⟨hspan, rfl, rfl, rfl, rfl, rfl,
    congrArg (fun n => some (⟨reason, g, rival, s.ce.attempts + 1, n⟩ : AbortRec)) (activeId_eq s), rfl⟩

section
variable {a : ActiveOrder} {s : State} (hkind : s.tli.kind = .carriage)
include hkind

theorem exec_spanAcquisitionStart_idle (hready : acquisitionReady s = false) :
    exec .spanAcquisitionStart s = .next (s.setCe { s.ce with triggered := false }) := by
  have hready' : acquisitionReady (s.setCe { s.ce with triggered := false }) = false := hready
  show execSpanAcquisitionStart s = _
  rw [execSpanAcquisitionStart, onKind_of_eq _ hkind]
  dsimp only
  rw [hready', if_neg Bool.false_ne_true]

theorem exec_spanAcquisitionStart_ready (ha : s.os.active = some a) (hready : acquisitionReady s = true) :
    exec .spanAcquisitionStart s = .next (openSpan a (s.setCe { s.ce with triggered := false })) := by
  have hready' : acquisitionReady (s.setCe { s.ce with triggered := false }) = true := hready
  show execSpanAcquisitionStart s = _
  rw [execSpanAcquisitionStart, onKind_of_eq _ hkind]
  dsimp only
  rw [hready', if_pos rfl, State.setCe_os, ha]

end

/-- Settles O46: the blocking test, the conditions, the legs taken, and the local check by its answer. -/
theorem spanOpened : Obligations.SpanOpened := by
  refine ⟨⟨fun d₁ d₂ c₁ c₂ => compatible_iff, fun s g d c cls => ?blocking⟩,
    fun a s ha => ⟨acquisitionReady_iff ha, fun limit => chooseSpan_spec a limit s⟩,
    fun a s hkind ha => ⟨exec_spanAcquisitionStart_idle hkind, fun hready => ?opened⟩⟩
  case blocking =>
    intro blocking
    have hiff (e : ClaimEntry) : blocking e ↔ e ∈ s.ov.claims ∧ e.seg = g ∧ blocks d c cls s.tli.addr e = true := by
      rw [blocks_iff]
    obtain ⟨hnone, hsome⟩ := blockedBy_spec s g d c cls
    refine ⟨hnone.trans (forall_congr' fun e => ?_), fun h hh => ?_⟩
    · rw [hiff]
      exact ⟨fun h ⟨he, hg, hb⟩ => h he hg hb, fun h he hg hb => h ⟨he, hg, hb⟩⟩
    · obtain ⟨e, he, hg, hb, hholder, hbest⟩ := hsome h hh
      refine ⟨e, (hiff e).mpr ⟨he, hg, hb⟩, hholder, fun f hf => ?_⟩
      obtain ⟨hf, hfg, hfb⟩ := (hiff f).mp hf
      exact hbest f hf hfg hfb
  case opened =>
    intro n limit legs
    obtain ⟨r, -, -, -, hspan, -⟩ := (acquisitionReady_iff ha).mp hready
    have hexec := exec_spanAcquisitionStart_ready hkind ha hready
    set u := attemptAt a.nextClaim (s.setCe { s.ce with triggered := false }) with hu
    rw [attemptAt_eq] at hu
    have hn : u.ce.attempts = n := by rw [hu]; rfl
    have hlimit : u.ce.spanLimit = limit := by rw [hu]; rfl
    have hlegs : chooseSpan a u.ce.spanLimit u = legs := by
      rw [hlimit, hu]
      rfl
    have hspan' : u.ce.span = none := by rw [hu]; exact hspan
    have hown : u.ce.own = s.ce.own := by rw [hu]; rfl
    have hos : u.os = s.os := by rw [hu]; rfl
    have htli : u.tli = s.tli := by rw [hu]; rfl
    have hov : u.ov = s.ov := by rw [hu]; rfl
    have hcfg : cfg u = cfg s := by rw [hu]; rfl
    have hblocked (l : Leg) : blockedBy u l.seg l.dir l.convoy a.ord.cls = blockedBy s l.seg l.dir l.convoy a.ord.cls := by
      rw [blockedBy, blockedBy, hov, htli]
    have hopen : openSpan a (s.setCe { s.ce with triggered := false }) =
        if u.ov.viewFull then abortAtCheck .viewFull ((legs.map Leg.seg).headD 0) 0 0 u
        else match firstBlocked a.ord.cls u 1 legs with
          | some (p, g, h) => abortAtCheck .localConflict g h p u
          | none => announce a legs u := by
      rw [← hlegs] <;> rfl
    rw [hopen, hov] at hexec
    refine ⟨fun hview hne hclear hwithin => ?_, fun hfew => ⟨fun hview => ?_, fun i l h hview hl hblock hclear => ?_⟩⟩
    · have hclear' : firstBlocked a.ord.cls u 1 legs = none :=
        firstBlocked_eq_none 1 fun l hl => (hblocked l).trans (hclear l hl)
      rw [hview, hclear'] at hexec
      have hwithin' : headWithin (u.ce.own ++ spanEntries a.nextClaim legs) u := by
        rw [hown]
        exact headWithin_congr hwithin hos (by rw [hu]; rfl) (by rw [hu]; rfl)
      obtain ⟨hsp, hlist, hexempt, hactive, hframes⟩ := announce_parts (s := u) (by rw [hos]; exact ha) hne hwithin'
      rw [hn] at hsp
      rw [hown] at hlist
      rw [htli, hcfg] at hframes
      exact ⟨_, hexec, hsp, hlist, hexempt, hactive, hframes⟩
    · rw [hview] at hexec
      obtain ⟨hsp, hlist, hos', htli', hattempts, hspanLimit, habort, hbackoff⟩ := abortAtCheck_parts (reason := .viewFull)
        (g := (legs.map Leg.seg).headD 0) (rival := 0) (pos := 0) hspan' (by rw [hn]; exact hfew)
      rw [hn] at hattempts habort hbackoff
      rw [hos, ha] at habort
      rw [htli] at hbackoff
      exact ⟨_, hexec, hsp, hlist.trans hown, hos'.trans hos, htli'.trans htli, hattempts,
        hspanLimit.trans ((if_neg (by simp)).trans hlimit), habort, hbackoff⟩
    · have hfirst := firstBlocked_eq_some (s := u) 1 hl ((hblocked l).trans hblock) fun m hm => (hblocked m).trans (hclear m hm)
      rw [hview, hfirst] at hexec
      obtain ⟨hsp, hlist, hos', htli', hattempts, hspanLimit, habort, hbackoff⟩ := abortAtCheck_parts (reason := .localConflict)
        (g := l.seg) (rival := h) (pos := 1 + i) hspan' (by rw [hn]; exact hfew)
      rw [hn] at hattempts habort hbackoff
      rw [hos, ha] at habort
      rw [htli] at hbackoff
      refine ⟨_, hexec, hsp, hlist.trans hown, hos'.trans hos, htli'.trans htli, hattempts, hspanLimit.trans ?_, habort, hbackoff⟩
      rw [hlimit, Nat.add_sub_cancel_left]
      exact if_congr ⟨fun h => by omega, fun h => ⟨rfl, by omega⟩⟩ rfl rfl

end Sys2Proof.Machine
end

section
/-! The halt latch set on a carriage node, and the equipment inputs (R168, R171). -/

namespace Sys2Proof.Machine

open Sys2Proof

theorem headWithin_of_blank {own : List OwnClaim} {s t : State} (h : blank t = blank s) (hwithin : headWithin own s) :
    headWithin own t := by
  have hs : headWithin own (blank s) := hwithin
  rw [← h] at hs
  exact hs

theorem spanSegs_of_blank {s t : State} (h : blank t = blank s) : spanSegs t = spanSegs s := by
  have ht : spanSegs (blank t) = spanSegs t := rfl
  rw [← ht, h]
  rfl

theorem outsideSpan_of_blank {s t : State} (h : blank t = blank s) : outsideSpan t = outsideSpan s := by
  unfold outsideSpan
  rw [spanSegs_of_blank h, own_of_blank h]

/-! ## The latch -/

/-- The state with the latch set. -/
def latched (src : Addr) (reason : HaltReason) (s : State) : State :=
  s.setCs { s.cs with latch := some { source := src, reason := reason } }

section
variable {src : Addr} {reason : HaltReason} {s : State}

theorem setLatch_of_latched (h : s.cs.latch.isSome = true) : setLatch src reason s = s := if_pos h

section
variable (hlatch : s.cs.latch = none)
include hlatch

theorem setLatch_of_not_running (hstate : s.cs.state ≠ .running) : setLatch src reason s =
    spanAbort .halted ((spanSegs s).headD 0) 0 (latched src reason s) := by
  unfold setLatch
  rw [if_neg (by simp [hlatch])]
  exact congrArg (fun u => spanAbort .halted ((spanSegs u).headD 0) 0 u) (if_neg hstate)

theorem setLatch_of_running (hstate : s.cs.state = .running) : setLatch src reason s =
    spanAbort .halted ((spanSegs (enterState .halted (latched src reason s))).headD 0) 0
      (enterState .halted (latched src reason s)) := by
  unfold setLatch
  rw [if_neg (by simp [hlatch])]
  exact congrArg (fun u => spanAbort .halted ((spanSegs u).headD 0) 0 u) (if_pos hstate)

/-- The latch set outside RUNNING touches the supervisor's latch alone, and the span in flight. -/
theorem setLatch_parts_of_not_running (hstate : s.cs.state ≠ .running)
    (hout : s.ce.span = none ∨ headWithin (outsideSpan s) s) :
    (setLatch src reason s).cs = { s.cs with latch := some ⟨src, reason⟩ } ∧ (setLatch src reason s).pu.known = s.pu.known := by
  rw [setLatch_of_not_running hlatch hstate]
  cases hspan : s.ce.span with
  | none =>
    rw [spanAbort_of_none (s := latched src reason s) hspan]
    exact ⟨rfl, rfl⟩
  | some sp =>
    have hwithin := hout.resolve_left (by simp [hspan])
    obtain ⟨hcs, -, -, -, -, hpu, -⟩ := spanAbort_local_parts (s := latched src reason s) (reason := .halted)
      (seg := (spanSegs s).headD 0) (rival := 0) hspan hwithin rfl
    exact ⟨hcs, (congrArg PosUnit.known hpu).symm⟩

omit hlatch in
/-- What HALTED, entered under the latch, leaves as it was. -/
theorem halted_parts {u : State} (hblank : blank u = blank (entered .halted (latched src reason s))) :
    u.cs = { s.cs with state := .halted, latch := some ⟨src, reason⟩, stopCond := none } ∧
    u.eu = { s.eu with rest := decide (s.eu.demand = 0) && s.pu.standstill, stopTarget := none } ∧ u.cr = s.cr ∧ u.ds = s.ds ∧
    u.ov = s.ov ∧ u.os = s.os ∧ s.pu = { u.pu with timer := s.pu.timer } ∧
    s.ce = { u.ce with refresh := s.ce.refresh, refreshOut := s.ce.refreshOut } :=
  ⟨cs_of_blank hblank, eu_of_blank hblank, (cr_of_blank hblank).trans rfl, (ds_of_blank hblank).trans rfl,
    (ov_of_blank hblank).trans rfl, (os_of_blank hblank).trans rfl,
    congrArg (fun p : PosUnit => { p with timer := s.pu.timer }) (pu_of_blank hblank).symm,
    congrArg (fun c : ClaimEngine => { c with refresh := s.ce.refresh, refreshOut := s.ce.refreshOut }) (ce_of_blank hblank).symm⟩

omit hlatch in
theorem halted_outside {u : State} (hblank : blank u = blank (entered .halted (latched src reason s))) :
    outsideSpan u = outsideSpan s ∧ (headWithin (outsideSpan s) s → headWithin (outsideSpan u) u) := by
  have hown : outsideSpan u = outsideSpan s := by
    rw [outsideSpan_of_blank hblank]
    unfold outsideSpan spanSegs
    rfl
  refine ⟨hown, fun h => ?_⟩
  rw [hown]
  have hwithin : headWithin (outsideSpan s) (entered .halted (latched src reason s)) := headWithin_congr h rfl rfl rfl
  exact headWithin_of_blank hblank hwithin

/-- RUNNING becomes HALTED, with the rest as it then stands, and a span in flight aborts HALTED (R168). -/
theorem setLatch_parts_of_running (hstate : s.cs.state = .running) (hout : s.ce.span = none ∨ headWithin (outsideSpan s) s) :
    let t := setLatch src reason s
    t.cs = { s.cs with state := .halted, latch := some ⟨src, reason⟩, stopCond := none } ∧ t.ce.span = none ∧
    t.eu = { s.eu with rest := decide (s.eu.demand = 0) && s.pu.standstill, stopTarget := none } ∧ t.cr = s.cr ∧ t.ds = s.ds ∧
    t.ov = s.ov ∧ t.ce.attempts = s.ce.attempts ∧ s.pu = { t.pu with timer := s.pu.timer } ∧
    (s.ce.span.isSome = true → t.ce.abort.map AbortRec.reason = some .halted ∧ t.ce.own = outsideSpan s) ∧
    (s.ce.span = none → t.os = s.os ∧ s.ce = { t.ce with refresh := s.ce.refresh, refreshOut := s.ce.refreshOut }) := by
  have hblank : blank (enterState .halted (latched src reason s)) = blank (entered .halted (latched src reason s)) :=
    blank_enterState (by show CarState.halted ≠ s.cs.state; rw [hstate]; exact CarState.noConfusion)
  obtain ⟨hcs, heu, hcr, hds, hov, hos, hpu, hce⟩ := halted_parts hblank
  obtain ⟨hown, hwithin⟩ := halted_outside hblank
  rw [setLatch_of_running hlatch hstate]
  generalize enterState .halted (latched src reason s) = u at *
  clear hblank
  have hspan' : s.ce.span = u.ce.span := (congrArg ClaimEngine.span hce).trans rfl
  have hattempts : s.ce.attempts = u.ce.attempts := (congrArg ClaimEngine.attempts hce).trans rfl
  cases hspan : u.ce.span with
  | none =>
    rw [spanAbort_of_none hspan]
    rw [hspan'] at hout ⊢
    exact ⟨hcs, hspan, heu, hcr, hds, hov, hattempts.symm, hpu, fun h => absurd h (by simp [hspan]), fun _ => ⟨hos, hce⟩⟩
  | some sp =>
    obtain ⟨hcs', heu', hds', hcr', hov', hpu', -, hce'⟩ := spanAbort_local_parts (reason := .halted)
      (seg := (spanSegs u).headD 0) (rival := 0) hspan (hwithin (hout.resolve_left (by simp [hspan', hspan]))) rfl
    refine ⟨hcs'.trans hcs, congrArg ClaimEngine.span hce', heu'.trans heu, hcr'.trans hcr, hds'.trans hds, hov'.trans hov,
      (congrArg ClaimEngine.attempts hce').trans hattempts.symm, ?_, fun _ => ⟨?_, (congrArg ClaimEngine.own hce').trans hown⟩, fun h => ?_⟩
    · exact hpu.trans (congrArg (fun p : PosUnit => { p with timer := s.pu.timer }) hpu')
    · exact (congrArg (fun c : ClaimEngine => c.abort.map AbortRec.reason) hce').trans rfl
    · rw [hspan', hspan] at h
      cases h

end

end

end Sys2Proof.Machine
end

section
/-! The equipment inputs (R171). -/

namespace Sys2Proof.Machine

open Sys2Proof

/-! ## What a fault leaves of the inputs -/

theorem furtherFault_parts (code : FaultCode) (s : State) :
    (furtherFault code s).cs = { s.cs with fault := s.cs.fault.map (fun f => f.add code) } := by
  unfold furtherFault
  dsimp only
  split
  · exact (cs_of_blank (blank_report ..)).trans rfl
  · exact (cs_of_blank (blank_report ..)).trans rfl

theorem raiseFault_eStop (code : FaultCode) (s : State) : (raiseFault code s).cs.eStop = s.cs.eStop ∧
    (raiseFault code s).cs.driveFault = s.cs.driveFault ∧ (raiseFault code s).cs.latch = s.cs.latch := by
  unfold raiseFault
  by_cases h : s.cs.state = .fault
  · rw [raiseFaultAt_of_fault h, furtherFault_parts]
    exact ⟨rfl, rfl, rfl⟩
  · obtain ⟨hcs, -⟩ := firstFault_parts code (headPos s).1 (headPos s).2 s
    rw [raiseFaultAt_of_not_fault h, hcs]
    exact ⟨rfl, rfl, rfl⟩

theorem raiseFault_first {code : FaultCode} {s : State} (h : s.cs.state ≠ .fault) (hstops : stopsJacks code = true) :
    (raiseFault code s).cs.state = .fault ∧ (raiseFault code s).cs.fault.map FaultRec.code = some code ∧
    (raiseFault code s).ds.cmd = .off ∧ (raiseFault code s).eu.brake = .emergency ∧ (raiseFault code s).eu.demand = 0 := by
  obtain ⟨hcs, heu, -, -, -, -, -, -, -, hds⟩ := firstFault_parts code (headPos s).1 (headPos s).2 s
  rw [if_pos hstops] at hds
  unfold raiseFault
  rw [raiseFaultAt_of_not_fault h, hcs, heu, hds]
  exact ⟨rfl, rfl, rfl, rfl, rfl⟩

/-! ## E-STOP -/

/-- What the latch set leaves of the supervisor. -/
theorem setLatch_supervisor {src : Addr} {reason : HaltReason} {s : State}
    (hout : s.ce.span = none ∨ headWithin (outsideSpan s) s) :
    let t := setLatch src reason s
    t.cs.eStop = s.cs.eStop ∧ t.pu.known = s.pu.known ∧ (s.cs.latch = none → t.cs.latch = some ⟨src, reason⟩) ∧
    (s.cs.latch.isSome = true → t.cs.latch = s.cs.latch) ∧ (t.cs.state = .fault ↔ s.cs.state = .fault) ∧
    (s.cs.state ≠ .running → t.cs.state = s.cs.state ∧ t.cs.fault = s.cs.fault) := by
  cases hlatch : s.cs.latch with
  | some l =>
    rw [setLatch_of_latched (by rw [hlatch]; rfl)]
    exact ⟨rfl, rfl, fun h => (nomatch h), fun _ => hlatch, Iff.rfl, fun _ => ⟨rfl, rfl⟩⟩
  | none =>
    by_cases hstate : s.cs.state = .running
    · obtain ⟨hcs, -, -, -, -, -, -, hpu, -⟩ :=
        setLatch_parts_of_running (src := src) (reason := reason) hlatch hstate hout
      refine ⟨by rw [hcs], (congrArg PosUnit.known hpu).symm, fun _ => by rw [hcs], fun h => (nomatch h), ?_,
        fun h => absurd hstate h⟩
      rw [hcs, hstate]
      exact ⟨fun h => (nomatch h), fun h => (nomatch h)⟩
    · obtain ⟨hcs, hknown⟩ := setLatch_parts_of_not_running (src := src) (reason := reason) hlatch hstate hout
      refine ⟨by rw [hcs], hknown, fun _ => by rw [hcs], fun h => (nomatch h), by rw [hcs], fun _ => ?_⟩
      rw [hcs]
      exact ⟨rfl, rfl⟩

/-- The state once an E-STOP has queued its HALT. -/
def halting (s : State) : State :=
  offer .cs false .plain (.halt s.tli.addr .estop) (s.setCs { s.cs with eStop := true })

theorem takeEStop_eq (s : State) : takeEStop s =
    if (setLatch s.tli.addr .estop (halting s)).pu.known then raiseFault .estop (setLatch s.tli.addr .estop (halting s))
    else setLatch s.tli.addr .estop (halting s) := by
  have haddr : (halting s).tli.addr = s.tli.addr := offer_tli_addr ..
  have h : takeEStop s = if located (setLatch (halting s).tli.addr .estop (halting s)) then
      raiseFault .estop (setLatch (halting s).tli.addr .estop (halting s))
    else setLatch (halting s).tli.addr .estop (halting s) := rfl
  rw [h, haddr] <;> rfl

theorem takeEStop_steady (s : State) : Steady (halting s) (takeEStop s) := by
  rw [takeEStop_eq]
  exact .ite (fun _ => (raiseFault_steady _ _).after (setLatch_steady _ _ _)) (fun _ => setLatch_steady _ _ _)

/-- Settles O51: an input that stands, a release, and an assertion by what is known of the position. -/
theorem inputsAsserted : Obligations.InputsAsserted := by
  refine fun s hkind => ⟨?_, ?_, fun h => ?_, fun h => ?_, fun hestop hout => ?estop, fun hdrive => ⟨fun hknown => ?lost, fun hknown hstate => ?raised⟩⟩
  · show execEStopRelease s = _
    rw [execEStopRelease, onKind_of_eq _ hkind]
  · show execDriveFaultRelease s = _
    rw [execDriveFaultRelease, onKind_of_eq _ hkind]
  · show execEStop s = _
    rw [execEStop, onKind_of_eq _ hkind, if_pos h]
  · show execDriveFault s = _
    rw [execDriveFault, onKind_of_eq _ hkind, if_pos h]
  case estop =>
    have hblank : blank (halting s) = blank (s.setCs { s.cs with eStop := true }) := blank_offer ..
    have hcs := cs_of_blank hblank
    have hspan : (halting s).ce.span = s.ce.span := (span_of_blank hblank).trans rfl
    have hout' : (halting s).ce.span = none ∨ headWithin (outsideSpan (halting s)) (halting s) := by
      refine hout.imp hspan.trans fun h => ?_
      have hown : outsideSpan (halting s) = outsideSpan s := by
        rw [outsideSpan_of_blank hblank]
        unfold outsideSpan spanSegs
        rfl
      rw [hown]
      exact headWithin_of_blank hblank (headWithin_congr h rfl rfl rfl)
    obtain ⟨hinput, hknown, hclear, hset, hfault, hstays⟩ :=
      setLatch_supervisor (src := s.tli.addr) (reason := .estop) hout'
    have hknown' : (setLatch s.tli.addr .estop (halting s)).pu.known = s.pu.known :=
      hknown.trans ((congrArg PosUnit.known (pu_of_blank hblank)).trans rfl)
    rw [hcs] at hinput hclear hset hfault hstays
    obtain ⟨hraised, -, hkept⟩ := raiseFault_eStop .estop (setLatch s.tli.addr .estop (halting s))
    refine ⟨takeEStop s, ?_, ?_, fun h => ?_, fun h => ?_, fun hfree => ?_, fun hk hstate => ?_, fun hk hstate => ?_⟩
    · show execEStop s = _
      rw [execEStop, onKind_of_eq _ hkind, hestop, if_neg Bool.false_ne_true]
    · rw [takeEStop_eq]
      split
      · exact hraised.trans hinput
      · exact hinput
    · rw [takeEStop_eq]
      split
      · exact hkept.trans (hclear h)
      · exact hclear h
    · rw [takeEStop_eq]
      split
      · exact hkept.trans (hset h)
      · exact hset h
    · refine (takeEStop_steady s).queued (b := .cs) ?_
      rw [halting, waiting_offer]
      simp [hfree, lasting]
    · have hnot : (setLatch s.tli.addr .estop (halting s)).cs.state ≠ .fault := fun h => hstate (hfault.mp h)
      obtain ⟨hst, hcode, hcmd, hbrake, hdemand⟩ := raiseFault_first (code := .estop) hnot rfl
      rw [takeEStop_eq, hknown', hk, if_pos rfl]
      exact ⟨hst, hcode, hcmd, hbrake, hdemand⟩
    · rw [takeEStop_eq, hknown', hk, if_neg Bool.false_ne_true]
      exact hstays hstate
  case lost =>
    show execDriveFault s = _
    rw [execDriveFault, onKind_of_eq _ hkind, hdrive, if_neg Bool.false_ne_true]
    exact congrArg Host.Outcome.next (if_neg (by show ¬ s.pu.known = true; simp [hknown]))
  case raised =>
    obtain ⟨hst, hcode, hcmd, hbrake, -⟩ := raiseFault_first (code := .driveFault) (s := s.setCs { s.cs with driveFault := true }) hstate rfl
    obtain ⟨-, hinput, hlatch⟩ := raiseFault_eStop .driveFault (s.setCs { s.cs with driveFault := true })
    refine ⟨raiseFault .driveFault (s.setCs { s.cs with driveFault := true }), ?_, hinput, hst, hcode, hcmd, hlatch, hbrake⟩
    show execDriveFault s = _
    rw [execDriveFault, onKind_of_eq _ hkind, hdrive, if_neg Bool.false_ne_true]
    exact congrArg Host.Outcome.next (if_pos hknown)

end Sys2Proof.Machine
end

section
/-! An address clash (R183): the line falls silent, and what the clash leaves is a plain update. -/

namespace Sys2Proof.Machine

open Sys2Proof

/-- The line under the clash: its queues empty, and what is timed to be sent stopped. -/
def fallenSilent (s : State) : State :=
  (((s.setTli { s.tli with clash := true, idle := false, txq := [], kept := [], offerLine := [], keptPosition := none,
                           keptPoints := none }).setCe { s.ce with refresh := none, refreshOut := false }).setPu
    { s.pu with timer := none }).setPa { s.pa with countdown := none }

theorem muted_fallenSilent (s : State) : Muted (fallenSilent s) := ⟨rfl, rfl, rfl, rfl, rfl⟩

theorem addressClash_carriage {s : State} (hkind : s.tli.kind = .carriage) :
    addressClash s = raiseFault .addressClash (fallenSilent s) := by
  unfold addressClash
  dsimp only
  split
  · rfl
  · next h => cases hkind.symm.trans h

theorem report_of_muted {s : State} (h : Muted s) (b : Block) (u : Subject) (o : ReportOutcome) (n : Nat) :
    report b u o n s = s := by
  unfold report
  split
  · rfl
  · exact offer_of_muted h ..

/-- The fault record of a points node once an address clash has been raised. -/
def clashRecord (s : State) : FaultRec :=
  match s.pa.fault with
  | none => { code := .addressClash, seg := pointsSeg s, off := 0, further := 0, last := none, positional := false }
  | some f => f.add .addressClash

theorem addressClash_points {s : State} (hkind : s.tli.kind = .points) : addressClash s =
    ((fallenSilent s).setTs { s.ts with state := .failed, motor := .off, timer := none }).setPa
      { s.pa with countdown := none, grant := none, queue := [], fault := some (clashRecord s) } := by
  have hraise : addressClash s = raisePoints .addressClash (pointsFail (fallenSilent s)) := by
    unfold addressClash
    dsimp only
    split
    · next h => cases hkind.symm.trans h
    · rfl
  have hmuted (p : Arbiter) : Muted ((pointsFail (fallenSilent s)).setPa p) := muted_fallenSilent s
  rw [hraise, raisePoints, report_of_muted (hmuted _)] <;> rfl

/-! ## The line -/

theorem addressClash_tli (s : State) : (addressClash s).tli = (fallenSilent s).tli := by
  cases hkind : s.tli.kind with
  | carriage =>
    rw [addressClash_carriage hkind]
    exact ((raiseFault_steady .addressClash _).muted (muted_fallenSilent s)).1
  | points => rw [addressClash_points hkind] <;> rfl

theorem addressClash_muted (s : State) : Muted (addressClash s) := by
  obtain ⟨hclash, hq, hkept, hline, hout⟩ := muted_fallenSilent s
  unfold Muted
  rw [addressClash_tli]
  refine ⟨hclash, hq, hkept, hline, ?_⟩
  cases hkind : s.tli.kind with
  | carriage =>
    rw [addressClash_carriage hkind]
    exact ((raiseFault_steady .addressClash _).muted (muted_fallenSilent s)).2.2.1
  | points => rw [addressClash_points hkind] <;> rfl

/-! ## The watcher stands apart from the clash (R169, R183) -/

/-- The watcher of a carriage node alone is set. -/
def watching (w : Option Watcher) (s : State) : State := s.setCs { s.cs with watcher := w }

theorem faultGone_watching (w : Option Watcher) (s : State) : faultGone (watching w s) = watching w (faultGone s) := by
  unfold faultGone
  show (match s.ce.span with
    | none => releasedOwn (faultAhead (watching w s)) (watching w s)
    | some sp => _) = _
  cases s.ce.span with
  | none =>
    show releasedOwn (faultAhead s) (watching w s) = watching w (releasedOwn (faultAhead s) s)
    unfold releasedOwn
    by_cases h : ∃ e ∈ s.ce.own, e.seg ∈ faultAhead s
    · refine (if_pos h).trans ?_
      rw [if_pos h]
      rfl
    · refine (if_neg h).trans ?_
      rw [if_neg h]
  | some sp => rfl

theorem faulted_watching (w : Option Watcher) (c : FaultCode) (g : Seg) (m : Mm) (s : State) :
    faulted c g m (watching w s) = watching w (faulted c g m s) := by
  have hmarked : faultMarked c g m (watching w s) = watching w (faultMarked c g m s) := rfl
  unfold faulted
  rw [hmarked, faultGone_watching]
  rfl

theorem furtherFault_of_muted {u : State} (hu : Muted u) : furtherFault .addressClash u =
    u.setCs { u.cs with fault := u.cs.fault.map (fun f => f.add .addressClash) } := by
  have hu' : Muted (u.setCs { u.cs with fault := u.cs.fault.map (fun f => f.add .addressClash) }) := hu
  unfold furtherFault
  dsimp only
  rw [report_of_muted hu']
  exact if_neg Bool.false_ne_true

/-- On a muted line a fault leaves the watcher as it stands. -/
theorem raiseFault_watching {s : State} (hm : Muted s) (w : Option Watcher) :
    raiseFault .addressClash (watching w s) = watching w (raiseFault .addressClash s) := by
  have hm' : Muted (watching w s) := hm
  by_cases hstate : s.cs.state = .fault
  · have hstate' : (watching w s).cs.state = .fault := hstate
    rw [raiseFault, raiseFault, raiseFaultAt_of_fault hstate', raiseFaultAt_of_fault hstate, furtherFault_of_muted hm',
      furtherFault_of_muted hm]
    rfl
  · have hstate' : (watching w s).cs.state ≠ .fault := hstate
    rw [raiseFault, raiseFault, raiseFaultAt_of_not_fault hstate', raiseFaultAt_of_not_fault hstate]
    refine (firstFault_steady _ _ _ _).eq_of_blank hm' ?_ ?_
    · refine Steady.after (.setCs _ _) ((firstFault_steady _ _ _ s).after ?_)
      exact .plain rfl rfl rfl rfl
    · rw [blank_firstFault, show headPos (watching w s) = headPos s from rfl, faulted_watching]
      exact (blank_congr (F := watching w) (fun _ => rfl) (blank_firstFault ..)).symm

theorem addressClash_setWatcher (w : Option Watcher) (s : State) : addressClash (setWatcher w s) = setWatcher w (addressClash s) := by
  have hkind' : (addressClash s).tli.kind = s.tli.kind := addressClash_tli_kind s
  cases hkind : s.tli.kind with
  | carriage =>
    rw [setWatcher_carriage w hkind, setWatcher_carriage w (hkind'.trans hkind), addressClash_carriage hkind,
      addressClash_carriage (s := s.setCs { s.cs with watcher := w }) hkind]
    exact raiseFault_watching (muted_fallenSilent s) w
  | points =>
    rw [setWatcher_points w hkind, setWatcher_points w (hkind'.trans hkind), addressClash_points hkind,
      addressClash_points (s := s.setPa { s.pa with watcher := w }) hkind] <;> rfl

end Sys2Proof.Machine
end

section
/-! A frame with the own address as sender (R183, R185). -/

namespace Sys2Proof.Machine

open Sys2Proof

/-- What a frame with the own address as sender leaves before any block uses it: heard, the watcher disarmed, and the
clash raised. -/
def clashHeard (s : State) : State := addressClash (quiet s)

section
variable {s : State}

theorem hear_own_other (act : State → State) {valid : Bool} (haddr : addrOk s.tli.addr = true) (hvalid : valid = true) :
    hear (addrOk s.tli.addr && valid) s.tli.addr .other act s = act (clashHeard s) := by
  rw [haddr, hvalid]
  exact hear_own ..

theorem console_heard (s : State) : console (heard s) = console s := by simp [console]

theorem setWatcher_setWatcher (v w : Option Watcher) (s : State) : setWatcher w (setWatcher v s) = setWatcher w s := by
  cases hkind : s.tli.kind with
  | carriage => rw [setWatcher_carriage v hkind, setWatcher_carriage w hkind, setWatcher_carriage w (by exact hkind)] <;> rfl
  | points => rw [setWatcher_points v hkind, setWatcher_points w hkind, setWatcher_points w (by exact hkind)] <;> rfl

theorem watcherOf_setWatcher (w : Option Watcher) (s : State) : watcherOf (setWatcher w s) = w := by
  cases hkind : s.tli.kind with
  | carriage =>
    rw [setWatcher_carriage w hkind]
    unfold watcherOf
    split
    · rfl
    · next h => cases hkind.symm.trans h
  | points =>
    rw [setWatcher_points w hkind]
    unfold watcherOf
    split
    · next h => cases hkind.symm.trans h
    · rfl

theorem clashHeard_eq (s : State) : clashHeard s = setWatcher none (addressClash (heard s)) := addressClash_setWatcher ..

/-- The watcher that a frame leaves armed stands behind the clash. -/
theorem addressClash_watching (w : Option Watcher) (s : State) :
    addressClash (setWatcher w (heard s)) = setWatcher w (clashHeard s) := by
  rw [clashHeard_eq, setWatcher_setWatcher, addressClash_setWatcher]

theorem watch_resumeB (src : Addr) (token : Nat) (s : State) : watch src (.resumeB token) s = setWatcher none s := by
  unfold watch watchStep
  dsimp only
  split <;> rfl

@[simp] theorem clashHeard_tli_kind (s : State) : (clashHeard s).tli.kind = s.tli.kind := by simp [clashHeard]
@[simp] theorem clashHeard_tli_addr (s : State) : (clashHeard s).tli.addr = s.tli.addr := by simp [clashHeard]

theorem clashHeard_tli (s : State) : (clashHeard s).tli =
    { s.tli with silence := 0, silent := false, idle := false, clash := true, txq := [], kept := [], offerLine := [],
                 keptPosition := none, keptPoints := none } := by
  rw [clashHeard, addressClash_tli]
  show ({ (quiet s).tli with clash := true, idle := false, txq := [], kept := [], offerLine := [], keptPosition := none,
                             keptPoints := none } : Tli) = _
  rw [quiet_tli]

/-- The carriage under the clash: in FAULT, with the supervisor else as it stood. -/
theorem clashHeard_cs (hkind : s.tli.kind = .carriage) : (clashHeard s).cs.state = .fault ∧
    (clashHeard s).cs.latch = s.cs.latch ∧ (clashHeard s).cs.console = s.cs.console ∧ (clashHeard s).cs.comm = s.cs.comm := by
  have hkind' : (quiet s).tli.kind = .carriage := by simpa using hkind
  rw [clashHeard, addressClash_carriage hkind', raiseFault]
  by_cases h : s.cs.state = .fault
  · rw [raiseFaultAt_of_fault (by simpa [fallenSilent] using h), furtherFault_parts]
    simpa [fallenSilent] using h
  · rw [raiseFaultAt_of_not_fault (by simpa [fallenSilent] using h), (firstFault_parts ..).1]
    simp [fallenSilent]

theorem clashHeard_pa_carriage (hkind : s.tli.kind = .carriage) : (clashHeard s).pa.latch = s.pa.latch := by
  have hkind' : (quiet s).tli.kind = .carriage := by simpa using hkind
  rw [clashHeard, addressClash_carriage hkind']
  simp [fallenSilent]

theorem clashHeard_points (hkind : s.tli.kind = .points) : clashHeard s =
    ((fallenSilent (quiet s)).setTs { s.ts with state := .failed, motor := .off, timer := none }).setPa
      { (quiet s).pa with countdown := none, grant := none, queue := [], fault := some (clashRecord (quiet s)) } := by
  rw [clashHeard, addressClash_points (by simpa using hkind), quiet_ts]

theorem console_clashHeard (s : State) : console (clashHeard s) = console s := by
  have hkind' := clashHeard_tli_kind s
  cases hkind : s.tli.kind with
  | carriage =>
    rw [console_carriage hkind, console_carriage (hkind'.trans hkind)]
    exact (clashHeard_cs hkind).2.2.1
  | points =>
    rw [console_points hkind, console_points (hkind'.trans hkind), clashHeard_points hkind]
    show (quiet s).pa.console = s.pa.console
    rw [quiet_pa]

theorem commissioned_clashHeard (s : State) : commissioned (clashHeard s) = commissioned s := by
  have hkind' := clashHeard_tli_kind s
  unfold commissioned
  rw [hkind']
  cases hkind : s.tli.kind with
  | carriage => exact congrArg Option.isSome (clashHeard_cs hkind).2.2.2
  | points =>
    rw [clashHeard_points hkind]
    exact congrArg Option.isSome (quiet_pa_comm s)

theorem senderOk_clashHeard (src : Addr) (req : Request) (s : State) : senderOk src req (clashHeard s) = senderOk src req s := by
  simp [senderOk, console_clashHeard, commissioned_clashHeard]

theorem countMalformed_clashHeard (s : State) : countMalformed (clashHeard s) = (clashHeard s).setTli
    { (clashHeard s).tli with
      counters := { s.tli.counters with malformed := min (s.tli.counters.malformed + 1) 65535 } } := by
  rw [countMalformed_eq, clashHeard_tli]

theorem countOverflow_clashHeard (s : State) : countOverflow (clashHeard s) = (clashHeard s).setTli
    { (clashHeard s).tli with
      counters := { s.tli.counters with overflow := min (s.tli.counters.overflow + 1) 65535 } } := by
  unfold countOverflow
  rw [clashHeard_tli] <;> rfl

/-- A request of the own address is judged behind the clash (R185, R187). -/
theorem arrive_own {req : Request} (haddr : addrOk s.tli.addr = true) (hwf : req.wf = true) (hfits : fits s.tli.kind req = true) :
    arrive s.tli.addr req s =
      if !senderOk s.tli.addr req s then countMalformed (clashHeard s)
      else if s.tli.inbound.length < 2 then
        (clashHeard s).setTli { (clashHeard s).tli with inbound := s.tli.inbound ++ [⟨s.tli.addr, req⟩] }
      else countOverflow (clashHeard s) := by
  have hne : s.tli.addr ≠ 0 := by
    intro h
    rw [h] at haddr
    cases haddr
  have hvalid : (req.wf && fits s.tli.kind req && decide (s.tli.addr ≠ 0)) = true := by simp [hwf, hfits, hne]
  have hinbound : (clashHeard s).tli.inbound = s.tli.inbound := by rw [clashHeard_tli]
  unfold arrive
  rw [Bool.and_assoc, Bool.and_assoc, ← Bool.and_assoc req.wf, hear_own_other _ haddr hvalid]
  dsimp only
  rw [senderOk_clashHeard, hinbound]
  rfl

theorem clashHeard_span (hkind : s.tli.kind = .carriage) (h : s.cs.state ≠ .fault ∨ s.ce.span = none) :
    (clashHeard s).ce.span = none := by
  have hkind' : (quiet s).tli.kind = .carriage := by simpa using hkind
  rw [clashHeard, addressClash_carriage hkind', raiseFault]
  by_cases hstate : s.cs.state = .fault
  · rw [raiseFaultAt_of_fault (by simpa [fallenSilent] using hstate), furtherFault_of_muted (muted_fallenSilent _)]
    simpa [fallenSilent] using h.resolve_left (fun hne => hne hstate)
  · rw [raiseFaultAt_of_not_fault (by simpa [fallenSilent] using hstate)]
    exact (firstFault_parts ..).2.2.2.2.1

/-- What the clash makes of a carriage not yet in FAULT (R183, R173). -/
theorem clashHeard_faulted (hkind : s.tli.kind = .carriage) (h : s.cs.state ≠ .fault) :
    (clashHeard s).cs.fault.map FaultRec.code = some .addressClash ∧ (clashHeard s).eu.demand = 0 ∧
    (clashHeard s).eu.brake = .emergency ∧ (clashHeard s).os.active = none ∧ (clashHeard s).os.pending = none ∧
    (clashHeard s).ce.refresh = none ∧ (clashHeard s).pu.timer = none := by
  have hkind' : (quiet s).tli.kind = .carriage := by simpa using hkind
  have hstate : (fallenSilent (quiet s)).cs.state ≠ .fault := by simpa [fallenSilent] using h
  rw [clashHeard, addressClash_carriage hkind', raiseFault, raiseFaultAt_of_not_fault hstate]
  obtain ⟨-, hrefresh, -, htimer⟩ := (firstFault_steady .addressClash (headPos (fallenSilent (quiet s))).1
    (headPos (fallenSilent (quiet s))).2 _).muted (muted_fallenSilent (quiet s))
  obtain ⟨hcs, heu, hactive, hpending, -⟩ := firstFault_parts .addressClash (headPos (fallenSilent (quiet s))).1
    (headPos (fallenSilent (quiet s))).2 (fallenSilent (quiet s))
  rw [hcs, heu]
  exact ⟨rfl, rfl, rfl, hactive, hpending, hrefresh, htimer⟩

/-! ## What the blocks make of the frame -/

theorem exec_clearStale_own {h : Addr} (haddr : addrOk s.tli.addr = true) (hh : h ≤ 63) :
    exec (.clearStale s.tli.addr true h) s = .next (
      if console s ≠ some s.tli.addr then countMalformed (clashHeard s)
      else match s.tli.kind with
        | .carriage => clashHeard s
        | .points => withdrawClaim h (clashHeard s)) := by
  have haddr' := clashHeard_tli_addr s
  have hkind' := clashHeard_tli_kind s
  refine next_congr ((if_pos rfl).trans ((hear_own_other _ haddr (decide_eq_true hh)).trans ?_))
  rw [console_clashHeard]
  by_cases hc : console s = some s.tli.addr
  · rw [if_pos hc, if_neg (not_not.mpr hc), clearHolder, hkind', toView, if_pos haddr'.symm] <;> rfl
  · rw [if_neg hc, if_pos hc]

theorem exec_resume_own {token : Nat} (haddr : addrOk s.tli.addr = true) (htoken : token ≤ 65535) :
    exec (.resumeA s.tli.addr token) s =
      .next (setWatcher (if console s = some s.tli.addr then some ⟨s.tli.addr, token, 0⟩ else none) (clashHeard s)) ∧
    exec (.resumeB s.tli.addr token) s = .next (if completes s.tli.addr (.resumeB token) s then
      match s.tli.kind with
      | .carriage => resumeCarriage (clashHeard s)
      | .points => resumePoints (clashHeard s)
      else clashHeard s) := by
  have hvalid : (addrOk s.tli.addr && decide (token ≤ 65535)) = true := by simp [haddr, htoken]
  have hkind' := clashHeard_tli_kind s
  constructor
  · refine next_congr ?_
    rw [hvalid, hear_own, id, watch, addressClash_watching, watchStep, console_heard]
  · refine next_congr ?_
    rw [hvalid, hear_own, watch_resumeB, ← hkind'] <;> rfl

theorem completes_resumeB_iff (src : Addr) (token : Nat) (s : State) :
    completes src (.resumeB token) s = true ↔ ∃ w, watcherOf s = some w ∧ w.sender = src ∧ w.token = token := by
  unfold completes watchStep
  dsimp only
  cases watcherOf s with
  | none => simp
  | some w =>
    simp only [Bool.and_eq_true, decide_eq_true_eq, Option.some.injEq, exists_eq_left']
    exact and_congr eq_comm eq_comm

theorem exec_halt_own {o : Addr} {r : HaltReason} (hkind : s.tli.kind = .carriage) (haddr : addrOk s.tli.addr = true)
    (hspan : s.cs.state ≠ .fault ∨ s.ce.span = none) (ho : addrOk o = true) : exec (.halt s.tli.addr o r) s = .next
      ((clashHeard s).setCs { (clashHeard s).cs with latch := if s.cs.latch.isSome then s.cs.latch else some ⟨o, r⟩ }) := by
  obtain ⟨hstate, hlatch, -⟩ := clashHeard_cs hkind
  have hkind' : (clashHeard s).tli.kind = .carriage := by simpa [clashHeard] using hkind
  have hnone := clashHeard_span hkind hspan
  refine next_congr ((onKind_of_eq _ hkind).trans ((hear_own_other _ haddr ho).trans ?_))
  cases h : s.cs.latch with
  | some l =>
    rw [setLatch_of_latched (by rw [hlatch, h]; rfl)]
    show _ = (clashHeard s).setCs { (clashHeard s).cs with latch := some l }
    rw [← h, ← hlatch] <;> rfl
  | none =>
    rw [setLatch_of_not_running (hlatch.trans h) (by rw [hstate]; exact CarState.noConfusion),
      spanAbort_of_none (s := latched o r (clashHeard s)) hnone] <;> rfl

theorem exec_object_own_other {target : Addr} {g : Seg} {st : ClaimState} (haddr : addrOk s.tli.addr = true)
    (htarget : addrOk target = true) (hg : segOk g = true) (hne : s.tli.kind = .points ∨ target ≠ s.tli.addr) :
    exec (.object s.tli.addr target g st) s = .next (clashHeard s) := by
  have hvalid : (addrOk target && segOk g) = true := by simp [htarget, hg]
  have haddr' := clashHeard_tli_addr s
  refine next_congr ?_
  rw [Bool.and_assoc, hear_own_other _ haddr hvalid]
  cases hkind : s.tli.kind with
  | points => exact onKind_carriage_of_points (by simpa [clashHeard] using hkind)
  | carriage =>
    rw [onKind_of_eq _ (by simpa [clashHeard] using hkind), haddr', if_pos (hne.resolve_left (by simp [hkind]))]

theorem exec_object_own {g : Seg} {st : ClaimState} (hkind : s.tli.kind = .carriage) (haddr : addrOk s.tli.addr = true)
    (hspan : s.cs.state ≠ .fault ∨ s.ce.span = none) (hg : segOk g = true) :
    exec (.object s.tli.addr s.tli.addr g st) s = .next (
      if firmState st && (ownOn (clashHeard s) g).any (fun e => firmState e.st) then raiseClash s.tli.addr g (clashHeard s)
      else clashHeard s) := by
  have hvalid : (addrOk s.tli.addr && segOk g) = true := by simp [haddr, hg]
  have haddr' := clashHeard_tli_addr s
  have hnone := clashHeard_span hkind hspan
  refine next_congr ?_
  rw [Bool.and_assoc, hear_own_other _ haddr hvalid, onKind_of_eq _ (by simpa [clashHeard] using hkind), haddr',
    if_neg (not_not.mpr rfl)]
  cases ownOn (clashHeard s) g with
  | none => simp
  | some e =>
    dsimp only
    rw [spanAbort_of_none hnone, Option.any_some, Bool.and_comm]
    cases firmState e.st <;> rfl

theorem clashHeard_watcher (s : State) : watcherOf (clashHeard s) = none := by
  rw [clashHeard_eq]
  exact watcherOf_setWatcher ..

theorem clashHeard_latches (s : State) : (clashHeard s).cs.latch = s.cs.latch ∧ (clashHeard s).pa.latch = s.pa.latch := by
  cases hkind : s.tli.kind with
  | carriage => exact ⟨(clashHeard_cs hkind).2.1, clashHeard_pa_carriage hkind⟩
  | points =>
    rw [clashHeard_points hkind]
    exact ⟨quiet_cs_latch s, quiet_pa_latch s⟩

theorem clashHeard_pa_comm (s : State) : (clashHeard s).pa.comm = s.pa.comm := by
  cases hkind : s.tli.kind with
  | carriage => rw [clashHeard, addressClash_carriage (by simpa using hkind)]; simp [fallenSilent]
  | points =>
    rw [clashHeard_points hkind]
    exact quiet_pa_comm s

/-- The Occupancy View is handed no frame of the own address (R21). -/
theorem onKind_toView_own (act : State → State) : onKind .carriage (toView s.tli.addr act) (clashHeard s) = clashHeard s := by
  cases hkind : s.tli.kind with
  | carriage => exact (onKind_of_eq _ (by simpa using hkind)).trans (if_pos (clashHeard_tli_addr s).symm)
  | points => exact onKind_carriage_of_points (by simpa using hkind)

theorem clashRecord_of_none (h : s.pa.fault = none) : (clashRecord (quiet s)).code = .addressClash := by
  unfold clashRecord
  rw [quiet_pa_fault, h]

end

/-- Settles O15: the frame is heard, the clash raised on the state it leaves, and the block's use of it follows on that. -/
theorem ownAddressHeard : Obligations.OwnAddressHeard := by
  unfold Obligations.OwnAddressHeard
  intro s haddr own
  have hline := clashHeard_tli s
  obtain ⟨hlatch, hlatch'⟩ := clashHeard_latches s
  have hkind' := clashHeard_tli_kind s
  have haddr' : own = (clashHeard s).tli.addr := (clashHeard_tli_addr s).symm
  refine ⟨clashHeard s, by rw [hline], by rw [hline], by rw [hline], by rw [hline], by rw [hline], by rw [hline],
    clashHeard_watcher s, hlatch, hlatch', addressClash_ov _, addressClash_sv _, ?_, ?_, ?_, ?_, ?_, ⟨?_, ?_⟩, ?_, ?_, ?_, ?_⟩
  case refine_1 =>
    intro hkind hstate
    obtain ⟨hcode, hrest⟩ := clashHeard_faulted hkind hstate
    exact ⟨(clashHeard_cs hkind).1, hcode, hrest⟩
  case refine_2 =>
    intro hkind
    rw [clashHeard_points hkind]
    exact ⟨rfl, rfl, rfl, rfl, rfl, rfl, fun h => congrArg some (clashRecord_of_none h)⟩
  case refine_3 =>
    intro target htarget hne
    refine ⟨next_congr ((if_neg hne).trans (hear_own_other _ haddr htarget)), next_congr ?_⟩
    rw [Bool.and_assoc]
    exact hear_own_other _ haddr (by simp [htarget, hne, own])
  case refine_4 =>
    intro n hn
    exact next_congr ((hear_own_other _ haddr hn).trans (onKind_toView_own _))
  case refine_5 =>
    intro n hn
    exact next_congr ((hear_own_other _ haddr hn).trans (onKind_toView_own _))
  case refine_6 =>
    intro req hwf hfits
    refine ⟨fun hbad => next_congr ?_, fun hok => ⟨fun hroom => next_congr ?_, fun hfull => next_congr ?_⟩⟩
    all_goals rw [arrive_own haddr hwf hfits]
    · rw [hbad, ← countMalformed_clashHeard]
      rfl
    · rw [hok, if_neg (by simp), if_pos hroom]
    · rw [hok, if_neg (by simp), if_neg (by omega), ← countOverflow_clashHeard]
  case refine_7 =>
    intro h hh
    rw [exec_clearStale_own haddr hh, countMalformed_clashHeard] <;> rfl
  case refine_8 =>
    intro token htoken
    obtain ⟨ha, hb⟩ := exec_resume_own haddr htoken
    refine ⟨ha, fun hnot => hb.trans (next_congr (if_neg ?_)), fun w hw hsender htok => hb.trans (next_congr (if_pos ?_))⟩
    · rw [completes_resumeB_iff]
      rintro ⟨w, hw, hsender, htok⟩
      exact (hnot w hw).elim (fun h => h hsender) (fun h => h htok)
    · exact (completes_resumeB_iff ..).mpr ⟨w, hw, hsender, htok⟩
  case refine_9 => exact fun target g st htarget hg hne => exec_object_own_other haddr htarget hg hne
  case refine_10 =>
    intro hkind
    refine ⟨fun c p items hwf => next_congr ?_, fun segs hwf => next_congr ?_, fun h hfront => next_congr ?_, fun hspan =>
      ⟨fun o r ho => exec_halt_own hkind haddr hspan ho, fun g st hg => exec_object_own hkind haddr hspan hg⟩⟩
    · exact (onKind_of_eq _ hkind).trans ((hear_own_other _ haddr hwf).trans (if_pos haddr'))
    · exact (onKind_of_eq _ hkind).trans ((hear_own_other _ haddr hwf).trans (if_pos haddr'))
    · refine (if_neg Bool.false_ne_true).trans ((deliver_of_atFront _ hfront rfl).trans ?_)
      have hcarriage : (taken s).tli.kind = .carriage := hkind
      have hnone : clearHolder own h (taken s) = taken s := by
        rw [clearHolder, hcarriage]
        exact if_pos rfl
      rw [hnone, hcarriage]
  case refine_11 =>
    intro hkind
    refine ⟨fun o r ho => next_congr ?_, fun c p items hwf => next_congr ?_, fun segs hwf => next_congr ?_⟩
    · exact (onKind_of_eq _ hkind).trans (hear_own_other _ haddr ho)
    · exact (onKind_of_eq _ hkind).trans (hear_own_other _ haddr hwf)
    · refine (onKind_of_eq _ hkind).trans ((hear_own_other _ haddr hwf).trans ?_)
      rw [clashHeard_pa_comm]

end Sys2Proof.Machine
end

section
/-! The tests on position after a movement (R112, R114, R116, R140): when each raises its fault, and when it leaves the
state as it is. -/

namespace Sys2Proof.Machine

open Sys2Proof

/-- The carriage stands in FAULT with a code, its route form gone: what a first fault of a moving carriage leaves. -/
def FaultedWith (code : FaultCode) (t : State) : Prop :=
  t.cs.state = .fault ∧ t.cs.fault.map FaultRec.code = some code ∧ t.pu.route = none

theorem not_fault_of_moving {s : State} (h : movingState s.cs.state = true) : s.cs.state ≠ .fault := by
  intro hfault
  rw [hfault] at h
  cases h

section
variable {s : State}

theorem raiseFaultAt_faultedWith (code : FaultCode) (g : Seg) (m : Mm) (h : s.cs.state ≠ .fault) :
    FaultedWith code (raiseFaultAt code g m s) := by
  obtain ⟨hcs, -, -, -, -, -, -, -, ⟨hroute, -⟩, -⟩ := firstFault_parts code g m s
  rw [raiseFaultAt_of_not_fault h]
  exact ⟨by rw [hcs], by rw [hcs] <;> rfl, hroute⟩

theorem raiseFault_faultedWith (code : FaultCode) (h : s.cs.state ≠ .fault) : FaultedWith code (raiseFault code s) :=
  raiseFaultAt_faultedWith code _ _ h

/-! ## Without the route form no test is made -/

section
variable (h : s.pu.route = none)
include h

theorem overrunTest_of_no_route : overrunTest s = s := by unfold overrunTest; rw [h]
theorem tailWatch_of_no_route : tailWatch s = s := by unfold tailWatch; rw [h]
theorem headWatch_of_no_route : headWatch s = s := by unfold headWatch; rw [h]
theorem padWatch_of_no_route : padWatch s = s := by
  unfold padWatch
  split
  · next hr => rw [h] at hr; cases hr
  · rfl

end

/-! ## An order not yet started makes none -/

section
variable (h : started s = none)
include h

theorem overrunTest_of_not_started : overrunTest s = s := by
  unfold overrunTest
  rw [h]
  split
  · exact if_neg (by simp)
  · rfl

theorem padWatch_of_not_started : padWatch s = s := by unfold padWatch; rw [h]

theorem tailWatch_of_not_started : tailWatch s = s := by
  unfold tailWatch
  split
  · next ha => rw [h] at ha; cases ha
  · rfl

theorem headWatch_of_not_started : headWatch s = s := by
  unfold headWatch
  split
  · next ha => rw [h] at ha; cases ha
  · rfl

end

theorem not_started_of_waiting {a : ActiveOrder} (ha : s.os.active = some a) (hphase : a.phase = .waiting) : started s = none :=
  started_of_waiting fun b hb => by
    cases ha.symm.trans hb
    exact hphase

/-! ## The head against the firm end (R140) -/

theorem overrunTest_of_route {r : Route} (hr : s.pu.route = some r) (h : ∀ f, s.ce.firmEnd = some f → r.x ≤ (f : Int)) :
    overrunTest s = s :=
  overrunTest_of_within s fun q f hq hf => by
    cases hr.symm.trans hq
    exact h f hf

theorem overrunTest_of_beyond {r : Route} {a : ActiveOrder} {f : Mm} (hr : s.pu.route = some r) (ha : started s = some a)
    (hf : s.ce.firmEnd = some f) (hmoving : movingState s.cs.state = true) (h : (f : Int) < r.x) :
    overrunTest s = raiseFault .authorityOverrun s := by
  unfold overrunTest
  rw [hr, hf]
  exact if_pos (by simp [hmoving, ha, h])

/-! ## The destination pad (R116) -/

theorem padWatch_of_within {a : ActiveOrder} {r : Route} (ha : s.os.active = some a) (hr : s.pu.route = some r)
    (h : ∀ p, lastPad a.ord = some p → s.pu.padRead.isSome = true ∨ r.x ≤ ((padCoord a.ord p + (cfg s).tol : Nat) : Int)) :
    padWatch s = s := by
  by_cases hphase : a.phase = .waiting
  · exact padWatch_of_not_started (not_started_of_waiting ha hphase)
  unfold padWatch
  rw [started_of_active ha hphase, hr]
  dsimp only
  cases hp : lastPad a.ord with
  | none => rfl
  | some p =>
    refine if_neg fun hmissed => ?_
    obtain ⟨hnone, hlt⟩ := (Bool.and_eq_true ..).mp hmissed
    rcases h p hp with hread | hx
    · rw [Option.isNone_iff_eq_none.mp hnone] at hread
      cases hread
    · exact not_lt.mpr hx (of_decide_eq_true hlt)

theorem padWatch_of_past {a : ActiveOrder} {r : Route} {p : PadSpec} (ha : started s = some a) (hr : s.pu.route = some r)
    (hp : lastPad a.ord = some p) (hread : s.pu.padRead = none)
    (h : ((padCoord a.ord p + (cfg s).tol : Nat) : Int) < r.x) : padWatch s = raiseFault .padMarkerMissed s := by
  unfold padWatch
  rw [ha, hr]
  dsimp only
  rw [hp, hread]
  exact if_pos (by simp only [Option.isNone_none, Bool.true_and]; exact decide_eq_true h)

/-! ## The tail (R114) -/

section
variable {a : ActiveOrder} {r : Route} (ha : started s = some a) (hr : s.pu.route = some r)
include ha hr

theorem tailWatch_of_within (h : tailCoord s r ≤ (((nextTailBoundary a).1 + (cfg s).tol : Nat) : Int)) : tailWatch s = s := by
  unfold tailWatch
  rw [hr, ha]
  exact if_neg (not_lt.mpr h)

theorem tailWatch_of_second_miss (h : (((nextTailBoundary a).1 + (cfg s).tol : Nat) : Int) < tailCoord s r)
    (hdef : s.pu.deferral.isSome = true) :
    tailWatch s = raiseFaultAt .tailMarkersMissed (tailPos s).1 (tailPos s).2 s := by
  unfold tailWatch
  rw [hr, ha]
  exact (if_pos h).trans (if_pos hdef)

theorem tailWatch_of_first_miss (h : (((nextTailBoundary a).1 + (cfg s).tol : Nat) : Int) < tailCoord s r)
    (hdef : s.pu.deferral = none) : tailWatch s =
      (s.setPu { s.pu with deferral := some (nextTailBoundary a).2.1, tailMisses := min (s.pu.tailMisses + 1) 65535 }).setOs
        { s.os with active := some { a with tailLeg := .leg (nextTailBoundary a).2.2, rear := none } } := by
  have hactive : s.os.active = some a := (Option.filter_eq_some_iff.mp ha).1
  unfold tailWatch
  rw [hr, ha]
  refine (if_pos h).trans ((if_neg (by simp [hdef])).trans ?_)
  unfold tailInto
  rw [State.setPu_os, hactive] <;> rfl

/-! ## The head (R112) -/

theorem headWatch_of_within (h : r.x ≤ ((legEnd a.ord.legs a.headLeg + (cfg s).tol : Nat) : Int)) : headWatch s = s := by
  unfold headWatch
  rw [hr, ha]
  exact if_neg (not_lt.mpr h)

theorem headWatch_of_past (h : ((legEnd a.ord.legs a.headLeg + (cfg s).tol : Nat) : Int) < r.x) :
    headWatch s = raiseFault .headMarkerMissed s := by
  unfold headWatch
  rw [hr, ha]
  exact if_pos h

end

/-! ## After a fault none is made -/

theorem FaultedWith.overrunTest {c : FaultCode} (h : FaultedWith c s) : FaultedWith c (overrunTest s) := by
  rw [overrunTest_of_no_route h.2.2]
  exact h

theorem FaultedWith.padWatch {c : FaultCode} (h : FaultedWith c s) : FaultedWith c (padWatch s) := by
  rw [padWatch_of_no_route h.2.2]
  exact h

theorem FaultedWith.tailWatch {c : FaultCode} (h : FaultedWith c s) : FaultedWith c (tailWatch s) := by
  rw [tailWatch_of_no_route h.2.2]
  exact h

end

/-! ## The boundary ahead of the tail (R113, R114) -/

theorem nextTailBoundary_of_rear {a : ActiveOrder} (h : a.tailLeg = .rear) :
    nextTailBoundary a = (0, (a.rear.map Rear.seg).getD 0, 1) := by
  unfold nextTailBoundary
  rw [h]
  cases a.rear <;> rfl

theorem nextTailBoundary_of_leg {a : ActiveOrder} {k : Nat} {l : Leg} (h : a.tailLeg = .leg k)
    (hl : legAt a.ord.legs k = some l) : nextTailBoundary a = (legEnd a.ord.legs k, l.seg, k + 1) := by
  unfold nextTailBoundary
  rw [h]
  dsimp only
  rw [hl]

end Sys2Proof.Machine
end

section
/-! Leading boundary reads (R110, R111). -/

namespace Sys2Proof.Machine

open Sys2Proof

/-- A read repeats the boundary last accepted exactly when it names it, in either order, with the end near it. -/
theorem repeated_iff {last : Option LastRead} {g h : Seg} {x : Int} {tol : Mm} : repeated last g h x tol = true ↔
    ∃ b, last = some b ∧ ((b.first = g ∧ b.second = h) ∨ (b.first = h ∧ b.second = g)) ∧ (x - b.coord).natAbs ≤ tol := by
  cases last with
  | none => simp [repeated]
  | some b => simp [repeated, sameBoundary]

theorem leadPair_iff {legs : List Leg} {k : Nat} {g h : Seg} : leadPair legs k = some (g, h) ↔
    ∃ l m, legAt legs k = some l ∧ legAt legs (k + 1) = some m ∧ l.seg = g ∧ m.seg = h := by
  unfold leadPair
  cases legAt legs k with
  | none => simp
  | some l => cases legAt legs (k + 1) <;> simp

theorem legAt_le_length {legs : List Leg} {k : Nat} {l : Leg} (h : legAt legs k = some l) : k ≤ legs.length := by
  unfold legAt at h
  split at h
  · cases h
  · have := (List.getElem?_eq_some_iff.mp h).1
    omega

section
variable {a : ActiveOrder} {r : Route} {s : State} {g h : Seg} {checkOk : Bool}

theorem exec_leadingBoundaryRead (hkind : s.tli.kind = .carriage) (ha : s.os.active = some a) (hr : s.pu.route = some r) :
    exec (.leadingBoundaryRead checkOk g h) s =
      .next (if checkOk && movingState s.cs.state then readLead a r g h s else s) := by
  refine next_congr ((onKind_of_eq _ hkind).trans ?_)
  rw [hr, ha] <;> rfl

/-- The head on the boundary, its index raised, before the tests of what follows. -/
def leadPut (a : ActiveOrder) (r : Route) (g h : Seg) (s : State) : State :=
  (s.setPu { s.pu with route := some { r with x := ((legEnd a.ord.legs a.headLeg : Nat) : Int),
                                              lastLead := some ⟨g, h, ((legEnd a.ord.legs a.headLeg : Nat) : Int)⟩ },
                       lastCorrection := r.x - (legEnd a.ord.legs a.headLeg : Nat) }).setOs
    { s.os with active := some { a with headLeg := a.headLeg + 1 } }

/-- The order with head and tail each a leg further. -/
def leadCrossed (a : ActiveOrder) : ActiveOrder :=
  { a with headLeg := a.headLeg + 1, tailLeg := .leg (nextTailBoundary a).2.2, rear := none }

theorem acceptLead_eq : acceptLead a r g h s = overrunTest (padWatch (tailWatch (leadPut a r g h s))) := rfl

/-- On a boundary the head is not yet at the destination pad, which lies on the last leg. -/
theorem padWatch_on_boundary {b : ActiveOrder} {q : Route} {t : State} {k : Nat} {l : Leg} (hb : t.os.active = some b)
    (hq : t.pu.route = some q) (hx : q.x = ((legEnd b.ord.legs k : Nat) : Int)) (hl : legAt b.ord.legs (k + 1) = some l) :
    padWatch t = t := by
  refine padWatch_of_within hb hq fun p _ => .inr ?_
  have hmono : legEnd b.ord.legs k ≤ legEnd b.ord.legs (b.ord.legs.length - 1) :=
    legEnd_mono _ (by have := legAt_le_length hl; omega)
  have hpad : legEnd b.ord.legs (b.ord.legs.length - 1) ≤ padCoord b.ord p := Nat.le_add_right _ _
  rw [hx]
  exact_mod_cast hmono.trans (hpad.trans (Nat.le_add_right _ _))

end

/-- Settles O58: the branches of the read in their order, and after an accepted one the tests on position, of which that of
the pad cannot fire on a boundary short of the last leg. -/
theorem leadingReadTaken : Obligations.LeadingReadTaken := by
  unfold Obligations.LeadingReadTaken
  intro checkOk g h a r s hkind ha hr e taken again expected
  have hexec := exec_leadingBoundaryRead (checkOk := checkOk) (g := g) (h := h) hkind ha hr
  have hagain : repeated r.lastLead g h r.x (cfg s).tol = true ↔ again := repeated_iff
  have hexpected : leadPair a.ord.legs a.headLeg = some (g, h) ↔ expected := leadPair_iff
  refine ⟨⟨fun q hrear hq => ?_, fun k l hleg hl => nextTailBoundary_of_leg hleg hl⟩, ?_, fun htaken hnot => ?_⟩
  · rw [nextTailBoundary_of_rear hrear, hq] <;> rfl
  · rintro (hno | hrep)
    · exact (hexec).trans (next_congr (if_neg (by rw [show (checkOk && movingState s.cs.state) = false from hno]; exact Bool.false_ne_true)))
    · rw [hexec]
      split
      · exact next_congr (if_pos (hagain.mpr hrep))
      · rfl
  have hread : exec (.leadingBoundaryRead checkOk g h) s = .next (readLead a r g h s) :=
    (hexec).trans (next_congr (if_pos htaken))
  have hmoving : movingState s.cs.state = true := ((Bool.and_eq_true ..).mp htaken).2
  have hfresh : ¬ repeated r.lastLead g h r.x (cfg s).tol = true := fun hrep => hnot (hagain.mp hrep)
  refine ⟨fun hother => hread.trans (next_congr ?_), fun hexp => ⟨fun hfar => hread.trans (next_congr ?_), fun hnear => ?_⟩⟩
  · exact (if_neg hfresh).trans (if_pos fun hpair => hother (hexpected.mp hpair))
  · exact (if_neg hfresh).trans ((if_neg (not_not.mpr (hexpected.mpr hexp))).trans (if_pos hfar))
  have haccept : exec (.leadingBoundaryRead checkOk g h) s =
      .next (overrunTest (padWatch (tailWatch (leadPut a r g h s)))) :=
    hread.trans (next_congr ((if_neg hfresh).trans
      ((if_neg (not_not.mpr (hexpected.mpr hexp))).trans ((if_neg (not_lt.mpr hnear)).trans acceptLead_eq))))
  obtain ⟨-, m, -, hm, -, -⟩ := hexp
  intro put tailPast faults
  have hmoving' : (leadPut a r g h s).cs.state ≠ .fault := not_fault_of_moving hmoving
  have hstarted (hphase : a.phase ≠ .waiting) :
      started (leadPut a r g h s) = some { a with headLeg := a.headLeg + 1 } := started_of_active rfl hphase
  have hwithin (hclear : ¬ tailPast) : tailWatch (leadPut a r g h s) = leadPut a r g h s := by
    by_cases hphase : a.phase = .waiting
    · exact tailWatch_of_not_started (not_started_of_waiting (a := { a with headLeg := a.headLeg + 1 }) rfl hphase)
    · exact tailWatch_of_within (hstarted hphase) rfl (not_lt.mp hclear)
  have hpad : padWatch (leadPut a r g h s) = leadPut a r g h s :=
    padWatch_on_boundary (b := { a with headLeg := a.headLeg + 1 }) rfl rfl rfl hm
  refine ⟨fun hclear hfirm => ?_, fun hpast hphase hdef hfirm => ?_, fun hpast hphase hdef => ?_, fun f hclear hphase hf hlt => ?_⟩
  · refine ⟨leadPut a r g h s, haccept.trans (next_congr ?_), rfl, rfl, rfl, rfl, rfl⟩
    rw [hwithin hclear, hpad]
    exact overrunTest_of_route rfl hfirm
  · refine ⟨tailWatch (leadPut a r g h s), haccept.trans (next_congr ?_), ?_⟩
    all_goals rw [tailWatch_of_first_miss (hstarted hphase) rfl hpast hdef]
    · rw [padWatch_on_boundary (b := leadCrossed a) (k := a.headLeg) rfl rfl rfl hm]
      exact overrunTest_of_route rfl hfirm
    · exact ⟨rfl, rfl, rfl, rfl, rfl⟩
  · obtain ⟨hstate, hcode, -⟩ : FaultedWith .tailMarkersMissed (overrunTest (padWatch (tailWatch (leadPut a r g h s)))) := by
      rw [tailWatch_of_second_miss (hstarted hphase) rfl hpast hdef]
      exact (raiseFaultAt_faultedWith _ _ _ hmoving').padWatch.overrunTest
    exact ⟨_, haccept, hstate, hcode⟩
  · obtain ⟨hstate, hcode, -⟩ : FaultedWith .authorityOverrun (overrunTest (padWatch (tailWatch (leadPut a r g h s)))) := by
      rw [hwithin hclear, hpad, overrunTest_of_beyond rfl (hstarted hphase) hf hmoving hlt]
      exact raiseFault_faultedWith _ hmoving'
    exact ⟨_, haccept, hstate, hcode⟩

end Sys2Proof.Machine
end

section
/-! Trailing boundary reads (R113, R69), the overrun test and the pad markers (R116, R140). -/

namespace Sys2Proof.Machine

open Sys2Proof

/-- Outside a stretch of the own list lies what comes before it and behind it. -/
theorem filter_outside_part (before mid after : List OwnClaim) {own : List OwnClaim} (hown : own = before ++ mid ++ after)
    (hnodup : (own.map OwnClaim.seg).Nodup) :
    own.filter (fun e => decide (e.seg ∉ mid.map OwnClaim.seg)) = before ++ after := by
  subst hown
  rw [List.map_append, List.map_append, List.nodup_append, List.nodup_append] at hnodup
  obtain ⟨⟨-, -, hbefore⟩, -, hafter⟩ := hnodup
  have hkeep : before.filter (fun e => decide (e.seg ∉ mid.map OwnClaim.seg)) = before :=
    List.filter_eq_self.mpr fun e he => decide_eq_true fun hmem => hbefore _ (List.mem_map_of_mem he) _ hmem rfl
  have hgone : mid.filter (fun e => decide (e.seg ∉ mid.map OwnClaim.seg)) = [] :=
    List.filter_eq_nil_iff.mpr fun e he h => of_decide_eq_true h (List.mem_map_of_mem he)
  have hstay : after.filter (fun e => decide (e.seg ∉ mid.map OwnClaim.seg)) = after :=
    List.filter_eq_self.mpr fun e he => decide_eq_true fun hmem =>
      hafter _ (List.mem_append_right _ hmem) _ (List.mem_map_of_mem he) rfl
  rw [List.filter_append, List.filter_append, hkeep, hgone, hstay, List.append_nil]

/-- The pair that the trailing reader expects, with its boundary and the leg beyond (R113). -/
theorem trailPair_iff {a : ActiveOrder} {g h : Seg} {b : Mm} {k : Nat} : trailPair a = some (g, h, b, k) ↔
    (a.tailLeg = .rear ∧ b = 0 ∧ k = 1 ∧
      ∃ q l, a.rear = some q ∧ legAt a.ord.legs 1 = some l ∧ q.seg = g ∧ l.seg = h) ∨
    (∃ j l m, a.tailLeg = .leg j ∧ b = ((a.ord.legs.take j).map Leg.len).sum ∧ k = j + 1 ∧
      legAt a.ord.legs j = some l ∧ legAt a.ord.legs (j + 1) = some m ∧ l.seg = g ∧ m.seg = h) := by
  unfold trailPair
  cases a.tailLeg with
  | rear =>
    cases a.rear with
    | none => simp
    | some q =>
      cases legAt a.ord.legs 1 with
      | none => simp
      | some l =>
        simp only [Option.some.injEq, Prod.mk.injEq, true_and, reduceCtorEq, false_and, exists_false, or_false]
        constructor
        · rintro ⟨rfl, rfl, rfl, rfl⟩
          exact ⟨rfl, rfl, q, l, rfl, rfl, rfl, rfl⟩
        · rintro ⟨rfl, rfl, q', l', rfl, rfl, rfl, rfl⟩
          exact ⟨rfl, rfl, rfl, rfl⟩
  | leg j =>
    dsimp only
    cases hl : legAt a.ord.legs j with
    | none => simp [hl]
    | some l =>
      cases hm : legAt a.ord.legs (j + 1) with
      | none => simp [hm]
      | some m =>
        simp only [Option.some.injEq, Prod.mk.injEq, reduceCtorEq, false_and, false_or, TailLeg.leg.injEq]
        constructor
        · rintro ⟨rfl, rfl, rfl, rfl⟩
          exact ⟨j, l, m, rfl, rfl, rfl, hl, hm, rfl, rfl⟩
        · rintro ⟨i, l', m', rfl, rfl, rfl, hl', hm', rfl, rfl⟩
          cases hl.symm.trans hl'
          cases hm.symm.trans hm'
          exact ⟨rfl, rfl, rfl, rfl⟩

section
variable {a : ActiveOrder} {r : Route} {s : State} {g h : Seg} {checkOk : Bool}

theorem exec_trailingBoundaryRead (hkind : s.tli.kind = .carriage) (ha : s.os.active = some a) (hr : s.pu.route = some r) :
    exec (.trailingBoundaryRead checkOk g h) s =
      .next (if checkOk && movingState s.cs.state then readTrail a r g h s else s) := by
  refine next_congr ((onKind_of_eq _ hkind).trans ?_)
  rw [hr, ha] <;> rfl

theorem deferredPair_iff : deferredPair g h s = true ↔ ∃ d, s.pu.deferral = some d ∧
    ((d = g ∧ (tailPos s).1 = h) ∨ (d = h ∧ (tailPos s).1 = g)) := by
  unfold deferredPair
  cases s.pu.deferral with
  | none => simp
  | some d => simp [sameBoundary]

/-- The tail on the boundary, as far as the trim is held, its index raised and the deferral cleared. -/
def trailPut (a : ActiveOrder) (r : Route) (g h : Seg) (b : Mm) (k : Nat) (s : State) : State :=
  (s.setPu { s.pu with route := some { r with trim := clampSigned (cfg s).tol (r.trim - (tailCoord s r - b)),
                                              lastTrail := some ⟨g, h, b⟩ },
                       deferral := none }).setOs
    { s.os with active := some { a with tailLeg := .leg k, rear := none } }

theorem acceptTrail_eq (ha : s.os.active = some a) (b : Mm) (k : Nat) :
    acceptTrail r g h b k s = overrunTest (releaseBehind h (trailPut a r g h b k s)) := by
  unfold acceptTrail tailInto
  dsimp only [State.setPu_os]
  rw [ha] <;> rfl

/-- The entries behind the boundary leave with the frames of one release step, and nothing else of note moves (R69, R67). -/
theorem releaseBehind_parts {i : Nat} (hi : s.ce.own.findIdx? (fun e => decide (e.seg = h)) = some i)
    (hnodup : (s.ce.own.map OwnClaim.seg).Nodup) :
    let u := releaseBehind h s
    u.pu = { s.pu with timer := u.pu.timer } ∧ u.os = s.os ∧ u.cs = s.cs ∧ u.eu = s.eu ∧ u.ce.own = s.ce.own.drop i ∧
    (s.tli.clash = false → releasedWith (s.ce.own.take i) [] s u) := by
  intro u
  have hparts : s.ce.own = [] ++ s.ce.own.take i ++ s.ce.own.drop i := (List.take_append_drop ..).symm
  have hu : u = testTrigger (releaseOwn ((s.ce.own.take i).map OwnClaim.seg) s) := by
    show releaseBehind h s = _
    unfold releaseBehind
    rw [hi]
  obtain ⟨f, hf⟩ := blank_releaseOwn_eq ((s.ce.own.take i).map OwnClaim.seg) s
  have hreleased := releaseOwn_releasedWith ((s.ce.own.take i).map OwnClaim.seg) s
  rw [ownOf_part [] _ _ s hparts hnodup] at hreleased
  rw [filter_outside_part [] _ _ hparts hnodup] at hf
  rw [hu, testTrigger_eq]
  exact ⟨(pu_of_blank hf).trans rfl, (os_of_blank hf).trans rfl, (cs_of_blank hf).trans rfl, (eu_of_blank hf).trans rfl,
    own_of_blank hf, hreleased⟩

theorem exec_padMarkerRead {leading : Bool} {pad : Nat} (hkind : s.tli.kind = .carriage) (ha : s.os.active = some a)
    (hr : s.pu.route = some r) : exec (.padMarkerRead checkOk leading pad) s =
      .next (if checkOk && movingState s.cs.state && leading then readPad a r pad s else s) := by
  refine next_congr ((onKind_of_eq _ hkind).trans ?_)
  rw [hr, ha] <;> rfl

/-- The destination pad read on an earlier leg, again, or for the first time (R116). -/
theorem readPad_of_destination {p : PadSpec} (hp : lastPad a.ord = some p) : readPad a r p.id s =
    if a.headLeg ≠ a.ord.legs.length then raiseFault .routeMismatch s
    else if s.pu.padRead.isSome then s
    else (s.setPu { s.pu with padRead := some r.x }).setEu { s.eu with padStop := true } := by
  unfold readPad
  rw [hp]
  exact if_neg (not_not.mpr rfl)

end

/-- Settles O59: the branches of either read in their order; an accepted trailing one is one release step, with the tests on
position before and after it. -/
theorem trailingOrPadRead : Obligations.TrailingOrPadRead := by
  unfold Obligations.TrailingOrPadRead
  refine ⟨fun checkOk g h a r s hkind ha hr => ?_, fun checkOk leading pad a r s hkind ha hr => ⟨?_, ?_⟩⟩
  · intro taken tail again deferred expected wrong
    have hexec := exec_trailingBoundaryRead (checkOk := checkOk) (g := g) (h := h) hkind ha hr
    have hagain : repeated r.lastTrail g h (tailCoord s r) (cfg s).tol = true ↔ again := repeated_iff
    have hdeferred : deferredPair g h s = true ↔ deferred := deferredPair_iff
    have hexpected (b : Mm) (k : Nat) : trailPair a = some (g, h, b, k) ↔ expected b k := trailPair_iff
    refine ⟨?_, fun htaken hnot => ?_, fun f hf => ⟨fun hin => overrunTest_of_route hr fun f' hf' => ?_, fun hlt hmoving hphase =>
      overrunTest_of_beyond hr (started_of_active ha hphase) hf hmoving hlt⟩⟩
    · rintro (hno | hrep)
      · rw [show (checkOk && movingState s.cs.state) = false from hno] at hexec
        exact hexec
      · rw [hexec]
        split
        · exact next_congr (if_pos (hagain.mpr hrep))
        · rfl
    · have hread : exec (.trailingBoundaryRead checkOk g h) s = .next (readTrail a r g h s) :=
        hexec.trans (next_congr (if_pos htaken))
      have hfresh : ¬ repeated r.lastTrail g h (tailCoord s r) (cfg s).tol = true := fun hrep => hnot (hagain.mp hrep)
      refine ⟨fun hdef => hread.trans (next_congr ((if_neg hfresh).trans (if_pos (hdeferred.mpr hdef)))), fun hdef => ?_⟩
      have hclear : readTrail a r g h s = _ := (if_neg hfresh).trans (if_neg fun hd => hdef (hdeferred.mp hd))
      refine ⟨fun hnone => hread.trans (next_congr (hclear.trans ?_)), fun b k hexp => ?_⟩
      · split
        · rfl
        · next eg eh b k hpair =>
          refine if_pos fun heq => ?_
          obtain ⟨rfl, rfl⟩ := Prod.mk.inj heq
          exact hnone b k ((hexpected b k).mp hpair)
      · rw [(hexpected b k).mpr hexp] at hclear
        have hclear := hclear.trans (if_neg (not_not.mpr rfl))
        refine ⟨fun hfar => hread.trans (next_congr (hclear.trans (if_pos hfar))), fun i hnear hi hnodup => ?_⟩
        obtain ⟨hpu, hos, hcs, heu, hown, hreleased⟩ := releaseBehind_parts (s := trailPut a r g h b k s) hi hnodup
        refine ⟨releaseBehind h (trailPut a r g h b k s),
          hread.trans (next_congr (hclear.trans ((if_neg (not_lt.mpr hnear)).trans (acceptTrail_eq ha b k)))),
          (congrArg PosUnit.route hpu).trans rfl, (congrArg OrderStore.active hos).trans rfl,
          (congrArg PosUnit.deferral hpu).trans rfl, hown, hcs, heu, hreleased⟩
    · cases hf.symm.trans hf'
      exact hin
  · intro hno
    refine (exec_padMarkerRead hkind ha hr).trans (next_congr ?_)
    split
    · next htaken =>
      obtain ⟨htaken, hlead⟩ := (Bool.and_eq_true ..).mp htaken
      obtain ⟨hok, hmoving⟩ := (Bool.and_eq_true ..).mp htaken
      rcases hno with h | h | h | h | ⟨p, hp, hne⟩ | ⟨hread, hlast⟩
      · rw [h] at hok; cases hok
      · rw [h] at hlead; cases hlead
      · rw [h] at hmoving; cases hmoving
      · unfold readPad; rw [h]
      · unfold readPad; rw [hp]; exact if_pos hne
      · unfold readPad
        split
        · rfl
        · split
          · rfl
          · rw [if_neg (not_not.mpr hlast)]
    · rfl
  · rintro p rfl rfl hmoving hp rfl
    have hexec := (exec_padMarkerRead (checkOk := true) (leading := true) (pad := p.id) hkind ha hr).trans
      (next_congr ((if_pos (by rw [hmoving]; rfl)).trans (readPad_of_destination hp)))
    refine ⟨fun hearly => hexec.trans (next_congr (if_pos hearly)), fun hlast hread => hexec.trans (next_congr ?_)⟩
    exact (if_neg (not_not.mpr hlast)).trans (if_neg (by simp [hread]))

end Sys2Proof.Machine
end

section
/-! The leader: the question asked of the view, the candidates and the nearest of them (R29, R145 to R149). -/

namespace Sys2Proof.Machine

open Sys2Proof

/-! ## The leader question -/

theorem mem_leaderQuestion {s : State} {o : OwnClaim} {x : Addr} : x ∈ leaderQuestion s o ↔
    ∃ c ∈ s.ov.claims, c.holder = x ∧ c.seg = o.seg ∧ o.convoy = true ∧ c.convoy = true ∧ c.dir = o.dir := by
  unfold leaderQuestion
  rw [mem_ascending, List.mem_map]
  simp only [List.mem_filter, Bool.and_eq_true, decide_eq_true_eq, compatible_iff]
  constructor
  · rintro ⟨c, ⟨hc, hseg, ho, hconvoy, hdir⟩, hx⟩
    exact ⟨c, hc, hx, hseg, ho, hconvoy, hdir.symm⟩
  · rintro ⟨c, hc, hx, hseg, ho, hconvoy, hdir⟩
    exact ⟨c, ⟨hc, hseg, ho, hconvoy, hdir.symm⟩, hx⟩

theorem mem_candidateHolders {a : ActiveOrder} {s : State} {x : Addr} : x ∈ candidateHolders a s ↔
    ∃ o ∈ s.ce.own, x ∈ leaderQuestion s o ∧ ∃ k, o.leg = .leg k ∧ a.headLeg ≤ k ∧ k ≤ a.ord.legs.length := by
  unfold candidateHolders convoyLegs onConvoyLeg
  rw [List.mem_flatMap]
  refine exists_congr fun o => ?_
  rw [List.mem_filter, Bool.and_eq_true, and_assoc, and_congr_right_iff]
  intro _
  constructor
  · rintro ⟨⟨-, hleg⟩, hx⟩
    split at hleg
    · next k hk =>
      obtain ⟨hlo, hhi⟩ := (Bool.and_eq_true ..).mp hleg
      exact ⟨hx, k, hk, of_decide_eq_true hlo, of_decide_eq_true hhi⟩
    · cases hleg
  · rintro ⟨hx, k, hk, hlo, hhi⟩
    obtain ⟨-, -, -, -, hconvoy, -⟩ := mem_leaderQuestion.mp hx
    rw [hk]
    exact ⟨⟨hconvoy, (Bool.and_eq_true ..).mpr ⟨decide_eq_true hlo, decide_eq_true hhi⟩⟩, hx⟩

/-! ## The tail on the route ahead -/

theorem legAt_of_pos {legs : List Leg} {k : Nat} (h : 1 ≤ k) : legAt legs k = legs[k - 1]? := if_neg (by omega)

/-- The first leg at or after one, on a segment. -/
theorem legOnSeg_iff {legs : List Leg} {lo m : Nat} {g : Seg} (hlo : 1 ≤ lo) : legOnSeg legs lo g = some m ↔
    lo ≤ m ∧ (∃ l, legAt legs m = some l ∧ l.seg = g) ∧
      ∀ j h, lo ≤ j → j < m → legAt legs j = some h → h.seg ≠ g := by
  unfold legOnSeg
  rw [Option.map_eq_some_iff]
  simp only [List.findIdx?_eq_some_iff_getElem, decide_eq_true_eq, List.length_drop, List.getElem_drop]
  constructor
  · rintro ⟨i, ⟨hlt, hseg, hbefore⟩, rfl⟩
    refine ⟨by omega, ⟨legs[lo - 1 + i], ?_, hseg⟩, fun j h hj hjm hh hg => ?_⟩
    · rw [legAt_of_pos (by omega), show i + lo - 1 = lo - 1 + i by omega, List.getElem?_eq_getElem]
    · rw [legAt_of_pos (by omega)] at hh
      refine hbefore (j - lo) (by omega) ?_
      obtain ⟨hlen, rfl⟩ := List.getElem?_eq_some_iff.mp hh
      simpa only [show lo - 1 + (j - lo) = j - 1 by omega] using hg
  · rintro ⟨hm, ⟨l, hl, hg⟩, hbefore⟩
    rw [legAt_of_pos (by omega)] at hl
    obtain ⟨hlen, rfl⟩ := List.getElem?_eq_some_iff.mp hl
    refine ⟨m - lo, ⟨by omega, ?_, fun j hj hseg => ?_⟩, by omega⟩
    · simpa only [show lo - 1 + (m - lo) = m - 1 by omega] using hg
    · refine hbefore (lo + j) legs[lo - 1 + j] (by omega) (by omega) ?_ hseg
      rw [legAt_of_pos (by omega), show lo + j - 1 = lo - 1 + j by omega, List.getElem?_eq_getElem]

theorem tailOnRoute_iff {a : ActiveOrder} {e : PosEntry} {t : Mm} (hlo : 1 ≤ a.headLeg) : tailOnRoute a e = some t ↔
    ∃ m g, a.headLeg ≤ m ∧ legAt a.ord.legs m = some g ∧ g.seg = e.tailSeg ∧
      (∀ j h, a.headLeg ≤ j → j < m → legAt a.ord.legs j = some h → h.seg ≠ e.tailSeg) ∧
      t = legStart a.ord.legs m + (if g.dir = .up then min e.tailOff g.len else g.len - min e.tailOff g.len) := by
  have hcoord {m : Nat} {g : Leg} (hg : legAt a.ord.legs m = some g) : coordOf a.ord.legs m e.tailOff =
      legStart a.ord.legs m + (if g.dir = .up then min e.tailOff g.len else g.len - min e.tailOff g.len) := by
    unfold coordOf travelOf
    rw [hg]
    dsimp only
    cases g.dir <;> rfl
  unfold tailOnRoute
  rw [Option.map_eq_some_iff]
  constructor
  · rintro ⟨m, hm, rfl⟩
    obtain ⟨hle, ⟨g, hg, hseg⟩, hbefore⟩ := (legOnSeg_iff hlo).mp hm
    exact ⟨m, g, hle, hg, hseg, hbefore, hcoord hg⟩
  · rintro ⟨m, g, hle, hg, hseg, hbefore, rfl⟩
    exact ⟨m, (legOnSeg_iff hlo).mpr ⟨hle, ⟨g, hg, hseg⟩, hbefore⟩, hcoord hg⟩

/-! ## The candidates and the nearest -/

theorem mem_candidates {a : ActiveOrder} {r : Route} {s : State} {l : Leader} : l ∈ candidates a r s ↔
    ∃ e ∈ s.ov.posTab, e.carriage ∈ candidateHolders a s ∧
      ∃ t, tailOnRoute a e = some t ∧ tailCoord s r < (t : Int) ∧ l = leaderOf r.x e t := by
  unfold candidates
  rw [List.mem_filterMap]
  simp only [List.mem_filter, decide_eq_true_eq, and_assoc]
  refine exists_congr fun e => and_congr_right fun _ => and_congr_right fun _ => ?_
  cases tailOnRoute a e with
  | none => simp
  | some t =>
    by_cases h : tailCoord s r < (t : Int)
    · simp [h, eq_comm]
    · simp [h]

theorem nearest_eq_none_iff {ls : List Leader} : nearest ls = none ↔ ls = [] := by
  cases ls with
  | nil => exact ⟨fun _ => rfl, fun _ => rfl⟩
  | cons e rest =>
    refine ⟨fun h => ?_, fun h => (nomatch h)⟩
    unfold nearest at h
    split at h
    · cases h
    · split at h <;> cases h

/-- The nearest is of the list, and no other lies before it, by coordinate and then by address. -/
theorem nearest_spec {ls : List Leader} {l : Leader} (h : nearest ls = some l) :
    l ∈ ls ∧ ∀ m ∈ ls, l.coord < m.coord ∨ (l.coord = m.coord ∧ l.addr ≤ m.addr) := by
  induction ls generalizing l with
  | nil => cases h
  | cons e rest ih =>
    unfold nearest at h
    split at h
    · next hnone =>
      cases h
      rw [nearest_eq_none_iff.mp hnone]
      refine ⟨List.mem_cons_self, fun m hm => ?_⟩
      rw [List.mem_singleton.mp hm]
      exact .inr ⟨rfl, Nat.le_refl _⟩
    · next f hf =>
      obtain ⟨hmem, hmin⟩ := ih hf
      split at h
      · next hbefore =>
        cases h
        refine ⟨List.mem_cons_of_mem _ hmem, fun m hm => ?_⟩
        rcases List.mem_cons.mp hm with rfl | hm
        · exact hbefore.imp_right fun ⟨hc, ha⟩ => ⟨hc, Nat.le_of_lt ha⟩
        · exact hmin m hm
      · next hnot =>
        cases h
        refine ⟨List.mem_cons_self, fun m hm => ?_⟩
        rcases List.mem_cons.mp hm with rfl | hm
        · exact .inr ⟨rfl, Nat.le_refl _⟩
        · obtain ⟨hcoord, haddr⟩ := not_or.mp hnot
          have hle : e.coord ≤ f.coord := not_lt.mp hcoord
          rcases hmin m hm with hlt | ⟨heq, hadd⟩
          · exact .inl (lt_of_le_of_lt hle hlt)
          · rcases lt_or_eq_of_le hle with hlt | hsame
            · exact .inl (heq ▸ hlt)
            · exact .inr ⟨hsame.trans heq, (Nat.le_of_not_lt fun hl => haddr ⟨hsame.symm, hl⟩).trans hadd⟩

/-- Settles O54: what each stage of the evaluation yields, by the facts about it above. -/
theorem leaderFound : Obligations.LeaderFound := by
  unfold Obligations.LeaderFound
  intro s hkind
  refine ⟨fun hno => ?_, fun o => ⟨ascending_pairwise _, fun x => mem_leaderQuestion⟩, fun a r hstarted hroute hmoving => ?_,
    fun a r l hlo => ?_⟩
  · refine next_congr ((onKind_of_eq _ hkind).trans ?_)
    dsimp only [State.setCr_pu, State.setCr_cs]
    split
    · next a r ha hr =>
      refine if_neg fun hmoving => ?_
      have ha : started s = some a := ha
      rcases hno with h | h | h
      · rw [ha] at h; cases h
      · rw [hr] at h; cases h
      · rw [hmoving] at h; cases h
    · rfl
  · have hexec := exec_leaderEvaluation_moving hkind hstarted hroute hmoving
    have hsame : candidates a r (s.setCr { s.cr with timer := 0 }) = candidates a r s := rfl
    refine ⟨fun hnil => hexec.trans (next_congr ?_), fun hne => ?_⟩
    · rw [evaluateLeader_of_none (by rw [hsame, hnil] <;> rfl)] <;> rfl
    · obtain ⟨l, hl⟩ := Option.ne_none_iff_exists'.mp fun hnone => hne (nearest_eq_none_iff.mp hnone)
      obtain ⟨hmem, hmin⟩ := nearest_spec hl
      obtain ⟨e, -, -, t, -, -, rfl⟩ := mem_candidates.mp hmem
      refine ⟨_, _, hexec, hmem, hmin, ?_⟩
      rw [evaluateLeader_of_some (hsame ▸ hl)]
      exact ⟨rfl, rfl, rfl, rfl, rfl, rfl⟩
  · rw [mem_candidates]
    simp only [mem_candidateHolders]
    refine exists_congr fun e => and_congr_right fun _ => ?_
    constructor
    · rintro ⟨hholder, t, ht, hlt, rfl⟩
      obtain ⟨m, g, hle, hg, hseg, hbefore, rfl⟩ := (tailOnRoute_iff hlo).mp ht
      exact ⟨m, g, hholder, hle, hg, hseg, hbefore, rfl, hlt, rfl⟩
    · rintro ⟨m, g, hholder, hle, hg, hseg, hbefore, hcoord, hlt, hl⟩
      refine ⟨hholder, _, (tailOnRoute_iff hlo).mpr ⟨m, g, hle, hg, hseg, hbefore, rfl⟩, ?_, ?_⟩
      · rw [← hcoord]
        exact hlt
      · rw [hl, hcoord] <;> rfl

end Sys2Proof.Machine
end

section
/-! The target of an evaluation (R134). -/

namespace Sys2Proof.Machine

open Sys2Proof

theorem movingState_iff {st : CarState} : movingState st = true ↔ st = .running ∨ st = .stopping ∨ st = .halted := by
  cases st <;> simp [movingState]

section
variable (s : State)

theorem overspeedTest_eu_plan : (overspeedTest s).eu.permit = s.eu.permit ∧ (overspeedTest s).eu.target = s.eu.target := by
  unfold overspeedTest
  split
  · split
    · exact ⟨rfl, rfl⟩
    · exact ⟨raiseFault_eu_permit .., raiseFault_eu_target ..⟩
  · exact ⟨rfl, rfl⟩

theorem moveDemand_eu_plan : (moveDemand s).eu.permit = s.eu.permit ∧ (moveDemand s).eu.target = s.eu.target := by
  unfold moveDemand
  dsimp only
  rw [testTrigger_eq]
  split
  · exact ⟨restEvent_eu_permit .., restEvent_eu_target ..⟩
  · exact ⟨rfl, rfl⟩

/-- What an evaluation computes stands, whatever follows from it. -/
theorem fullEvaluation_eu_plan : (fullEvaluation s).eu.permit = permitNow s ∧ (fullEvaluation s).eu.target = targetNow s := by
  unfold fullEvaluation
  dsimp only
  split
  · rw [(moveDemand_eu_plan _).1, (moveDemand_eu_plan _).2]
    exact overspeedTest_eu_plan _
  · exact overspeedTest_eu_plan _

end

theorem exec_envelopeEvaluation_moving {gust : Bool} {s : State} (hkind : s.tli.kind = .carriage)
    (hmoving : movingState s.cs.state = true) :
    exec (.envelopeEvaluation gust) s = .next (fullEvaluation (s.setEu { s.eu with gust := gust, timer := 0 })) :=
  next_congr ((onKind_of_eq _ hkind).trans (if_pos hmoving))

/-- The target is held at 0 while a hold cause is present, under STOPPING IMMEDIATE and under the pad stop. -/
theorem targetNow_of_held {s : State} (h : s.tli.silent = true ∨ s.ov.listen.isSome = true ∨ s.cs.latch.isSome = true ∨
    s.cr.hold = true ∨ (s.cs.state = .stopping ∧ s.cs.stopCond = some .immediate) ∨ s.eu.padStop = true) : targetNow s = 0 := by
  refine if_pos ?_
  rcases h with h | h | h | h | ⟨h, h'⟩ | h
  all_goals simp [held, *]

theorem targetNow_of_free {s : State} (h : s.tli.silent = false ∧ s.ov.listen = none ∧ s.cs.latch = none ∧
    s.cr.hold = false ∧ ¬(s.cs.state = .stopping ∧ s.cs.stopCond = some .immediate) ∧ s.eu.padStop = false) :
    targetNow s = permitNow s := by
  obtain ⟨hsilent, hlisten, hlatch, hhold, hstop, hpad⟩ := h
  refine if_neg ?_
  simp only [held, hsilent, hlisten, hlatch, hhold, hpad]
  simpa using hstop

/-- Settles O53: whatever an evaluation leads to, it keeps the permit and the target it computed; and a first read of the
destination pad sets the pad stop alone. -/
theorem targetSet : Obligations.TargetSet := by
  unfold Obligations.TargetSet
  refine ⟨fun gust s hkind hstate => ?_, fun p a r s hkind ha hr hmoving hp hlast hread => ?_⟩
  · obtain ⟨hpermit, htarget⟩ := fullEvaluation_eu_plan (s.setEu { s.eu with gust := gust, timer := 0 })
    refine ⟨_, exec_envelopeEvaluation_moving hkind (movingState_iff.mpr hstate), hpermit, fun h => ?_, fun h => ?_⟩
    · exact htarget.trans (targetNow_of_held h)
    · have hplan := targetNow_of_free (s := s.setEu { s.eu with gust := gust, timer := 0 }) h
      exact (htarget.trans hplan).trans hpermit.symm
  · refine ⟨_, (exec_padMarkerRead hkind ha hr).trans (next_congr ((if_pos (by rw [hmoving]; rfl)).trans
      ((readPad_of_destination hp).trans ((if_neg (not_not.mpr hlast)).trans (if_neg (by simp [hread])))))), rfl⟩

end Sys2Proof.Machine
end

section
/-! Odometry: the distances of the batches, and what a batch leaves before and behind the tests on position (R106 to R108). -/

namespace Sys2Proof.Machine

open Sys2Proof

/-- One batch takes from count and residual a whole distance, and leaves the rest. -/
theorem odometry_split (scale residual : Nat) (n : Int) :
    65536 * (odometry scale residual n).1 + ((odometry scale residual n).2 : Int) = n * scale + residual ∧
    (odometry scale residual n).2 < 65536 := by
  unfold odometry
  dsimp only
  generalize n * scale + residual = v
  omega

/-- However the counts fall into batches, the distances sum to the floor of the whole. -/
theorem foldl_odometry (scale : Nat) (counts : List Int) : ∀ (start : Nat) (before : Int), start < 65536 →
    let run := counts.foldl (fun (acc : Int × Nat) n =>
      (acc.1 + (odometry scale acc.2 n).1, (odometry scale acc.2 n).2)) (before, start)
    run.1 = before + (counts.sum * scale + start) / 65536 ∧ (run.2 : Int) = (counts.sum * scale + start) % 65536 := by
  induction counts with
  | nil =>
    intro start before hstart
    simp only [List.foldl_nil, List.sum_nil, zero_mul]
    omega
  | cons n rest ih =>
    intro start before hstart
    obtain ⟨hsplit, hlt⟩ := odometry_split scale start n
    obtain ⟨hsum, hrest⟩ := ih (odometry scale start n).2 (before + (odometry scale start n).1) hlt
    simp only [List.foldl_cons]
    rw [hsum, hrest, List.sum_cons, Int.add_mul]
    generalize n * (scale : Int) = v at *
    generalize rest.sum * (scale : Int) = w at *
    omega

section
variable {s : State}

/-! ## The batch counted -/

/-- The batch in the residual, the window and the standstill state; a speed ends the rest. -/
def counted (d : Int) (res : Nat) (s : State) : State :=
  (s.setPu { s.pu with residual := res, window := (d :: s.pu.window).take 10, stillDist := s.pu.stillDist + d,
                       zeroFor := if ((d :: s.pu.window).take 10).sum ≠ 0 then 0 else s.pu.zeroFor,
                       standstill := s.pu.standstill && !decide (((d :: s.pu.window).take 10).sum ≠ 0) }).setEu
    { s.eu with rest := if ((d :: s.pu.window).take 10).sum ≠ 0 then false else s.eu.rest }

theorem countBatch_eq (d : Int) (res : Nat) (s : State) : countBatch d res s = counted d res s := by
  unfold counted
  unfold countBatch
  dsimp only
  by_cases h : ((d :: s.pu.window).take 10).sum ≠ 0
  · rw [if_pos (decide_eq_true h), if_pos (decide_eq_true h), if_pos h, if_pos h] <;> rfl
  · rw [if_neg fun hd => h (of_decide_eq_true hd), if_neg fun hd => h (of_decide_eq_true hd), if_neg h, if_neg h] <;> rfl

/-! ## The distance applied -/

theorem applyDistance_of_route {r : Route} {a : ActiveOrder} (d : Int) (hr : s.pu.route = some r) (ha : s.os.active = some a) :
    applyDistance d s = s.setPu { s.pu with route := some { r with x := r.x + travelDistance a.ord.lead d } } := by
  unfold applyDistance
  rw [hr, ha]

theorem applyDistance_of_no_route (d : Int) (hr : s.pu.route = none) : applyDistance d s = s.setPu
    { s.pu with endA := s.pu.endA.map (fun e => moveEnd e d), endB := s.pu.endB.map (fun e => moveEnd e d),
                readA := s.pu.readA.map (moveRead d), readB := s.pu.readB.map (moveRead d),
                held := s.pu.held.bind (moveHeld (cfg s).tol d) } := by
  unfold applyDistance
  rw [hr]

/-! ## What the batch leaves of the speed -/

/-- The window and the standstill state of two states are the same. -/
def SameSpeed (s t : State) : Prop :=
  t.pu.window = s.pu.window ∧ t.pu.standstill = s.pu.standstill ∧ t.pu.zeroFor = s.pu.zeroFor

theorem SameSpeed.trans {s t u : State} (h : SameSpeed s t) (k : SameSpeed t u) : SameSpeed s u :=
  ⟨k.1.trans h.1, k.2.1.trans h.2.1, k.2.2.trans h.2.2⟩

theorem SameSpeed.refl (s : State) : SameSpeed s s := ⟨rfl, rfl, rfl⟩

theorem SameSpeed.of_blank {s t u : State} (h : blank t = blank u) (hu : SameSpeed s u) : SameSpeed s t := by
  have hpu := pu_of_blank h
  exact ⟨(congrArg PosUnit.window hpu).trans hu.1, (congrArg PosUnit.standstill hpu).trans hu.2.1,
    (congrArg PosUnit.zeroFor hpu).trans hu.2.2⟩

theorem SameSpeed.ite {p : Prop} [Decidable p] {s t u : State} (ht : SameSpeed s t) (hu : SameSpeed s u) :
    SameSpeed s (if p then t else u) := by
  split
  · exact ht
  · exact hu

theorem raiseFaultAt_sameSpeed (code : FaultCode) (g : Seg) (m : Mm) (s : State) : SameSpeed s (raiseFaultAt code g m s) := by
  by_cases h : s.cs.state = .fault
  · rw [raiseFaultAt_of_fault h]
    unfold furtherFault
    dsimp only
    have hreport := SameSpeed.of_blank (blank_report .cs .fault (.faultRaised code) 0
      (s.setCs { s.cs with fault := s.cs.fault.map (fun f => f.add code) })) ⟨rfl, rfl, rfl⟩
    exact .ite hreport hreport
  · have hfirst := blank_firstFault code g m s
    obtain ⟨f, w, hgone, -⟩ := faultGone_eq (faultMarked code g m s)
    unfold faulted at hfirst
    rw [hgone] at hfirst
    rw [raiseFaultAt_of_not_fault h]
    exact .of_blank hfirst ⟨rfl, rfl, rfl⟩

theorem raiseFault_sameSpeed (code : FaultCode) (s : State) : SameSpeed s (raiseFault code s) := raiseFaultAt_sameSpeed ..

theorem applyDistance_sameSpeed (d : Int) (s : State) : SameSpeed s (applyDistance d s) := by
  unfold applyDistance
  split <;> exact ⟨rfl, rfl, rfl⟩

theorem backwardTest_sameSpeed (d : Int) (s : State) : SameSpeed s (backwardTest d s) := .ite (raiseFault_sameSpeed ..) (.refl s)

theorem stillTest_sameSpeed (s : State) : SameSpeed s (stillTest s) := .ite (raiseFault_sameSpeed ..) (.refl s)

theorem headWatch_sameSpeed (s : State) : SameSpeed s (headWatch s) := by
  unfold headWatch
  split
  · exact .ite (raiseFault_sameSpeed ..) (.refl s)
  · exact .refl s

theorem tailInto_sameSpeed (k : Nat) (s : State) : SameSpeed s (tailInto k s) := by
  unfold tailInto
  split <;> exact ⟨rfl, rfl, rfl⟩

theorem tailWatch_sameSpeed (s : State) : SameSpeed s (tailWatch s) := by
  unfold tailWatch
  split
  · refine .ite (.ite (raiseFaultAt_sameSpeed ..) (SameSpeed.trans ?_ (tailInto_sameSpeed _ _))) (.refl s)
    exact ⟨rfl, rfl, rfl⟩
  · exact .refl s

theorem padWatch_sameSpeed (s : State) : SameSpeed s (padWatch s) := by
  unfold padWatch
  split
  · split
    · exact .ite (raiseFault_sameSpeed ..) (.refl s)
    · exact .refl s
  · exact .refl s

theorem overrunTest_sameSpeed (s : State) : SameSpeed s (overrunTest s) := by
  unfold overrunTest
  split
  · exact .ite (raiseFault_sameSpeed ..) (.refl s)
  · exact .refl s

theorem watches_sameSpeed (s : State) : SameSpeed s (watches s) :=
  (headWatch_sameSpeed s).trans ((tailWatch_sameSpeed _).trans ((tailWatch_sameSpeed _).trans
    ((padWatch_sameSpeed _).trans (overrunTest_sameSpeed _))))

end

end Sys2Proof.Machine
end

section
/-! An odometry batch (R106, R107, R112, R114, R116, R140). -/

namespace Sys2Proof.Machine

open Sys2Proof

section
variable {n : Int} {s : State}

/-- The batch counted and applied, before the tests it meets. -/
def batched (c : CommRec) (n : Int) (s : State) : State :=
  applyDistance (odometry c.scale s.pu.residual n).1
    (counted (odometry c.scale s.pu.residual n).1 (odometry c.scale s.pu.residual n).2 s)

theorem exec_odometryBatch_uncommissioned (hkind : s.tli.kind = .carriage) (hc : s.cs.comm = none) :
    exec (.odometryBatch n) s = .next (counted 0 s.pu.residual s) := by
  refine next_congr ((onKind_of_eq _ hkind).trans ?_)
  rw [hc]
  exact countBatch_eq ..

section
variable {c : CommRec}

theorem exec_odometryBatch (hkind : s.tli.kind = .carriage) (hc : s.cs.comm = some c) : exec (.odometryBatch n) s =
    .next (watches (stillTest (backwardTest (odometry c.scale s.pu.residual n).1 (batched c n s)))) := by
  refine next_congr ((onKind_of_eq _ hkind).trans ?_)
  rw [hc]
  dsimp only
  rw [countBatch_eq] <;> rfl

theorem cfg_of_comm (hc : s.cs.comm = some c) : cfg s = c := by unfold cfg; rw [hc]; rfl

/-- What a batch leaves alone, in either form. -/
theorem batched_parts (c : CommRec) (n : Int) (s : State) :
    let t := batched c n s
    t.cs = s.cs ∧ t.os = s.os ∧ t.ce = s.ce ∧ t.tli = s.tli ∧ t.pu.stillDist = s.pu.stillDist + (odometry c.scale s.pu.residual n).1 ∧
    t.pu.residual = (odometry c.scale s.pu.residual n).2 ∧ t.pu.deferral = s.pu.deferral ∧ t.pu.padRead = s.pu.padRead ∧
    t.pu.tailMisses = s.pu.tailMisses ∧ t.pu.known = s.pu.known := by
  intro t
  have ht : t = applyDistance _ (counted _ _ s) := rfl
  unfold applyDistance at ht
  split at ht <;> rw [ht] <;> exact ⟨rfl, rfl, rfl, rfl, rfl, rfl, rfl, rfl, rfl, rfl⟩

theorem batched_of_no_route (hroute : s.pu.route = none) :
    let d := (odometry c.scale s.pu.residual n).1
    let t := batched c n s
    t.pu.route = none ∧ t.pu.window = (d :: s.pu.window).take 10 ∧ t.pu.endA = s.pu.endA.map (fun e => moveEnd e d) ∧
    t.pu.endB = s.pu.endB.map (fun e => moveEnd e d) ∧ t.pu.held = s.pu.held.bind (moveHeld (cfg s).tol d) := by
  intro d t
  have ht : t = _ := applyDistance_of_no_route (s := counted d (odometry c.scale s.pu.residual n).2 s) d hroute
  rw [ht]
  exact ⟨hroute, rfl, rfl, rfl, rfl⟩

theorem batched_of_route {r : Route} {a : ActiveOrder} (hr : s.pu.route = some r) (ha : s.os.active = some a) :
    (batched c n s).pu.route = some { r with x := r.x + travelDistance a.ord.lead (odometry c.scale s.pu.residual n).1 } := by
  unfold batched
  rw [applyDistance_of_route (s := counted _ _ s) _ hr ha] <;> rfl

/-! ## The tests on the distance (R107) -/

theorem backwardTest_of_no_route (d : Int) (h : s.pu.route = none) : backwardTest d s = s := by
  refine if_neg ?_
  unfold tooFarBack
  rw [h, Bool.and_false]
  exact Bool.false_ne_true

/-- The backward movement of an order, past one of its limits. -/
def movedBack (c : CommRec) (a : ActiveOrder) (td x tail : Int) : Prop :=
  td < 0 ∧ (x < (legStart a.ord.legs a.headLeg : Nat) - c.tol ∨ x < 0 ∨
    ∃ k, a.tailLeg = .leg k ∧ tail < (legStart a.ord.legs k : Nat) - c.tol)

theorem backwardTest_iff {a : ActiveOrder} {r : Route} (d : Int) (ha : s.os.active = some a) (hr : s.pu.route = some r) :
    (backward d s && tooFarBack s) = true ↔
      movedBack (cfg s) a (travelDistance a.ord.lead d) r.x (tailCoord s r) := by
  unfold backward tooFarBack movedBack
  rw [ha, hr]
  dsimp only
  rw [Bool.and_eq_true, decide_eq_true_eq, Bool.or_eq_true, Bool.or_eq_true, decide_eq_true_eq, decide_eq_true_eq, or_assoc]
  refine and_congr_right fun _ => or_congr_right (or_congr_right ?_)
  cases a.tailLeg with
  | rear => simp
  | leg k => simp

theorem stillTest_of_within (h : driftState s.cs.state = false ∨ s.pu.stillDist.natAbs ≤ (cfg s).tol) : stillTest s = s := by
  refine if_neg ?_
  rcases h with h | h
  · simp [h]
  · simp [not_lt.mpr h]

theorem stillTest_of_beyond (h : driftState s.cs.state = true) (hfar : (cfg s).tol < s.pu.stillDist.natAbs) :
    stillTest s = raiseFault .positionDiscrepancy s := if_pos (by simp [h, hfar])

theorem FaultedWith.stillTest {code : FaultCode} (h : FaultedWith code s) : FaultedWith code (stillTest s) := by
  rw [stillTest_of_within (.inl (by rw [h.1]; rfl))]
  exact h

theorem FaultedWith.headWatch {code : FaultCode} (h : FaultedWith code s) : FaultedWith code (headWatch s) := by
  rw [headWatch_of_no_route h.2.2]
  exact h

theorem FaultedWith.watches {code : FaultCode} (h : FaultedWith code s) : FaultedWith code (watches s) :=
  h.headWatch.tailWatch.tailWatch.padWatch.overrunTest

theorem watches_of_no_route (h : s.pu.route = none) : watches s = s := by
  unfold watches
  rw [headWatch_of_no_route h, tailWatch_of_no_route h, tailWatch_of_no_route h, padWatch_of_no_route h,
    overrunTest_of_no_route h]

theorem not_drift_of_moving {st : CarState} (h : movingState st = true) : driftState st = false := by
  cases st <;> simp [movingState, driftState] at h ⊢

/-! ## A batch on the route, past the tests of R107 -/

/-- The order once the tail has passed its next boundary. -/
def tailCrossed (a : ActiveOrder) : ActiveOrder := { a with tailLeg := .leg (nextTailBoundary a).2.2, rear := none }

/-- The tail past its next boundary, the release of the segment behind deferred (R114). -/
def tailDeferred (a : ActiveOrder) (s : State) : State :=
  (s.setPu { s.pu with deferral := some (nextTailBoundary a).2.1, tailMisses := min (s.pu.tailMisses + 1) 65535 }).setOs
    { s.os with active := some (tailCrossed a) }

section
variable {a : ActiveOrder} {r : Route} (ha : started s = some a) (hr : s.pu.route = some r)
include ha hr

omit hr in
theorem started_tailDeferred : started (tailDeferred a s) = some (tailCrossed a) :=
  started_of_active rfl (of_decide_eq_true (Option.filter_eq_some_iff.mp ha).2 : a.phase ≠ .waiting)

/-- The second miss of the tail is raised, whether the first came with an earlier batch or with this (R114). -/
theorem tailWatch_twice_of_second_miss (hstate : s.cs.state ≠ .fault)
    (hpast : (((nextTailBoundary a).1 + (cfg s).tol : Nat) : Int) < tailCoord s r)
    (h : s.pu.deferral.isSome = true ∨ (((nextTailBoundary (tailCrossed a)).1 + (cfg s).tol : Nat) : Int) < tailCoord s r) :
    FaultedWith .tailMarkersMissed (tailWatch (tailWatch s)) := by
  by_cases hdef : s.pu.deferral.isSome = true
  · rw [tailWatch_of_second_miss ha hr hpast hdef]
    exact (raiseFaultAt_faultedWith _ _ _ hstate).tailWatch
  · have hdeferred : tailWatch s = tailDeferred a s := tailWatch_of_first_miss ha hr hpast (by simpa using hdef)
    rw [hdeferred, tailWatch_of_second_miss (s := tailDeferred a s) (started_tailDeferred ha) hr (h.resolve_left hdef) rfl]
    exact raiseFaultAt_faultedWith _ _ _ hstate

theorem watches_of_clear (hx : r.x ≤ ((legEnd a.ord.legs a.headLeg + (cfg s).tol : Nat) : Int))
    (htail : tailCoord s r ≤ (((nextTailBoundary a).1 + (cfg s).tol : Nat) : Int)) :
    watches s = overrunTest (padWatch s) := by
  rw [watches, headWatch_of_within ha hr hx, tailWatch_of_within ha hr htail, tailWatch_of_within ha hr htail]

/-- Past one boundary and short of the next, with nothing else to raise. -/
theorem watches_of_first_miss (hx : r.x ≤ ((legEnd a.ord.legs a.headLeg + (cfg s).tol : Nat) : Int))
    (hpast : (((nextTailBoundary a).1 + (cfg s).tol : Nat) : Int) < tailCoord s r) (hdef : s.pu.deferral = none)
    (hshort : tailCoord s r ≤ (((nextTailBoundary (tailCrossed a)).1 + (cfg s).tol : Nat) : Int))
    (hpad : ∀ p, lastPad a.ord = some p → s.pu.padRead.isSome = true ∨ r.x ≤ ((padCoord a.ord p + (cfg s).tol : Nat) : Int))
    (hfirm : ∀ f, s.ce.firmEnd = some f → r.x ≤ (f : Int)) : watches s = tailDeferred a s := by
  have hdeferred : tailWatch s = tailDeferred a s := tailWatch_of_first_miss ha hr hpast hdef
  rw [watches, headWatch_of_within ha hr hx, hdeferred,
    tailWatch_of_within (s := tailDeferred a s) (started_tailDeferred ha) hr hshort,
    padWatch_of_within (s := tailDeferred a s) (a := tailCrossed a) rfl hr hpad]
  exact overrunTest_of_route (s := tailDeferred a s) hr hfirm

end

end

end

/-- Whatever the batch meets, its distance is in the window, and a speed other than 0 clears the standstill flag (R108). -/
theorem exec_odometryBatch_speed (n : Int) {s : State} (hkind : s.tli.kind = .carriage) :
    let d : Int := match s.cs.comm with
      | none => 0
      | some c => (n * c.scale + s.pu.residual) / 65536
    let sum : Int := ((d :: s.pu.window).take 10).sum
    ∃ t, exec (.odometryBatch n) s = .next t ∧ t.pu.window = (d :: s.pu.window).take 10 ∧
      measuredSpeed t = 10 * sum.natAbs ∧ (sum ≠ 0 → t.pu.standstill = false ∧ t.pu.zeroFor = 0) ∧
      (sum = 0 → t.pu.standstill = s.pu.standstill ∧ t.pu.zeroFor = s.pu.zeroFor) := by
  intro d sum
  obtain ⟨res, t, hexec, hsame⟩ : ∃ res t, exec (.odometryBatch n) s = .next t ∧ SameSpeed (counted d res s) t := by
    cases hc : s.cs.comm with
    | none =>
      have hd : d = 0 := by show (match s.cs.comm with | none => (0 : Int) | some c => _) = 0; rw [hc]
      rw [hd]
      exact ⟨_, _, exec_odometryBatch_uncommissioned hkind hc, .refl _⟩
    | some c =>
      have hd : d = (odometry c.scale s.pu.residual n).1 := by
        show (match s.cs.comm with | none => (0 : Int) | some c => (n * c.scale + s.pu.residual) / 65536) = _
        rw [hc] <;> rfl
      rw [hd]
      exact ⟨_, _, exec_odometryBatch hkind hc, (applyDistance_sameSpeed _ _).trans
        ((backwardTest_sameSpeed _ _).trans ((stillTest_sameSpeed _).trans (watches_sameSpeed _)))⟩
  obtain ⟨hwindow, hstill, hzero⟩ := hsame
  refine ⟨t, hexec, hwindow, ?_, fun hmoves => ⟨?_, ?_⟩, fun hrests => ⟨?_, ?_⟩⟩
  · unfold measuredSpeed
    rw [hwindow, Nat.mul_comm] <;> rfl
  · rw [hstill]
    show (s.pu.standstill && !decide (sum ≠ 0)) = false
    rw [decide_eq_true hmoves, Bool.not_true, Bool.and_false]
  · exact hzero.trans (if_pos hmoves)
  · rw [hstill]
    show (s.pu.standstill && !decide (sum ≠ 0)) = _
    rw [decide_eq_false (not_not.mpr hrests), Bool.not_false, Bool.and_true]
  · exact hzero.trans (if_neg (not_not.mpr hrests))

/-- Settles O56: the batch is counted and applied, the tests follow in their order, and each leaves the state or raises its
fault, behind which the others are not made. -/
theorem batchApplied : Obligations.BatchApplied := by
  unfold Obligations.BatchApplied
  refine ⟨fun s => Nat.mul_comm .., fun n s hkind => ?_, fun n s hkind => ⟨fun hc => ?_, fun c hc => ?_⟩,
    fun a => ⟨nextTailBoundary_of_rear, fun k l hleg hl => nextTailBoundary_of_leg hleg hl⟩, fun scale start counts hstart => ?_⟩
  · exact exec_odometryBatch_speed n hkind
  · exact ⟨_, exec_odometryBatch_uncommissioned hkind hc, rfl, rfl, rfl, rfl, rfl⟩
  · have hcfg : cfg (batched c n s) = c := cfg_of_comm ((congrArg Supervisor.comm (batched_parts c n s).1).trans hc)
    obtain ⟨hcs, hos, hce, htli, hstill, hres, hdef, hread, hmisses, -⟩ := batched_parts c n s
    intro d res faulted
    have hexec : exec (.odometryBatch n) s = .next (watches (stillTest (backwardTest d (batched c n s)))) :=
      exec_odometryBatch hkind hc
    have hfaults {code : FaultCode} (h : FaultedWith code (watches (stillTest (backwardTest d (batched c n s))))) :
        faulted code := ⟨_, hexec, h.1, h.2.1⟩
    refine ⟨fun hroute hin => ?_, fun hdrift hfar => hfaults ?_, fun r a hr ha hphase => ?_⟩
    · obtain ⟨hroute', hwindow, hendA, hendB, hheld⟩ := batched_of_no_route (c := c) (n := n) hroute
      have hquiet : watches (stillTest (backwardTest d (batched c n s))) = batched c n s := by
        rw [backwardTest_of_no_route _ hroute', stillTest_of_within (by rw [hcs, hstill, hcfg]; exact hin),
          watches_of_no_route hroute']
      refine ⟨_, hexec, ?_⟩
      rw [hquiet]
      refine ⟨hres, hwindow, hstill, hendA, hendB, fun h hh => ?_, hcs, hos, hce⟩
      rw [hheld, hh, cfg_of_comm hc]
      rfl
    · have hstate : (batched c n s).cs.state ≠ .fault := by
        rw [hcs]
        intro hf
        rw [hf] at hdrift
        cases hdrift
      refine FaultedWith.watches ?_
      by_cases hback : (backward d (batched c n s) && tooFarBack (batched c n s)) = true
      · rw [show backwardTest d (batched c n s) = raiseFault .positionDiscrepancy (batched c n s) from if_pos hback]
        exact (raiseFault_faultedWith _ hstate).stillTest
      · rw [show backwardTest d (batched c n s) = batched c n s from if_neg hback,
          stillTest_of_beyond (by rw [hcs]; exact hdrift) (by rw [hstill, hcfg]; exact hfar)]
        exact raiseFault_faultedWith _ hstate
    intro td x tail start back
    have ha' : (batched c n s).os.active = some a := by rw [hos]; exact ha
    have hr' : (batched c n s).pu.route = some { r with x := x } := batched_of_route hr ha
    have htail : tailCoord (batched c n s) { r with x := x } = tail := by unfold tailCoord; rw [hcfg]
    have hstarted : started (batched c n s) = some a := started_of_active ha' hphase
    have hback : (backward d (batched c n s) && tooFarBack (batched c n s)) = true ↔ back := by
      rw [backwardTest_iff d ha' hr', htail, hcfg]
      exact Iff.rfl
    refine ⟨fun hstate hb => hfaults (FaultedWith.watches ?_), fun hmoving hnot => ?_⟩
    · rw [show backwardTest d (batched c n s) = raiseFault .positionDiscrepancy (batched c n s) from if_pos (hback.mpr hb)]
      exact (raiseFault_faultedWith _ (by rw [hcs]; exact hstate)).stillTest
    have hmoving' : movingState (batched c n s).cs.state = true := by rw [hcs]; exact hmoving
    have hstate := not_fault_of_moving hmoving'
    have hquiet : stillTest (backwardTest d (batched c n s)) = batched c n s := by
      rw [show backwardTest d (batched c n s) = batched c n s from if_neg fun hb => hnot (hback.mp hb),
        stillTest_of_within (.inl (not_drift_of_moving hmoving'))]
    rw [hquiet] at hfaults hexec
    generalize hw : batched c n s = w at *
    refine ⟨fun hpast => hfaults ?_, fun hx => ?_⟩
    · rw [watches, headWatch_of_past hstarted hr' (by rw [hcfg]; exact hpast)]
      exact (raiseFault_faultedWith _ hstate).tailWatch.tailWatch.padWatch.overrunTest
    have hx' : x ≤ ((legEnd a.ord.legs a.headLeg + (cfg w).tol : Nat) : Int) := by rw [hcfg]; exact hx
    intro b crossed padOk
    have hpad (h : padOk) : ∀ p, lastPad a.ord = some p →
        w.pu.padRead.isSome = true ∨ x ≤ ((padCoord a.ord p + (cfg w).tol : Nat) : Int) := by
      rw [hread, hcfg]
      exact h
    refine ⟨fun hpast => ?_, fun hin => ?_⟩
    · have hpast' : (((nextTailBoundary a).1 + (cfg w).tol : Nat) : Int) < tailCoord w { r with x := x } := by
        rw [htail, hcfg]
        exact hpast
      refine ⟨fun hmiss => hfaults ?_, fun hnone hshort hok hfirm => ⟨_, hexec, ?_⟩⟩
      · rw [watches, headWatch_of_within hstarted hr' hx']
        refine (tailWatch_twice_of_second_miss hstarted hr' hstate hpast' ?_).padWatch.overrunTest
        rw [hdef, htail, hcfg]
        exact hmiss
      · have hshort' : tailCoord w { r with x := x } ≤ (((nextTailBoundary (tailCrossed a)).1 + (cfg w).tol : Nat) : Int) := by
          rw [htail, hcfg]
          exact hshort
        rw [watches_of_first_miss hstarted hr' hx' hpast' (hdef.trans hnone) hshort' (hpad hok) (by rw [hce]; exact hfirm)]
        refine ⟨hr', rfl, ?_, ?_, hcs, hce, htli⟩
        · exact congrArg (fun m => min (m + 1) 65535) hmisses
        · exact congrArg (fun o : OrderStore => { o with active := some (tailCrossed a) }) hos
    · have hclear := watches_of_clear hstarted hr' hx' (by rw [htail, hcfg]; exact hin)
      refine ⟨fun p hp hunread hfar => hfaults ?_, fun hok => ?_⟩
      · rw [hclear, padWatch_of_past hstarted hr' hp (hread.trans hunread) (by rw [hcfg]; exact hfar)]
        exact (raiseFault_faultedWith _ hstate).overrunTest
      · have hpadded : padWatch w = w := padWatch_of_within ha' hr' (hpad hok)
        refine ⟨fun f hf hlt => hfaults ?_, fun hfirm => ⟨_, hexec, ?_⟩⟩
        · rw [hclear, hpadded, overrunTest_of_beyond hr' hstarted (by rw [hce]; exact hf) hmoving' hlt]
          exact raiseFault_faultedWith _ hstate
        · rw [hclear, hpadded, overrunTest_of_route hr' (by rw [hce]; exact hfirm)]
          exact ⟨hr', hres, hdef, hcs, hos, hce, htli⟩
  · obtain ⟨hsum, hrest⟩ := foldl_odometry scale counts start 0 hstart
    exact ⟨hsum.trans (zero_add _), hrest⟩

end Sys2Proof.Machine
end

section
/-! STOP: what the accepted request and the orders that leave with it report, and the condition held (R15, R20, R130). -/

namespace Sys2Proof.Machine

open Sys2Proof

/-! ## The frames of the Order Store -/

theorem waiting_spanAbort_local {reason : AbortReason} {seg : Seg} {rival : Addr} {b : Block} {s : State} (hb : b ≠ .ce)
    (hout : s.ce.span = none ∨ headWithin (outsideSpan s) s) (hcounts : counts reason = false) :
    waiting b (spanAbort reason seg rival s).tli = waiting b s.tli := by
  cases hspan : s.ce.span with
  | none => rw [spanAbort_of_none hspan]
  | some sp =>
    have h : blank (abortSpan reason seg rival s) = blank (aborted reason seg rival sp s) := blank_abortSpan hspan
    obtain ⟨-, -, hpu, -, -, -, -, -, hce⟩ := aborted_parts reason seg rival sp s
    rw [spanAbort_eq hspan, hcounts, if_neg Bool.false_ne_true,
      overrunTest_of_aborted (hout.resolve_left (by simp [hspan])) (by rw [pu_of_blank h, hpu]) (by rw [ce_of_blank h, hce]),
      testTrigger_eq]
    unfold abortSpan
    rw [hspan]
    exact waiting_endSpan_of_ne b hb [] s

/-- The order ended in READY before any promotion: the REPORT, the slot, the state and the release ahead. -/
def readied (out : ReportOutcome) (ahead : Bool) (a : ActiveOrder) (s : State) : State :=
  let u := enterState .ready (orderLeaves (report .os .orderEnd out a.ord.id s))
  if ahead then releaseOwn (aheadSegs u) u else u

section
variable {out : ReportOutcome} {ahead : Bool} {s : State} {a : ActiveOrder}

theorem endOrder_eq_readied (ha : s.os.active = some a) : endOrder out ahead false s = promote (readied out ahead a s) := by
  unfold endOrder readied
  rw [ha]
  rfl

theorem blank_readied (hstate : s.cs.state ≠ .ready) : blank (readied out ahead a s) = blank (endedReady ahead s) := by
  have hleft : blank (orderLeaves (report .os .orderEnd out a.ord.id s)) = blank (leftOrder s) :=
    (blank_orderLeaves_plain _).trans (blank_leftOrder (blank_report ..))
  have hready : blank (enterState .ready (orderLeaves (report .os .orderEnd out a.ord.id s))) =
      blank (entered .ready (leftOrder s)) := by
    refine (blank_enterState ?_).trans (blank_entered hleft)
    rw [cs_of_blank hleft, (leftOrder_parts s).1]
    exact hstate.symm
  unfold readied endedReady
  cases ahead with
  | false => exact hready
  | true =>
    refine (blank_releaseOwn_plain ..).trans ?_
    rw [aheadSegs_of_blank hready]
    exact blank_releasedOwn _ hready

/-- The REPORT of the order that ends goes behind the frames of the Order Store that wait. -/
theorem waiting_readied {d : Addr} (hclash : s.tli.clash = false) (hd : console s = some d) :
    waiting .os (readied out ahead a s).tli =
      waiting .os s.tli ++ [.report d { subject := .orderEnd, outcome := out, oid := a.ord.id }] := by
  have hentered : waiting .os (enterState .ready (orderLeaves (report .os .orderEnd out a.ord.id s))).tli =
      waiting .os s.tli ++ [.report d { subject := .orderEnd, outcome := out, oid := a.ord.id }] := by
    rw [waiting_enterState, waiting_orderLeaves_of_ne .os (by decide), waiting_report .os .os _ _ _ d s hclash hd] <;> rfl
  unfold readied
  cases ahead with
  | false => exact hentered
  | true => exact (waiting_releaseOwn_of_ne .os (by decide) _ _).trans hentered

/-- With no order pending the ending is complete. -/
theorem endOrder_readied (ha : s.os.active = some a) (hstate : s.cs.state ≠ .ready) (hpending : s.os.pending = none) :
    endOrder out ahead false s = readied out ahead a s := by
  rw [endOrder_eq_readied ha]
  refine promote_of_none ?_
  obtain ⟨-, -, -, -, hkept, -⟩ := endedReady_parts ahead s
  rw [os_of_blank (blank_readied hstate)]
  exact hkept.trans hpending

end

/-! ## The request accepted and the pending order gone -/

/-- The REPORTs of the pending order that leaves. -/
def dropReports (s : State) : List (ReportOutcome × Nat) := (s.os.pending.map (fun p => (ReportOutcome.cancelled, p.id))).toList

/-- A REPORT of an order's end. -/
def endReport (d : Addr) (o : ReportOutcome × Nat) : Frame := .report d { subject := .orderEnd, outcome := o.1, oid := o.2 }

section
variable {s : State}

theorem blank_cancelPending (s : State) : blank (cancelPending s) = blank (s.setOs { s.os with pending := none }) := by
  unfold cancelPending
  split
  · next h =>
    rw [← h] <;> rfl
  · exact blank_report ..

theorem waiting_cancelPending {d : Addr} (hclash : s.tli.clash = false) (hd : console s = some d) :
    waiting .os (cancelPending s).tli = waiting .os s.tli ++ (dropReports s).map (endReport d) := by
  unfold cancelPending dropReports
  cases s.os.pending with
  | none => exact (List.append_nil _).symm
  | some p => exact waiting_report .os .os _ _ _ d (s.setOs { s.os with pending := none }) hclash hd

/-- The id that the STOP's REPORT carries. -/
def activeId (s : State) : Nat := (s.os.active.map (fun a => a.ord.id)).getD 0

/-- The STOP accepted, the pending order cancelled. -/
def stopHeard (s : State) : State := cancelPending (report .os .stop .accepted (activeId s) s)

theorem blank_stopHeard (s : State) : blank (stopHeard s) = blank (s.setOs { s.os with pending := none }) := by
  have hreport := blank_report .os .stop .accepted (activeId s) s
  refine (blank_cancelPending _).trans ?_
  exact blank_congr (F := fun u => u.setOs { u.os with pending := none }) (fun _ => rfl) hreport

theorem waiting_stopHeard {d : Addr} (hclash : s.tli.clash = false) (hd : console s = some d) :
    waiting .os (stopHeard s).tli = waiting .os s.tli ++
      .report d { subject := .stop, outcome := .accepted, oid := activeId s } :: (dropReports s).map (endReport d) := by
  have hreport := blank_report .os .stop .accepted (activeId s) s
  have hconsole : console (report .os .stop .accepted (activeId s) s) = some d := by
    rw [← hd]
    exact report_console ..
  have hdrop : dropReports (report .os .stop .accepted (activeId s) s) = dropReports s := by
    unfold dropReports
    rw [report_os]
  unfold stopHeard
  rw [waiting_cancelPending (by rw [report_tli_clash]; exact hclash) hconsole, hdrop, waiting_report .os .os _ _ _ d s hclash hd,
    if_pos rfl, List.append_assoc] <;> rfl

/-! ## The condition held -/

theorem holdStop_same {c : StopCond} (h : s.cs.stopCond = some c) : holdStop c s = s := if_pos h

theorem holdStop_cs (c : StopCond) (s : State) : (holdStop c s).cs = { s.cs with stopCond := some c } := by
  unfold holdStop
  split
  · next h => rw [← h]
  · cases c <;> rfl

/-- What a condition newly held makes of the stop target (R130). -/
def targetHeld (c : StopCond) (s : State) : Option Mm :=
  match c with
  | .immediate => none
  | .nextBoundary => stopTargetNow s
  | .authorityEnd => s.eu.stopTarget

theorem holdStop_eq {c : StopCond} (h : s.cs.stopCond ≠ some c) : holdStop c s =
    (s.setCs { s.cs with stopCond := some c }).setEu
      { s.eu with stopTarget := targetHeld c (s.setCs { s.cs with stopCond := some c }) } := by
  unfold holdStop
  rw [if_neg h]
  cases c <;> rfl

end

end Sys2Proof.Machine
end

section
/-! STOP in a moving state: the span cut, the condition held, and the order ended where the carriage is at rest (R15, R138). -/

namespace Sys2Proof.Machine

open Sys2Proof

section
variable {s : State} {c : StopCond}

/-- The STOP accepted, the pending order cancelled, and the span in flight aborted (R15, R50). -/
def stopCut (s : State) : State := spanAbort .stopped ((spanSegs (stopHeard s)).headD 0) 0 (stopHeard s)

theorem takeStop_moving (h : s.cs.state = .running ∨ s.cs.state = .halted) : takeStop c s =
    if atRest (enterState .stopping (holdStop c (stopCut s))) then restEvent (enterState .stopping (holdStop c (stopCut s)))
    else enterState .stopping (holdStop c (stopCut s)) := by
  unfold stopCut stopHeard activeId
  rw [← activeId_eq]
  unfold takeStop
  rcases h with h | h <;> rw [h] <;> rfl

theorem stopHeard_within (hout : s.ce.span = none ∨ headWithin (outsideSpan s) s) :
    (stopHeard s).ce.span = none ∨ headWithin (outsideSpan (stopHeard s)) (stopHeard s) := by
  have h := blank_stopHeard s
  refine hout.imp (fun hspan => (span_of_blank h).trans hspan) fun hwithin => ?_
  rw [outsideSpan_of_blank h]
  exact headWithin_of_blank h hwithin

/-- What the STOP has cut before the carriage enters STOPPING. -/
theorem stopCut_parts (hout : s.ce.span = none ∨ headWithin (outsideSpan s) s) :
    let v := stopCut s
    v.cs = s.cs ∧ v.eu = s.eu ∧ v.ds = s.ds ∧ v.cr = s.cr ∧ v.ov = s.ov ∧ s.pu = { v.pu with timer := s.pu.timer } ∧
    v.os.pending = none ∧ v.ce.span = none ∧
    (∀ a, s.os.active = some a → ∃ k, v.os.active = some { a with nextClaim := k }) ∧
    (s.ce.span.isSome = true → v.ce.abort.map AbortRec.reason = some .stopped ∧ v.ce.own = outsideSpan s) ∧
    (s.ce.span = none → v.os.active = s.os.active ∧ v.ce.own = s.ce.own ∧ v.ce.firmEnd = s.ce.firmEnd) ∧
    (s.tli.clash = false → v.tli.clash = false) ∧
    (∀ b, b ≠ .ce → waiting b v.tli = waiting b (stopHeard s).tli) := by
  intro v
  have hblank := blank_stopHeard s
  have hout' := stopHeard_within hout
  have hpu : s.pu = { (stopHeard s).pu with timer := s.pu.timer } :=
    congrArg (fun p : PosUnit => { p with timer := s.pu.timer }) (pu_of_blank hblank).symm
  have hwaits (b : Block) (hb : b ≠ .ce) : waiting b v.tli = waiting b (stopHeard s).tli :=
    waiting_spanAbort_local hb hout' rfl
  have hclash : v.tli.clash = s.tli.clash := by
    show (spanAbort ..).tli.clash = _
    rw [spanAbort_tli_clash]
    exact (clash_of_blank hblank).trans rfl
  have hspan' : (stopHeard s).ce.span = s.ce.span := (span_of_blank hblank).trans rfl
  cases hspan : s.ce.span with
  | none =>
    have hv : v = stopHeard s := spanAbort_of_none (hspan'.trans hspan)
    rw [hv]
    refine ⟨(cs_of_blank hblank).trans rfl, (eu_of_blank hblank).trans rfl, (ds_of_blank hblank).trans rfl, (cr_of_blank hblank).trans rfl,
      (ov_of_blank hblank).trans rfl, hpu, congrArg OrderStore.pending (os_of_blank hblank), hspan'.trans hspan, fun a ha => ?_,
      fun h => (nomatch h), fun _ => ⟨?_, (own_of_blank hblank).trans rfl, ?_⟩, fun h => ?_, hv ▸ hwaits⟩
    · exact ⟨a.nextClaim, (congrArg OrderStore.active (os_of_blank hblank)).trans ha⟩
    · exact (congrArg OrderStore.active (os_of_blank hblank)).trans rfl
    · exact (congrArg ClaimEngine.firmEnd (ce_of_blank hblank)).trans rfl
    · exact (clash_of_blank hblank).trans h
  | some sp =>
    obtain ⟨hcs, heu, hds, hcr, hov, hpu', hos, hce⟩ := spanAbort_local_parts (reason := .stopped)
      (seg := (spanSegs (stopHeard s)).headD 0) (rival := 0) (hspan'.trans hspan)
      (hout'.resolve_left (by simp [hspan', hspan])) rfl
    have hactive : (stopHeard s).os.active = s.os.active :=
      (congrArg OrderStore.active (os_of_blank hblank)).trans rfl
    refine ⟨hcs.trans ((cs_of_blank hblank).trans rfl), heu.trans ((eu_of_blank hblank).trans rfl), hds.trans ((ds_of_blank hblank).trans rfl),
      hcr.trans ((cr_of_blank hblank).trans rfl), hov.trans ((ov_of_blank hblank).trans rfl), ?_, ?_,
      congrArg ClaimEngine.span hce, fun a ha => ⟨sp.first, ?_⟩, fun _ => ⟨?_, ?_⟩, fun h => (nomatch h), fun h => hclash.trans h, hwaits⟩
    · exact hpu.trans (congrArg (fun p : PosUnit => { p with timer := s.pu.timer }) hpu')
    · exact (congrArg OrderStore.pending hos).trans (congrArg OrderStore.pending (os_of_blank hblank))
    · refine (congrArg OrderStore.active hos).trans ?_
      rw [hactive, ha] <;> rfl
    · exact (congrArg (fun c : ClaimEngine => c.abort.map AbortRec.reason) hce).trans rfl
    · exact (congrArg ClaimEngine.own hce).trans ((outsideSpan_of_blank hblank).trans rfl)

end

end Sys2Proof.Machine
end

section
/-! The rest event, by the phase of the order and the carriage state (R138, R13, R16, R18, R44). -/

namespace Sys2Proof.Machine

open Sys2Proof

/-- The state with the rest presented. -/
def rested (s : State) : State := s.setEu { s.eu with rest := true }

section
variable {s : State} {a : ActiveOrder}

theorem restEvent_of_no_order (ha : s.os.active = none) : restEvent s = rested s := by
  unfold restEvent
  dsimp only [State.setEu_os]
  rw [ha] <;> rfl

section
variable (ha : s.os.active = some a)
include ha

theorem restEvent_match : restEvent s = match a.phase, s.cs.state with
    | .ending, .running | .ending, .stopping | .ending, .halted => endOrder (.failed .routeBlocked) true false (rested s)
    | .underway, .stopping => endOrder .stopped true false (rested s)
    | .underway, .running =>
      if s.eu.padStop then alignmentCheck (rested s)
      else if blockedAtRest a (rested s) then endOrder (.failed .routeBlocked) true false (rested s)
      else if arrived a (rested s) then
        if (lastPad a.ord).isSome then raiseFault .padMarkerMissed (rested s) else endOrder .completed false false (rested s)
      else rested s
    | _, _ => rested s := by
  unfold restEvent
  dsimp only [State.setEu_os]
  rw [ha] <;> rfl

theorem restEvent_stopping (hphase : a.phase = .underway) (hstate : s.cs.state = .stopping) :
    restEvent s = endOrder .stopped true false (rested s) := by
  rw [restEvent_match ha, hphase, hstate]

theorem restEvent_halted (hphase : a.phase = .underway) (hstate : s.cs.state = .halted) : restEvent s = rested s := by
  rw [restEvent_match ha, hphase, hstate]

theorem restEvent_running (hphase : a.phase = .underway) (hstate : s.cs.state = .running) : restEvent s =
    if s.eu.padStop then alignmentCheck (rested s)
    else if blockedAtRest a (rested s) then endOrder (.failed .routeBlocked) true false (rested s)
    else if arrived a (rested s) then
      if (lastPad a.ord).isSome then raiseFault .padMarkerMissed (rested s) else endOrder .completed false false (rested s)
    else rested s := by
  rw [restEvent_match ha, hphase, hstate]

end

end

end Sys2Proof.Machine
end

section
/-! STOP (R15, R50, R130, R138). -/

namespace Sys2Proof.Machine

open Sys2Proof

section
variable {s : State} {c : StopCond}

/-- The condition held touches the stop target and the supervisor alone. -/
theorem holdStop_parts (c : StopCond) (s : State) : (holdStop c s).os = s.os ∧ (holdStop c s).ov = s.ov ∧
    (holdStop c s).pu = s.pu ∧ (holdStop c s).ce = s.ce ∧ (holdStop c s).tli = s.tli ∧
    (holdStop c s).eu = { s.eu with stopTarget := (holdStop c s).eu.stopTarget } := by
  by_cases h : s.cs.stopCond = some c
  · rw [holdStop_same h]
    exact ⟨rfl, rfl, rfl, rfl, rfl, rfl⟩
  · rw [holdStop_eq h]
    exact ⟨rfl, rfl, rfl, rfl, rfl, rfl⟩

theorem holdStop_pa (c : StopCond) (s : State) : (holdStop c s).pa = s.pa := by
  by_cases h : s.cs.stopCond = some c
  · rw [holdStop_same h]
  · rw [holdStop_eq h] <;> rfl

/-- A moving carriage that has entered STOPPING with its condition. -/
def stopEntered (c : StopCond) (s : State) : State := enterState .stopping (holdStop c (stopCut s))

section
variable (hstate : s.cs.state = .running ∨ s.cs.state = .halted) (hout : s.ce.span = none ∨ headWithin (outsideSpan s) s)
include hstate hout

theorem blank_stopEntered : blank (stopEntered c s) = blank (entered .stopping (holdStop c (stopCut s))) := by
  obtain ⟨hcs, -⟩ := stopCut_parts hout
  refine blank_enterState ?_
  rw [holdStop_cs, hcs]
  rcases hstate with h | h <;> simp [h]

theorem stopEntered_parts : (stopEntered c s).cs = { s.cs with state := .stopping, stopCond := some c } ∧
    (stopEntered c s).os = (stopCut s).os ∧ (stopEntered c s).ov = s.ov ∧
    (stopEntered c s).eu = { s.eu with rest := decide (s.eu.demand = 0) && s.pu.standstill,
                                       stopTarget := (holdStop c (stopCut s)).eu.stopTarget } ∧
    (stopEntered c s).pu.standstill = s.pu.standstill ∧
    (stopEntered c s).ce = { (stopCut s).ce with refresh := (stopEntered c s).ce.refresh,
                                                 refreshOut := (stopEntered c s).ce.refreshOut } := by
  have hblank := blank_stopEntered (c := c) hstate hout
  obtain ⟨hcs, heu, -, -, hov, hpu, -⟩ := stopCut_parts hout
  obtain ⟨hos', hov', hpu', hce', -, heu'⟩ := holdStop_parts c (stopCut s)
  have hcs' := holdStop_cs c (stopCut s)
  rw [hcs] at hcs'
  rw [heu] at heu'
  have hstill : (holdStop c (stopCut s)).pu.standstill = s.pu.standstill := by
    rw [hpu']
    exact (congrArg PosUnit.standstill hpu).symm
  generalize holdStop c (stopCut s) = v at *
  refine ⟨(cs_of_blank hblank).trans ?_, (os_of_blank hblank).trans hos', (ov_of_blank hblank).trans (hov'.trans hov),
    (eu_of_blank hblank).trans ?_, ?_, ?_⟩
  · exact congrArg (fun k : Supervisor => { k with state := .stopping, stopCond := k.stopCond }) hcs'
  · rw [← hstill]
    exact congrArg (fun u : Envelope => { u with rest := decide (u.demand = 0) && v.pu.standstill,
                                                 stopTarget := v.eu.stopTarget }) heu'
  · rw [pu_of_blank hblank]
    exact hstill
  · exact (ce_of_blank hblank).trans (congrArg (fun k : ClaimEngine =>
      { k with refresh := (stopEntered c s).ce.refresh, refreshOut := (stopEntered c s).ce.refreshOut }) hce')

omit hstate in
theorem waiting_stopEntered (b : Block) (hb : b ≠ .ce) : waiting b (stopEntered c s).tli = waiting b (stopHeard s).tli := by
  obtain ⟨-, -, -, -, -, -, -, -, -, -, -, -, hwaits⟩ := stopCut_parts hout
  obtain ⟨-, -, -, -, htli, -⟩ := holdStop_parts c (stopCut s)
  unfold stopEntered
  rw [waiting_enterState, htli]
  exact hwaits b hb

theorem atRest_stopEntered : atRest (stopEntered c s) = (decide (s.eu.demand = 0) && s.pu.standstill) := by
  obtain ⟨hcs, -, -, heu, hstill, -⟩ := stopEntered_parts (c := c) hstate hout
  unfold atRest
  rw [hcs, heu, hstill]
  rfl

theorem stopEntered_clash (hclash : s.tli.clash = false) : (stopEntered c s).tli.clash = false := by
  obtain ⟨-, -, -, -, -, -, -, -, -, -, -, hclash', -⟩ := stopCut_parts hout
  obtain ⟨-, -, -, -, htli, -⟩ := holdStop_parts c (stopCut s)
  rw [clash_of_blank (blank_stopEntered hstate hout)]
  show (holdStop c (stopCut s)).tli.clash = false
  rw [htli]
  exact hclash' hclash

/-! ## At rest: the order ends -/

/-- What an order that a STOP ends at rest is reported. -/
def stopOutcome (a : ActiveOrder) : ReportOutcome := if a.phase = .ending then .failed .routeBlocked else .stopped

theorem takeStop_of_rest {a : ActiveOrder} (ha : s.os.active = some a) (hphase : a.phase ≠ .waiting) (hdemand : s.eu.demand = 0)
    (hstill : s.pu.standstill = true) : ∃ k, takeStop c s =
      readied (stopOutcome a) true { a with nextClaim := k } (rested (stopEntered c s)) := by
  obtain ⟨hcs, hos, -, -, -, -⟩ := stopEntered_parts (c := c) hstate hout
  obtain ⟨-, -, -, -, -, -, hpending, -, hactive, -⟩ := stopCut_parts hout
  obtain ⟨k, hk⟩ := hactive a ha
  have hk' : (stopEntered c s).os.active = some { a with nextClaim := k } := (congrArg OrderStore.active hos).trans hk
  have hstopping : (stopEntered c s).cs.state = .stopping := congrArg Supervisor.state hcs
  have hpending' : (rested (stopEntered c s)).os.pending = none := (congrArg OrderStore.pending hos).trans hpending
  have hready : (rested (stopEntered c s)).cs.state ≠ .ready := by
    show (stopEntered c s).cs.state ≠ .ready
    rw [hstopping]
    exact CarState.noConfusion
  have hrest : takeStop c s = restEvent (stopEntered c s) := by
    rw [takeStop_moving hstate]
    exact if_pos (by
      show atRest (stopEntered c s) = true
      rw [atRest_stopEntered hstate hout, hstill, decide_eq_true hdemand]
      rfl)
  refine ⟨k, hrest.trans ?_⟩
  by_cases hp : a.phase = .ending
  · rw [restEvent_ending hk' hp (by rw [hstopping]; rfl), stopOutcome, if_pos hp]
    exact endOrder_readied (s := rested (stopEntered c s)) hk' hready hpending'
  · have hunderway : a.phase = .underway := by cases h : a.phase <;> simp_all
    rw [restEvent_stopping hk' hunderway hstopping, stopOutcome, if_neg hp]
    exact endOrder_readied (s := rested (stopEntered c s)) hk' hready hpending'

end

/-! ## STOPPING already, UNDOCKING, and a WAITING order -/

theorem stricter_kept {h c : StopCond} (hk : h = .immediate ∨ c = .authorityEnd ∨ h = c) : stricter h c = h := by
  cases h <;> cases c <;> simp_all [stricter]

theorem takeStop_stopping {h : StopCond} (hstate : s.cs.state = .stopping) (hcond : s.cs.stopCond = some h) :
    takeStop c s = holdStop (stricter h c) (stopHeard s) := by
  have hheard : (stopHeard s).cs.stopCond = some h := by
    rw [cs_of_blank (blank_stopHeard s)]
    exact hcond
  have htake : takeStop c s = holdStop (match (stopHeard s).cs.stopCond with
      | some h => stricter h c
      | none => c) (stopHeard s) := by
    unfold stopHeard activeId
    rw [← activeId_eq]
    unfold takeStop
    rw [hstate] <;> rfl
  rw [htake, hheard]

theorem takeStop_undocking (hstate : s.cs.state = .undocking) :
    takeStop c s = (stopHeard s).setOs { (stopHeard s).os with stopMark := true } := by
  unfold stopHeard activeId
  rw [← activeId_eq]
  unfold takeStop
  rw [hstate] <;> rfl

theorem takeStop_standing {a : ActiveOrder} (hstate : s.cs.state = .ready ∨ s.cs.state = .parked) (ha : s.os.active = some a) :
    takeStop c s = cancelPending ((report .os .orderEnd .cancelled a.ord.id (report .os .stop .accepted (activeId s) s)).setOs
      { s.os with active := none }) := by
  unfold activeId
  rw [← activeId_eq]
  unfold takeStop
  rcases hstate with h | h <;> rw [h] <;> dsimp only <;> rw [ha] <;> simp only [report_os]

theorem takeStop_refused (hstate : s.cs.state = .docking ∨ s.cs.state = .uncommissioned ∨ s.cs.state = .unlocated ∨
    s.cs.state = .fault ∨ ((s.cs.state = .ready ∨ s.cs.state = .parked) ∧ s.os.active = none)) :
    takeStop c s = report .os .stop (.refused .state) (activeId s) s := by
  unfold activeId
  rw [← activeId_eq]
  unfold takeStop
  rcases hstate with h | h | h | h | ⟨h | h, ha⟩
  · rw [h] <;> rfl
  · rw [h] <;> rfl
  · rw [h] <;> rfl
  · rw [h] <;> rfl
  · rw [h]
    dsimp only
    rw [ha]
  · rw [h]
    dsimp only
    rw [ha]

end

end Sys2Proof.Machine
end

section
/-! STOP settled. -/

namespace Sys2Proof.Machine

open Sys2Proof

section
variable {src : Addr} {c : StopCond} {s : State} (hfront : atFront src (.stop c) s = true)
include hfront

theorem exec_stop_points (hkind : s.tli.kind = .points) :
    exec (.stop src c) s = .next (report .tli .stop (.refused .wrongKind) 0 (taken s)) := by
  refine next_congr ((deliver_of_atFront _ hfront rfl).trans ?_)
  rw [taken_tli_kind, hkind] <;> rfl

theorem exec_stop_carriage (hkind : s.tli.kind = .carriage) : exec (.stop src c) s = .next (takeStop c (taken s)) := by
  refine next_congr ((deliver_of_atFront _ hfront rfl).trans ?_)
  rw [taken_tli_kind, hkind]

end

/-- The Order Store has queued the REPORTs of an accepted STOP, and of the orders that leave with it. -/
def StopReported (left : List (ReportOutcome × Nat)) (s t : State) : Prop :=
  s.tli.clash = false → ∀ d, console s = some d → waiting .os t.tli = waiting .os s.tli ++
    .report d { subject := .stop, outcome := .accepted, oid := activeId s } :: left.map (endReport d)

section
variable {s : State} {c : StopCond}

theorem stopHeard_reported (s : State) : StopReported (dropReports s) s (stopHeard s) := fun hclash _ hd =>
  waiting_stopHeard hclash hd

/-- Moving, the carriage enters STOPPING with its condition. -/
theorem takeStop_moving_parts (hstate : s.cs.state = .running ∨ s.cs.state = .halted)
    (hout : s.ce.span = none ∨ headWithin (outsideSpan s) s) (hcond : s.cs.stopCond = none)
    (hmoves : s.eu.demand ≠ 0 ∨ s.pu.standstill = false) :
    let t := takeStop c s
    t.cs.state = .stopping ∧ t.cs.stopCond = some c ∧ t.os.pending = none ∧
    t.ce.span = none ∧ t.eu.demand = s.eu.demand ∧ t.ov = s.ov ∧ t.cs.latch = s.cs.latch ∧
    (s.ce.span.isSome = true → t.ce.abort.map AbortRec.reason = some .stopped ∧ t.ce.own = outsideSpan s) ∧
    (s.ce.span = none → t.os.active = s.os.active ∧ t.ce.own = s.ce.own ∧ t.ce.firmEnd = s.ce.firmEnd) ∧
    (c = .immediate → t.eu.stopTarget = none) ∧ (c = .authorityEnd → t.eu.stopTarget = s.eu.stopTarget) ∧
    (∀ a r f, c = .nextBoundary → s.os.active = some a → s.pu.route = some r → t.ce.firmEnd = some f →
      ∃ target, t.eu.stopTarget = some target ∧ isStopTarget a.ord.legs a.headLeg (cfg s).margin (cfg s).decel
        s.eu.demand r.x f target) ∧
    StopReported (dropReports s) s t := by
  intro t
  have hquiet : (decide (s.eu.demand = 0) && s.pu.standstill) = false := by
    rcases hmoves with h | h <;> simp [h]
  have ht : t = stopEntered c s := by
    refine (takeStop_moving hstate).trans (if_neg ?_)
    show ¬ atRest (stopEntered c s) = true
    rw [atRest_stopEntered hstate hout, hquiet]
    exact Bool.false_ne_true
  obtain ⟨hcs, hos, hov, heu, hstill, hce⟩ := stopEntered_parts (c := c) hstate hout
  obtain ⟨hcs', heu', -, -, -, hpu', hpending, hspan, hactive, habort, hnone, -⟩ := stopCut_parts hout
  have hnew : (stopCut s).cs.stopCond ≠ some c := by rw [hcs', hcond]; exact fun h => nomatch h
  have htarget : (stopEntered c s).eu.stopTarget =
      targetHeld c ((stopCut s).setCs { (stopCut s).cs with stopCond := some c }) := by
    rw [heu, holdStop_eq hnew] <;> rfl
  rw [ht]
  refine ⟨congrArg Supervisor.state hcs, congrArg Supervisor.stopCond hcs, (congrArg OrderStore.pending hos).trans hpending,
    (congrArg ClaimEngine.span hce).trans hspan, (congrArg Envelope.demand heu).trans rfl, hov,
    (congrArg Supervisor.latch hcs).trans rfl, fun h => ?_,
    fun h => ?_, fun h => ?_, fun h => ?_, fun a r f h ha hr hf => ?_, fun hclash d hd => ?_⟩
  · obtain ⟨hreason, hown⟩ := habort h
    exact ⟨(congrArg (fun k : ClaimEngine => k.abort.map AbortRec.reason) hce).trans hreason,
      (congrArg ClaimEngine.own hce).trans hown⟩
  · obtain ⟨hactive, hown, hfirm⟩ := hnone h
    exact ⟨(congrArg OrderStore.active hos).trans hactive, (congrArg ClaimEngine.own hce).trans hown,
      (congrArg ClaimEngine.firmEnd hce).trans hfirm⟩
  · rw [htarget, h] <;> rfl
  · rw [htarget, h]
    exact congrArg Envelope.stopTarget heu'
  · obtain ⟨k, hk⟩ := hactive a ha
    have hroute : (stopCut s).pu.route = some r := (congrArg PosUnit.route hpu').symm.trans hr
    obtain ⟨target, hnow, hspec⟩ := stopTargetNow_spec ((stopCut s).setCs { (stopCut s).cs with stopCond := some c })
      { a with nextClaim := k } r f hk hroute ((congrArg ClaimEngine.firmEnd hce).symm.trans hf)
    refine ⟨target, ?_, ?_⟩
    · rw [htarget, h] at *
      exact hnow
    · have hcfg : cfg ((stopCut s).setCs { (stopCut s).cs with stopCond := some c }) = cfg s := by
        unfold cfg
        rw [State.setCs_cs, hcs']
      have hdemand : (stopCut s).eu.demand = s.eu.demand := congrArg Envelope.demand heu'
      rw [hcfg] at hspec
      rw [← hdemand]
      exact hspec
  · rw [waiting_stopEntered hout .os (by decide)]
    exact stopHeard_reported s hclash d hd

theorem console_stopEntered (hstate : s.cs.state = .running ∨ s.cs.state = .halted)
    (hout : s.ce.span = none ∨ headWithin (outsideSpan s) s) : console (rested (stopEntered c s)) = console s := by
  obtain ⟨hcs, -⟩ := stopEntered_parts (c := c) hstate hout
  obtain ⟨-, -, -, -, htli, -⟩ := holdStop_parts c (stopCut s)
  have hblank := blank_stopHeard s
  have hpa : (stopEntered c s).pa = s.pa := by
    rw [stopEntered, enterState_pa, holdStop_pa, stopCut, spanAbort_pa]
    exact (pa_of_blank hblank).trans rfl
  have hkind : (stopEntered c s).tli.kind = s.tli.kind := by
    rw [stopEntered, enterState_tli_kind, htli, stopCut, spanAbort_tli_kind]
    exact (kind_of_blank hblank).trans rfl
  show (match (stopEntered c s).tli.kind with
    | .carriage => (stopEntered c s).cs.console
    | .points => (stopEntered c s).pa.console) = console s
  rw [hkind, hpa, hcs] <;> rfl

/-- At rest the order ends, its REPORT behind that of the STOP and of the pending order. -/
theorem takeStop_rest_parts {a : ActiveOrder} (hstate : s.cs.state = .running ∨ s.cs.state = .halted)
    (hout : s.ce.span = none ∨ headWithin (outsideSpan s) s) (ha : s.os.active = some a) (hphase : a.phase ≠ .waiting)
    (hdemand : s.eu.demand = 0) (hstill : s.pu.standstill = true) :
    let t := takeStop c s
    t.cs.state = .ready ∧ t.os.active = none ∧ t.os.pending = none ∧ t.ce.span = none ∧ t.eu.brake = .service ∧
    t.eu.stopTarget = none ∧ StopReported (dropReports s ++ [(stopOutcome a, a.ord.id)]) s t := by
  intro t
  obtain ⟨k, hk⟩ := takeStop_of_rest (c := c) hstate hout ha hphase hdemand hstill
  obtain ⟨hcs, hos, -, -, -, -⟩ := stopEntered_parts (c := c) hstate hout
  obtain ⟨-, -, -, -, -, -, hpending, -⟩ := stopCut_parts hout
  have hblank : blank t = blank (endedReady true (rested (stopEntered c s))) := by
    refine (congrArg blank hk).trans (blank_readied ?_)
    show (stopEntered c s).cs.state ≠ .ready
    rw [hcs]
    exact CarState.noConfusion
  obtain ⟨hcs', -, heu', hactive, hpending', -, -, hspan, -⟩ := endedReady_parts true (rested (stopEntered c s))
  have hsup := (cs_of_blank hblank).trans hcs'
  have henv := (eu_of_blank hblank).trans heu'
  have hstore := os_of_blank hblank
  refine ⟨by rw [hsup], (congrArg OrderStore.active hstore).trans hactive,
    (congrArg OrderStore.pending hstore).trans (hpending'.trans ((congrArg OrderStore.pending hos).trans hpending)),
    (span_of_blank hblank).trans hspan, by rw [henv], by rw [henv], fun hclash d hd => ?_⟩
  have hconsole : console (rested (stopEntered c s)) = some d := (console_stopEntered hstate hout).trans hd
  have hwaits := waiting_readied (out := stopOutcome a) (ahead := true) (a := { a with nextClaim := k })
    (s := rested (stopEntered c s)) (stopEntered_clash hstate hout hclash) hconsole
  show waiting .os t.tli = _
  rw [show t = readied (stopOutcome a) true { a with nextClaim := k } (rested (stopEntered c s)) from hk, hwaits]
  show waiting .os (stopEntered c s).tli ++ _ = _
  rw [waiting_stopEntered hout .os (by decide), stopHeard_reported s hclash d hd, List.map_append, List.append_assoc] <;> rfl

/-- In STOPPING the stricter condition is held, the stop target with it. -/
theorem takeStop_stopping_parts {h : StopCond} (hstate : s.cs.state = .stopping) (hcond : s.cs.stopCond = some h) :
    let t := takeStop c s
    t.cs = { s.cs with stopCond := some (stricter h c) } ∧ t.os = { s.os with pending := none } ∧ t.ce.own = s.ce.own ∧
    t.eu.demand = s.eu.demand ∧ StopReported (dropReports s) s t ∧
    (h = .immediate ∨ c = .authorityEnd ∨ h = c → t.cs = s.cs ∧ t.eu = s.eu) ∧
    (h ≠ .immediate → c = .immediate → t.cs.stopCond = some .immediate ∧ t.eu = { s.eu with stopTarget := none }) ∧
    (∀ a r f, h = .authorityEnd → c = .nextBoundary → s.os.active = some a → s.pu.route = some r → s.ce.firmEnd = some f →
      t.cs.stopCond = some .nextBoundary ∧ ∃ target, t.eu = { s.eu with stopTarget := some target } ∧
        isStopTarget a.ord.legs a.headLeg (cfg s).margin (cfg s).decel s.eu.demand r.x f target) := by
  intro t
  have ht : t = holdStop (stricter h c) (stopHeard s) := takeStop_stopping hstate hcond
  have hblank := blank_stopHeard s
  have hcs : (stopHeard s).cs = s.cs := (cs_of_blank hblank).trans rfl
  have heu : (stopHeard s).eu = s.eu := (eu_of_blank hblank).trans rfl
  obtain ⟨hos', -, -, hce', htli', heu'⟩ := holdStop_parts (stricter h c) (stopHeard s)
  have hcs' := holdStop_cs (stricter h c) (stopHeard s)
  rw [hcs] at hcs'
  rw [ht]
  refine ⟨hcs', hos'.trans (os_of_blank hblank), (congrArg ClaimEngine.own hce').trans ((own_of_blank hblank).trans rfl),
    by rw [heu', heu], fun hclash d hd => ?_, fun hk => ?_, fun hne hc => ?_,
    fun a r f hh hc ha hr hf => ?_⟩
  · rw [htli']
    exact stopHeard_reported s hclash d hd
  · rw [stricter_kept hk, holdStop_same (by rw [hcs]; exact hcond)]
    exact ⟨hcs, heu⟩
  · have hstricter : stricter h c = .immediate := by rw [hc]; cases h <;> rfl
    rw [hstricter, holdStop_eq (by rw [hcs, hcond]; exact fun heq => hne (Option.some.inj heq)), heu]
    exact ⟨rfl, rfl⟩
  · have hstricter : stricter h c = .nextBoundary := by rw [hh, hc]; rfl
    have hnew : (stopHeard s).cs.stopCond ≠ some .nextBoundary := by rw [hcs, hcond, hh]; exact fun heq => nomatch heq
    obtain ⟨target, hnow, hspec⟩ := stopTargetNow_spec ((stopHeard s).setCs { (stopHeard s).cs with stopCond := some .nextBoundary })
      a r f ((congrArg OrderStore.active (os_of_blank hblank)).trans ha) ((congrArg PosUnit.route (pu_of_blank hblank)).trans hr)
      ((congrArg ClaimEngine.firmEnd (ce_of_blank hblank)).trans hf)
    rw [hstricter, holdStop_eq hnew]
    refine ⟨rfl, target, ?_, ?_⟩
    · show ({ (stopHeard s).eu with stopTarget := stopTargetNow _ } : Envelope) = _
      rw [hnow, heu]
    · have hcfg : cfg ((stopHeard s).setCs { (stopHeard s).cs with stopCond := some .nextBoundary }) = cfg s := by
        unfold cfg
        rw [State.setCs_cs, hcs]
      rw [hcfg] at hspec
      rw [← heu]
      exact hspec

/-- In UNDOCKING the order is marked. -/
theorem takeStop_undocking_parts (hstate : s.cs.state = .undocking) :
    let t := takeStop c s
    t.os = { s.os with pending := none, stopMark := true } ∧ t.cs = s.cs ∧ t.ds = s.ds ∧ t.ce.own = s.ce.own ∧
    StopReported (dropReports s) s t := by
  have hblank := blank_stopHeard s
  dsimp only
  rw [takeStop_undocking hstate]
  exact ⟨congrArg (fun o : OrderStore => { o with stopMark := true }) (os_of_blank hblank), (cs_of_blank hblank).trans rfl,
    (ds_of_blank hblank).trans rfl, (own_of_blank hblank).trans rfl, stopHeard_reported s⟩

/-- A WAITING order is cancelled, and the pending order after it. -/
theorem takeStop_standing_parts {a : ActiveOrder} (hstate : s.cs.state = .ready ∨ s.cs.state = .parked)
    (ha : s.os.active = some a) :
    let t := takeStop c s
    t.os = { s.os with active := none, pending := none } ∧ t.cs = s.cs ∧ t.ce.own = s.ce.own ∧
    StopReported ((.cancelled, a.ord.id) :: dropReports s) s t := by
  have hactive := blank_report .os .stop .accepted (activeId s) s
  have hcancelled := (blank_report .os .orderEnd .cancelled a.ord.id (report .os .stop .accepted (activeId s) s)).trans hactive
  dsimp only
  rw [takeStop_standing hstate ha]
  set u := report .os .orderEnd .cancelled a.ord.id (report .os .stop .accepted (activeId s) s) with hu
  have hblank := blank_cancelPending (u.setOs { s.os with active := none })
  have hcs : u.cs = s.cs := cs_of_blank hcancelled
  have hown : u.ce.own = s.ce.own := own_of_blank hcancelled
  refine ⟨(os_of_blank hblank).trans rfl, (cs_of_blank hblank).trans hcs, (own_of_blank hblank).trans hown, fun hclash d hd => ?_⟩
  have hd' : console (report .os .stop .accepted (activeId s) s) = some d := (report_console ..).trans hd
  have hd'' : console (u.setOs { s.os with active := none }) = some d := (report_console ..).trans hd'
  have hwaits : waiting .os u.tli = _ := waiting_report .os .os .orderEnd .cancelled a.ord.id d
    (report .os .stop .accepted (activeId s) s) (by rw [report_tli_clash]; exact hclash) hd'
  rw [waiting_cancelPending (by simpa [hu] using hclash) hd'']
  show waiting .os u.tli ++ _ = _
  rw [hwaits, waiting_report .os .os _ _ _ d s hclash hd, if_pos rfl, List.append_assoc, List.append_assoc] <;> rfl

end

/-- Settles O22: by the carriage state, on the state that has taken the request off the inbound queue. -/
theorem stopTaken : Obligations.StopTaken := by
  unfold Obligations.StopTaken
  intro src c s hfront dropped reported
  refine ⟨fun hkind => exec_stop_points hfront hkind, fun hkind => ?_⟩
  have hexec := exec_stop_carriage hfront hkind
  have hreported {left : List (ReportOutcome × Nat)} {t : State} (h : StopReported left (taken s) t) : reported left t :=
    fun hclash d hd => h hclash d ((console_carriage (s := taken s) hkind).trans hd)
  refine ⟨fun hstate hout => ?_, fun h hstate hcond => ?_, fun hstate => ?_, fun a hstate ha => ?_, fun hstate => ?_⟩
  · have hout' : (taken s).ce.span = none ∨ headWithin (outsideSpan (taken s)) (taken s) :=
      hout.imp id fun h => headWithin_congr h rfl rfl rfl
    refine ⟨fun hcond hmoves => ?_, fun a hdemand hstill ha hphase => ?_⟩
    · obtain ⟨hstopping, hcond', hpending, hspan, hdemand, hov, hlatch, habort, hnone, himm, hauth, hnext, hwaits⟩ :=
        takeStop_moving_parts (s := taken s) (c := c) hstate hout' hcond hmoves
      refine ⟨_, hexec, hstopping, hcond', hpending, hspan, hdemand, hov, hlatch, habort, hnone, himm, hauth, hnext,
        hreported hwaits, fun hclash d p hd hp => ?_⟩
      refine queued_of_mem_waiting (b := .os) ?_
      rw [hreported hwaits hclash d hd]
      refine List.mem_append_right _ (List.mem_cons_of_mem _ (List.mem_map.mpr ⟨(.cancelled, p.id), ?_, rfl⟩))
      simp [dropReports, hp]
    · obtain ⟨hready, hactive, hpending, hspan, hbrake, htarget, hwaits⟩ :=
        takeStop_rest_parts (s := taken s) (c := c) hstate hout' ha hphase hdemand hstill
      exact ⟨_, hexec, hready, hactive, hpending, hspan, hbrake, htarget, hreported hwaits⟩
  · obtain ⟨hcs, hos, hown, hdemand, hwaits, hkept, himm, hnext⟩ :=
      takeStop_stopping_parts (s := taken s) (c := c) hstate hcond
    exact ⟨_, hexec, hcs, hos, hown, hdemand, hreported hwaits, hkept, himm, hnext⟩
  · obtain ⟨hos, hcs, hds, hown, hwaits⟩ := takeStop_undocking_parts (s := taken s) (c := c) hstate
    exact ⟨_, hexec, hos, hcs, hds, hown, hreported hwaits⟩
  · obtain ⟨hos, hcs, hown, hwaits⟩ := takeStop_standing_parts (s := taken s) (c := c) hstate ha
    exact ⟨_, hexec, hos, hcs, hown, hreported hwaits⟩
  · exact hexec.trans (next_congr (takeStop_refused (s := taken s) hstate))

end Sys2Proof.Machine
end

section
/-! An order starts (R8, R76, R105): what it sets before the carriage moves off. -/

namespace Sys2Proof.Machine

open Sys2Proof

/-- The route form of an order that starts. -/
def startRoute (o : OrderRec) (head tail : EndRec) (l : Leg) (s : State) : Route :=
  let x : Int := (travelOf l (min head.off l.len) : Nat)
  { x := x, trim := 0, rearOff := tail.off, tail0 := x - (cfg s).length,
    lastLead := (keptRead s o.lead).map (readBack o.lead x),
    lastTrail := (keptRead s (otherEnd o.lead)).map (readBack o.lead (x - (cfg s).length)) }

/-- The progress record of an order that starts. -/
def startRecord (o : OrderRec) (tail : EndRec) (l : Leg) (s : State) : ActiveOrder :=
  { ord := o, phase := .underway, headLeg := 1, tailLeg := if (rearAtStart o l tail s).isSome then .rear else .leg 1,
    nextClaim := 2, rear := rearAtStart o l tail s }

/-- The state with the order under way, its claims not yet tied. -/
def underway (o : OrderRec) (head tail : EndRec) (l : Leg) (s : State) : State :=
  resetAttempts (((s.setPu { s.pu with route := some (startRoute o head tail l s), readA := none, readB := none,
                                       noticeHead := some o.lead, padRead := none }).setOs
    { s.os with active := some (startRecord o tail l s), stopMark := false }).setCe { s.ce with exempt := true })

/-- The own list of an order that starts, tied to it (R76). -/
def startOwn (o : OrderRec) (tail : EndRec) (l : Leg) (s : State) : List OwnClaim :=
  tieOwn l (rearAtStart o l tail s) s.pu.deferral s.ce.own

/-- The order under way with its claims tied, and the CLAIM that says what the tying changed queued. -/
def tiedStart (o : OrderRec) (head tail : EndRec) (l : Leg) (s : State) : State :=
  if tieChanged s.ce.own (startOwn o tail l s) then
    queueClaim .plain o.cls (startOwn o tail l s) (setOwn (startOwn o tail l s) (underway o head tail l s))
  else setOwn (startOwn o tail l s) (underway o head tail l s)

/-- The carriage moves off, or begins to undock. -/
def movedOff (s : State) : State := if s.cs.state = .parked then startUndocking s else enterState .running s

section
variable {o : OrderRec} {head tail : EndRec} {l : Leg} {s : State}

theorem beginOrder_eq (hhead : endRec s o.lead = some head) (htail : endRec s (otherEnd o.lead) = some tail)
    (hl : legAt o.legs 1 = some l) :
    beginOrder o s = testTrigger (overrunTest (padWatch (movedOff (tiedStart o head tail l s)))) := by
  unfold beginOrder
  rw [hhead, htail, hl]
  rfl

theorem blank_tiedStart (o : OrderRec) (head tail : EndRec) (l : Leg) (s : State) :
    blank (tiedStart o head tail l s) = blank (withOwn (startOwn o tail l s) (underway o head tail l s)) := by
  unfold tiedStart
  split
  · rw [blank_queueClaim, blank_setOwn]
  · exact blank_setOwn ..

theorem firstLegOk_iff : firstLegOk o s = true ↔ ∃ head l, endRec s o.lead = some head ∧ legAt o.legs 1 = some l ∧
    head.seg = l.seg ∧ l.dir = turn o.lead head.aSense := by
  unfold firstLegOk
  cases endRec s o.lead with
  | none => simp
  | some e => cases legAt o.legs 1 <;> simp

/-- The first-leg test is a matter of the end records. -/
theorem firstLegOk_congr {t : State} (ha : t.pu.endA = s.pu.endA) (hb : t.pu.endB = s.pu.endB) :
    firstLegOk o t = firstLegOk o s := by
  have hend : endRec t o.lead = endRec s o.lead := by cases o.lead <;> assumption
  unfold firstLegOk
  rw [hend]

/-! ## Moving off -/

theorem movedOff_of_ready (h : s.cs.state = .ready) : movedOff s = enterState .running s := if_neg (by simp [h])

theorem movedOff_of_parked (h : s.cs.state = .parked) : movedOff s = startUndocking s := if_pos h

/-- The own list with no entry STANDING. -/
def firmedStanding (own : List OwnClaim) : List OwnClaim :=
  own.map (fun e => if e.st = .standing then { e with st := .firm } else e)

/-- The carriage in UNDOCKING, the jack drive raised under its timer. -/
def undockingBegun (s : State) : State := entered .undocking (s.setDs { s.ds with cmd := .raise, undockTimer := some 0 })

/-- The STANDING entries made FIRM, if there are any (R71). -/
def firmedUp (s : State) : State :=
  if ∃ e ∈ s.ce.own, e.st = .standing then withOwn (firmedStanding s.ce.own) s else s

theorem blank_firmedUp {t u : State} (h : blank t = blank u) : blank (firmedUp t) = blank (firmedUp u) := by
  unfold firmedUp
  rw [own_of_blank h]
  split
  · exact blank_withOwn h
  · exact h

theorem firmedUp_own (s : State) : (firmedUp s).ce.own = firmedStanding s.ce.own := by
  unfold firmedUp
  split
  · rfl
  · next h =>
    refine ((List.map_congr_left fun e he => ?_).trans (List.map_id _)).symm
    exact if_neg fun hst => h ⟨e, he, hst⟩

/-- What the firming leaves as it was. -/
theorem firmedUp_parts (s : State) : (firmedUp s).cs = s.cs ∧ (firmedUp s).os = s.os ∧ (firmedUp s).pu = s.pu ∧
    (firmedUp s).ds = s.ds ∧ (firmedUp s).eu = s.eu ∧ (firmedUp s).ov = s.ov ∧
    ((firmedUp s).ce.firmEnd = s.ce.firmEnd ∨
      (firmedUp s).ce.firmEnd = firmEndOf (s.setCe { s.ce with own := firmedStanding s.ce.own })) := by
  unfold firmedUp
  split
  · exact ⟨rfl, rfl, rfl, rfl, rfl, rfl, .inr rfl⟩
  · exact ⟨rfl, rfl, rfl, rfl, rfl, rfl, .inl rfl⟩

theorem blank_firmStanding (s : State) : blank (if (s.ce.own.filter (fun e => decide (e.st = .standing))).isEmpty then s else
    setOwn (s.ce.own.map (fun e => if e.st = .standing then { e with st := .firm } else e)) s) = blank (firmedUp s) := by
  unfold firmedUp
  by_cases h : ∃ e ∈ s.ce.own, e.st = .standing
  · rw [if_pos h, if_neg (by simpa using h)]
    exact blank_setOwn ..
  · rw [if_neg h, if_pos (by simpa using h)]

/-- The undocking begun, and ended at once where the jacks are up already (R160, assumption 72). -/
theorem startUndocking_eq (hstate : s.cs.state = .parked) :
    ∃ v, startUndocking s = (if s.ds.pos = .up then leaveUndocking v else v) ∧ blank v = blank (firmedUp (undockingBegun s)) := by
  have hentered : blank (enterState .undocking (s.setDs { s.ds with cmd := .raise, undockTimer := some 0 })) =
      blank (undockingBegun s) := blank_enterState (by rw [State.setDs_cs, hstate]; exact CarState.noConfusion)
  have hds : ∀ t, blank t = blank (firmedUp (undockingBegun s)) → t.ds.pos = s.ds.pos := fun t ht => by
    obtain ⟨-, -, -, hds, -⟩ := firmedUp_parts (undockingBegun s)
    rw [ds_of_blank ht, hds] <;> rfl
  have hraised (c : Nat) (own : List OwnClaim) :=
    (blank_queueClaim .plain c own _).trans ((blank_firmStanding _).trans (blank_firmedUp hentered))
  exact ⟨_, by rw [← hds _ (hraised _ _)] <;> rfl, hraised _ _⟩

/-- The jacks rise from below (R160). -/
theorem blank_startUndocking (hstate : s.cs.state = .parked) (hpos : s.ds.pos ≠ .up) :
    blank (startUndocking s) = blank (firmedUp (undockingBegun s)) := by
  obtain ⟨v, hv, hblank⟩ := startUndocking_eq hstate
  rw [hv, if_neg hpos, hblank]

end

end Sys2Proof.Machine
end

section
/-! What becomes of an order whose first-leg test passes, and of one whose does not (R8, R9). -/

namespace Sys2Proof.Machine

open Sys2Proof

/-- A fault has taken the carriage, and both orders with it. -/
def FaultedOut (t : State) : Prop := t.cs.state = .fault ∧ t.os.pending = none

section
variable {s : State}

theorem raiseFault_faultedOut (code : FaultCode) (h : s.cs.state ≠ .fault) : FaultedOut (raiseFault code s) := by
  obtain ⟨hcs, -, -, hpending, -⟩ := firstFault_parts code (headPos s).1 (headPos s).2 s
  rw [raiseFault, raiseFaultAt_of_not_fault h]
  exact ⟨by rw [hcs], hpending⟩

/-- A test on position leaves the state, or a fault. -/
theorem padWatch_or (h : s.cs.state ≠ .fault) : padWatch s = s ∨ (FaultedOut (padWatch s) ∧ (padWatch s).pu.route = none) := by
  unfold padWatch
  split
  · split
    · split
      · exact .inr ⟨raiseFault_faultedOut _ h, (raiseFault_faultedWith _ h).2.2⟩
      · exact .inl rfl
    · exact .inl rfl
  · exact .inl rfl

theorem overrunTest_or (h : s.cs.state ≠ .fault) : overrunTest s = s ∨ FaultedOut (overrunTest s) := by
  unfold overrunTest
  split
  · split
    · exact .inr (raiseFault_faultedOut _ h)
    · exact .inl rfl
  · exact .inl rfl

/-- The tests at the end of a start leave the state but for the trigger, or a fault. -/
theorem startTests_or (h : s.cs.state ≠ .fault) :
    (∃ b, testTrigger (overrunTest (padWatch s)) = s.setCe { s.ce with triggered := b }) ∨
    FaultedOut (testTrigger (overrunTest (padWatch s))) := by
  rcases padWatch_or h with hpad | ⟨hfault, hroute⟩
  · rw [hpad]
    rcases overrunTest_or h with hover | hfault
    · rw [hover, testTrigger_eq]
      exact .inl ⟨_, rfl⟩
    · rw [testTrigger_eq]
      exact .inr hfault
  · rw [overrunTest_of_no_route hroute, testTrigger_eq]
    exact .inr hfault

section
variable {o : OrderRec} {head tail : EndRec} {l : Leg}

theorem withOwn_parts (own : List OwnClaim) (s : State) : (withOwn own s).cs = s.cs ∧ (withOwn own s).os = s.os ∧
    (withOwn own s).pu = s.pu ∧ (withOwn own s).ds = s.ds ∧ (withOwn own s).eu = s.eu := ⟨rfl, rfl, rfl, rfl, rfl⟩

/-- What an order that has just started leaves of the blocks it does not concern. -/
theorem tiedStart_parts (o : OrderRec) (head tail : EndRec) (l : Leg) (s : State) :
    let t := tiedStart o head tail l s
    t.cs = s.cs ∧ t.os = { s.os with active := some (startRecord o tail l s), stopMark := false } ∧ t.ds = s.ds ∧
    t.eu = s.eu ∧ t.ov = s.ov ∧ t.pu.endA = s.pu.endA ∧ t.pu.endB = s.pu.endB ∧ t.ce.own = startOwn o tail l s := by
  have h := blank_tiedStart o head tail l s
  exact ⟨(cs_of_blank h).trans rfl, os_of_blank h, (ds_of_blank h).trans rfl, (eu_of_blank h).trans rfl,
    (ov_of_blank h).trans rfl, (congrArg PosUnit.endA (pu_of_blank h)).trans rfl,
    (congrArg PosUnit.endB (pu_of_blank h)).trans rfl, (own_of_blank h).trans rfl⟩

/-- The last tests of a start leave a fault, or the order under way in the state entered. -/
theorem begun_outcome {u : State} (hendA : u.pu.endA = s.pu.endA) (hendB : u.pu.endB = s.pu.endB)
    (hos : u.os = { s.os with active := some (startRecord o tail l s), stopMark := false }) (hstate : u.cs.state ≠ .fault)
    (hok : firstLegOk o s = true) (hpending : s.os.pending = none) :
    (testTrigger (overrunTest (padWatch u))).os.pending = none ∧ ((testTrigger (overrunTest (padWatch u))).cs.state = .fault ∨
      (firstLegOk o (testTrigger (overrunTest (padWatch u))) = true ∧
        (testTrigger (overrunTest (padWatch u))).cs.state = u.cs.state ∧
        (testTrigger (overrunTest (padWatch u))).os.active.map (fun b => (b.ord, b.phase)) = some (o, .underway))) := by
  rcases startTests_or hstate with ⟨b, hb⟩ | ⟨hfault, hnone⟩
  · rw [hb]
    refine ⟨(congrArg OrderStore.pending hos).trans hpending, .inr ⟨(firstLegOk_congr hendA hendB).trans hok, rfl, ?_⟩⟩
    show u.os.active.map _ = _
    rw [hos] <;> rfl
  · exact ⟨hnone, .inl hfault⟩

/-- The order is under way on a node in READY: RUNNING, or a fault. -/
theorem beginOrder_of_ready (hok : firstLegOk o s = true) (hboth : (endRec s (otherEnd o.lead)).isSome = true)
    (hstate : s.cs.state = .ready) (hpending : s.os.pending = none) :
    (beginOrder o s).os.pending = none ∧ ((beginOrder o s).cs.state = .fault ∨
      (firstLegOk o (beginOrder o s) = true ∧ (beginOrder o s).cs.state = .running ∧
        (beginOrder o s).os.active.map (fun b => (b.ord, b.phase)) = some (o, .underway))) := by
  obtain ⟨head, l, hhead, hl, -, -⟩ := firstLegOk_iff.mp hok
  obtain ⟨tail, htail⟩ := Option.isSome_iff_exists.mp hboth
  obtain ⟨hcs, hos, -, -, -, hendA, hendB, -⟩ := tiedStart_parts o head tail l s
  have hready : (tiedStart o head tail l s).cs.state = .ready := by rw [hcs, hstate]
  have hblank : blank (movedOff (tiedStart o head tail l s)) = blank (entered .running (tiedStart o head tail l s)) := by
    rw [movedOff_of_ready hready]
    exact blank_enterState (by rw [hready]; exact CarState.noConfusion)
  rw [beginOrder_eq hhead htail hl]
  generalize movedOff (tiedStart o head tail l s) = u at hblank
  generalize tiedStart o head tail l s = v at *
  have hrunning : u.cs.state = .running := (congrArg Supervisor.state (cs_of_blank hblank)).trans rfl
  have hos' : u.os = v.os := (os_of_blank hblank).trans rfl
  have hendA' : u.pu.endA = v.pu.endA := (congrArg PosUnit.endA (pu_of_blank hblank)).trans rfl
  have hendB' : u.pu.endB = v.pu.endB := (congrArg PosUnit.endB (pu_of_blank hblank)).trans rfl
  exact begun_outcome (hendA'.trans hendA) (hendB'.trans hendB) (hos'.trans hos) (by rw [hrunning]; exact CarState.noConfusion)
    hok hpending |>.imp id (Or.imp id fun ⟨hfirst, hst, hactive⟩ => ⟨hfirst, hst.trans hrunning, hactive⟩)

end

end

end Sys2Proof.Machine
end

section
/-! A clean start: the tied list, the firm end it hands, and the tests that raise nothing (R8, R66, R76). -/

namespace Sys2Proof.Machine

open Sys2Proof

/-! ## The walk over a tied list -/

/-- An own list as a clean start ties it: REAR entries, then those of leg 1, all held firm, from the tail's segment on. -/
structure TiedFrom (g : Seg) (own : List OwnClaim) : Prop where
  parts : ∃ rears legs, own = rears ++ legs ∧ legs ≠ [] ∧ (∀ e ∈ rears, e.leg = .rear) ∧ ∀ e ∈ legs, e.leg = .leg 1
  firm : ∀ e ∈ own, firmState e.st = true
  first : own.head?.map OwnClaim.seg = some g

theorem firmWalk_of_leg_one {legs : List OwnClaim} (hleg : ∀ e ∈ legs, e.leg = .leg 1) : firmWalk (some (.leg 1)) 1 legs = 1 := by
  cases legs with
  | nil => rfl
  | cons e rest =>
    have h : follows (some (.leg 1)) e.leg = false := by rw [hleg e List.mem_cons_self]; rfl
    unfold firmWalk
    rw [h, Bool.and_false]
    rfl

theorem firmWalk_tied {prev : Option OwnLeg} {rears legs : List OwnClaim} (hprev : prev = none ∨ prev = some .rear)
    (hrear : ∀ e ∈ rears, e.leg = .rear) (hne : legs ≠ []) (hleg : ∀ e ∈ legs, e.leg = .leg 1)
    (hfirm : ∀ e ∈ rears ++ legs, firmState e.st = true) : firmWalk prev 0 (rears ++ legs) = 1 := by
  induction rears generalizing prev with
  | nil =>
    cases legs with
    | nil => exact absurd rfl hne
    | cons e rest =>
      have he := hleg e List.mem_cons_self
      have hfollows : follows prev e.leg = true := by rw [he]; rcases hprev with h | h <;> rw [h] <;> rfl
      show firmWalk prev 0 (e :: rest) = 1
      unfold firmWalk
      rw [hfirm e (by simp), hfollows, he]
      exact firmWalk_of_leg_one fun x hx => hleg x (List.mem_cons_of_mem _ hx)
  | cons e rest ih =>
    have he := hrear e List.mem_cons_self
    have hfollows : follows prev e.leg = true := by rw [he]; rcases hprev with h | h <;> rw [h] <;> rfl
    show firmWalk prev 0 (e :: (rest ++ legs)) = 1
    unfold firmWalk
    rw [hfirm e (by simp), hfollows, he]
    exact ih (.inr rfl) (fun x hx => hrear x (List.mem_cons_of_mem _ hx)) fun x hx => hfirm x (List.mem_cons_of_mem _ hx)

theorem TiedFrom.walk {g : Seg} {own : List OwnClaim} (h : TiedFrom g own) {base : List Seg} (hg : g ∈ base) :
    firmWalk none 0 (own.dropWhile (fun e => decide (e.seg ∉ base))) = 1 := by
  obtain ⟨⟨rears, legs, hown, hne, hrear, hleg⟩, hfirm, hfirst⟩ := h
  have hkept : own.dropWhile (fun e => decide (e.seg ∉ base)) = own := by
    cases own with
    | nil => rfl
    | cons e rest =>
      have he : e.seg = g := Option.some.inj hfirst
      exact List.dropWhile_cons_of_neg (by simpa [he] using hg)
  rw [hkept, hown]
  exact firmWalk_tied (.inl rfl) hrear hne hleg (hown ▸ hfirm)

theorem TiedFrom.map {g : Seg} {own : List OwnClaim} (h : TiedFrom g own) {f : OwnClaim → OwnClaim}
    (hf : ∀ e, (f e).leg = e.leg ∧ (f e).seg = e.seg ∧ (firmState e.st = true → firmState (f e).st = true)) :
    TiedFrom g (own.map f) := by
  obtain ⟨⟨rears, legs, hown, hne, hrear, hleg⟩, hfirm, hfirst⟩ := h
  refine ⟨⟨rears.map f, legs.map f, by rw [hown, List.map_append], by simpa using hne, fun e he => ?_, fun e he => ?_⟩,
    fun e he => ?_, ?_⟩
  · obtain ⟨x, hx, rfl⟩ := List.mem_map.mp he
    exact (hf x).1.trans (hrear x hx)
  · obtain ⟨x, hx, rfl⟩ := List.mem_map.mp he
    exact (hf x).1.trans (hleg x hx)
  · obtain ⟨x, hx, rfl⟩ := List.mem_map.mp he
    exact (hf x).2.2 (hfirm x hx)
  · cases own with
    | nil => cases hfirst
    | cons e rest =>
      rw [List.map_cons, List.head?_cons, Option.map_some, (hf e).2.1]
      exact hfirst

theorem TiedFrom.firmedStanding {g : Seg} {own : List OwnClaim} (h : TiedFrom g own) : TiedFrom g (firmedStanding own) := by
  refine h.map fun e => ?_
  split
  · exact ⟨rfl, rfl, fun _ => rfl⟩
  · exact ⟨rfl, rfl, id⟩

/-! ## The firm end of an order that starts -/

section
variable {o : OrderRec} {head tail : EndRec} {l : Leg} {s : State}

theorem legAt_one {legs : List Leg} (h : legs.head? = some l) : legAt legs 1 = some l := by
  cases legs with
  | nil => cases h
  | cons x rest => exact h

theorem legEnd_one {legs : List Leg} (h : legs.head? = some l) : legEnd legs 1 = l.len := by
  cases legs with
  | nil => cases h
  | cons x rest =>
    cases h
    simp [legEnd]

theorem rearAtStart_of_ne (h : tail.seg ≠ l.seg) : ∃ r, rearAtStart o l tail s = some r ∧ r.seg = tail.seg ∧
    r.dir = turn o.lead tail.aSense := ⟨_, if_neg h, rfl, rfl⟩

theorem rearAtStart_of_eq (h : tail.seg = l.seg) : rearAtStart o l tail s = none := if_pos h

/-- The tail of an order that has just started lies on the segment of its end record. -/
theorem tailPos_of_start {v : State} (hl : legAt o.legs 1 = some l) (hknown : v.pu.known = true)
    (hnotice : v.pu.noticeHead = some o.lead) (hroute : v.pu.route.isSome = true)
    (hactive : v.os.active = some (startRecord o tail l s)) : (tailPos v).1 = tail.seg := by
  obtain ⟨r, hr⟩ := Option.isSome_iff_exists.mp hroute
  have hother : otherEnd o.lead ≠ o.lead := by cases o.lead <;> exact End.noConfusion
  unfold tailPos noticeEnd
  rw [if_pos hknown, hnotice]
  unfold endPos
  rw [hr, hactive]
  show (if otherEnd o.lead = o.lead then routeHead _ r else routeTail v _ r).1 = tail.seg
  rw [if_neg hother]
  unfold routeTail startRecord
  by_cases h : tail.seg = l.seg
  · rw [rearAtStart_of_eq h]
    show (onLeg o.legs 1 (tailCoord v r)).1 = tail.seg
    rw [onLeg_of_legAt _ hl, h]
  · obtain ⟨q, hq, hseg, -⟩ := rearAtStart_of_ne (o := o) (s := s) h
    rw [hq]
    exact hseg

theorem firmEndOf_of_start {v : State} (hhead : o.legs.head? = some l) (hknown : v.pu.known = true)
    (hnotice : v.pu.noticeHead = some o.lead) (hroute : v.pu.route.isSome = true)
    (hactive : v.os.active = some (startRecord o tail l s)) (hown : TiedFrom tail.seg v.ce.own) :
    firmEndOf v = some l.len := by
  have htail := tailPos_of_start (legAt_one hhead) hknown hnotice hroute hactive
  unfold firmEndOf
  rw [started_of_active hactive OrderPhase.noConfusion]
  dsimp only
  rw [hown.walk (by rw [htail]; exact List.mem_cons_self)]
  exact congrArg some (legEnd_one hhead)

end

end Sys2Proof.Machine
end

section
/-! The tied list of a clean start, and the carriage that moves off with it (R8, R66, R71, R76, R160). -/

namespace Sys2Proof.Machine

open Sys2Proof

/-- An entry of a clean start, tied: to leg 1 on its segment, and otherwise to the rear (R76). -/
def cleanTied (o : OrderRec) (tail : EndRec) (l : Leg) (e : OwnClaim) : OwnClaim :=
  if e.seg = l.seg then
    { e with leg := .leg 1, dir := l.dir, convoy := l.convoy,
             points := match e.points with
               | some p => some p
               | none => l.points.map (fun p => ⟨p.node, p.pos, .freed⟩) }
  else { e with leg := .rear, dir := turn o.lead tail.aSense, convoy := false }

/-- The own list of a clean start, the entries behind leg 1 first. -/
def cleanOwn (o : OrderRec) (tail : EndRec) (l : Leg) (own : List OwnClaim) : List OwnClaim :=
  (own.filter (fun e => decide (e.seg ≠ l.seg)) ++ own.filter (fun e => decide (e.seg = l.seg))).map (cleanTied o tail l)

/-- The order, its leading and trailing end and leg 1 make a clean start. -/
structure Clean (o : OrderRec) (head tail : EndRec) (l : Leg) (s : State) : Prop where
  known : s.pu.known = true
  headAt : endRec s o.lead = some head
  tailAt : endRec s (otherEnd o.lead) = some tail
  leg : o.legs.head? = some l
  onLeg : head.seg = l.seg ∧ l.dir = turn o.lead head.aSense
  headOwn : l.seg ∈ s.ce.own.map OwnClaim.seg
  tailOwn : tail.seg ∈ s.ce.own.map OwnClaim.seg
  own : ∀ e ∈ s.ce.own, firmState e.st = true ∧ (e.seg = l.seg ∨ e.seg = tail.seg)
  pad : ∀ p, lastPad o = some p → travelOf l (min head.off l.len) ≤ padCoord o p + (cfg s).tol

theorem startsClean_iff {o : OrderRec} {s : State} : startsClean o s ↔ ∃ head tail l, Clean o head tail l s := by
  constructor
  · rintro ⟨hknown, head, tail, l, hhead, htail, hl, hseg, hdir, hin, hin', hown, hpad⟩
    exact ⟨head, tail, l, ⟨hknown, hhead, htail, hl, ⟨hseg, hdir⟩, hin, hin', hown, hpad⟩⟩
  · rintro ⟨head, tail, l, h⟩
    exact ⟨h.known, head, tail, l, h.headAt, h.tailAt, h.leg, h.onLeg.1, h.onLeg.2, h.headOwn, h.tailOwn, h.own, h.pad⟩

section
variable {o : OrderRec} {head tail : EndRec} {l : Leg} {s : State}

theorem cleanTied_leg (e : OwnClaim) : (cleanTied o tail l e).leg = if e.seg = l.seg then .leg 1 else .rear := by
  unfold cleanTied
  split <;> rfl

theorem cleanTied_seg (e : OwnClaim) : (cleanTied o tail l e).seg = e.seg := by
  unfold cleanTied
  split <;> rfl

theorem cleanTied_st (e : OwnClaim) : (cleanTied o tail l e).st = e.st := by
  unfold cleanTied
  split <;> rfl

section
variable (hc : Clean o head tail l s)
include hc

theorem Clean.firstLegOk : firstLegOk o s = true :=
  firstLegOk_iff.mpr ⟨head, l, hc.headAt, legAt_one hc.leg, hc.onLeg.1, hc.onLeg.2⟩

theorem tieEntry_of_clean {e : OwnClaim} (he : e ∈ s.ce.own) :
    tieEntry l (rearAtStart o l tail s) s.pu.deferral e = cleanTied o tail l e := by
  unfold tieEntry cleanTied
  by_cases h : e.seg = l.seg
  · rw [if_pos h, if_pos h] <;> rfl
  · have htail : e.seg = tail.seg := ((hc.own e he).2).resolve_left h
    obtain ⟨r, hr, hseg, hdir⟩ := rearAtStart_of_ne (o := o) (s := s) (tail := tail) (l := l) (htail ▸ h)
    rw [if_neg h, if_neg h, hr, ← hdir]
    exact if_pos (htail.trans hseg.symm)

/-- Behind leg 1 a clean start has the rear segment alone. -/
theorem rear_any_of_clean {e : OwnClaim} (he : e ∈ s.ce.own) (h : e.seg ≠ l.seg) :
    (rearAtStart o l tail s).any (fun r => decide (r.seg = e.seg)) = true := by
  have htail : e.seg = tail.seg := ((hc.own e he).2).resolve_left h
  obtain ⟨r, hr, hseg, -⟩ := rearAtStart_of_ne (o := o) (s := s) (tail := tail) (l := l) (htail ▸ h)
  rw [hr, Option.any_some]
  exact decide_eq_true (hseg.trans htail.symm)

theorem startOwn_of_clean : startOwn o tail l s = cleanOwn o tail l s.ce.own := by
  have hmap : s.ce.own.map (tieEntry l (rearAtStart o l tail s) s.pu.deferral) = s.ce.own.map (cleanTied o tail l) :=
    List.map_congr_left fun e he => tieEntry_of_clean hc he
  have hrear (e : OwnClaim) : decide ((cleanTied o tail l e).leg = .rear) = decide (e.seg ≠ l.seg) := by
    rw [cleanTied_leg]
    by_cases h : e.seg = l.seg <;> simp [h]
  unfold startOwn tieOwn cleanOwn
  dsimp only
  rw [hmap, List.filter_map, List.filter_map, List.filter_map, List.map_append]
  have hdeferred : s.ce.own.filter ((fun e : OwnClaim => decide (e.leg = .rear) &&
      !(rearAtStart o l tail s).any (fun r => decide (r.seg = e.seg))) ∘ cleanTied o tail l) = [] := by
    refine List.filter_eq_nil_iff.mpr fun e he h => ?_
    obtain ⟨hleg, hnot⟩ := (Bool.and_eq_true ..).mp h
    rw [hrear] at hleg
    rw [cleanTied_seg, rear_any_of_clean hc he (of_decide_eq_true hleg)] at hnot
    cases hnot
  have hbehind : s.ce.own.filter ((fun e : OwnClaim => decide (e.leg = .rear) &&
      (rearAtStart o l tail s).any (fun r => decide (r.seg = e.seg))) ∘ cleanTied o tail l) =
      s.ce.own.filter (fun e => decide (e.seg ≠ l.seg)) := by
    refine List.filter_congr fun e he => ?_
    show (decide ((cleanTied o tail l e).leg = .rear) && _) = _
    rw [hrear, cleanTied_seg]
    by_cases h : e.seg = l.seg
    · simp [h]
    · rw [rear_any_of_clean hc he h, Bool.and_true]
  have hahead : s.ce.own.filter ((fun e : OwnClaim => decide (e.leg ≠ .rear)) ∘ cleanTied o tail l) =
      s.ce.own.filter (fun e => decide (e.seg = l.seg)) := by
    refine List.filter_congr fun e _ => ?_
    show decide ((cleanTied o tail l e).leg ≠ .rear) = _
    rw [cleanTied_leg]
    by_cases h : e.seg = l.seg <;> simp [h]
  rw [hdeferred, hbehind, hahead] <;> rfl

theorem cleanOwn_tiedFrom : TiedFrom tail.seg (cleanOwn o tail l s.ce.own) := by
  refine ⟨⟨_, _, List.map_append, ?_, ?_, ?_⟩, ?_, ?_⟩
  · obtain ⟨e, he, hseg⟩ := List.mem_map.mp hc.headOwn
    exact List.ne_nil_of_mem (List.mem_map_of_mem (List.mem_filter.mpr ⟨he, decide_eq_true hseg⟩))
  · intro e he
    obtain ⟨x, hx, rfl⟩ := List.mem_map.mp he
    rw [cleanTied_leg, if_neg (of_decide_eq_true (List.mem_filter.mp hx).2)]
  · intro e he
    obtain ⟨x, hx, rfl⟩ := List.mem_map.mp he
    rw [cleanTied_leg, if_pos (of_decide_eq_true (List.mem_filter.mp hx).2)]
  · intro e he
    obtain ⟨x, hx, rfl⟩ := List.mem_map.mp he
    rw [cleanTied_st]
    refine (hc.own x ?_).1
    rcases List.mem_append.mp hx with h | h <;> exact (List.mem_filter.mp h).1
  · have hsegs : ∀ e ∈ s.ce.own, e.seg ≠ l.seg → e.seg = tail.seg := fun e he h => ((hc.own e he).2).resolve_left h
    unfold cleanOwn
    cases hbehind : s.ce.own.filter (fun e => decide (e.seg ≠ l.seg)) with
    | cons e rest =>
      have he : e ∈ s.ce.own.filter (fun e => decide (e.seg ≠ l.seg)) := by rw [hbehind]; exact List.mem_cons_self
      obtain ⟨hmem, hne⟩ := List.mem_filter.mp he
      simp [cleanTied_seg, hsegs e hmem (of_decide_eq_true hne)]
    | nil =>
      have hall : ∀ e ∈ s.ce.own, e.seg = l.seg := fun e he => by
        by_contra h
        exact List.filter_eq_nil_iff.mp hbehind e he (decide_eq_true h)
      obtain ⟨e, he, hseg⟩ := List.mem_map.mp hc.tailOwn
      have hsame : s.ce.own.filter (fun e => decide (e.seg = l.seg)) = s.ce.own :=
        List.filter_eq_self.mpr fun e he => decide_eq_true (hall e he)
      rw [hsame]
      cases hown : s.ce.own with
      | nil => rw [hown] at he; cases he
      | cons x rest =>
        have hx : x.seg = l.seg := hall x (by rw [hown]; exact List.mem_cons_self)
        simp [cleanTied_seg, hx, ← hseg, hall e he]

end

end

end Sys2Proof.Machine
end

section
/-! A clean start carried out: what it leaves, with no test raising a fault (R8, R105, R116, R140, R160). -/

namespace Sys2Proof.Machine

open Sys2Proof

/-- What a clean start leaves, but for the frames and the timers of the line. -/
structure CleanStart (o : OrderRec) (head tail : EndRec) (l : Leg) (s u : State) : Prop where
  orders : u.os = { s.os with active := some (startRecord o tail l s), stopMark := false }
  route : u.pu.route = some (startRoute o head tail l s)
  notice : u.pu.noticeHead = some o.lead ∧ u.pu.padRead = none
  attempts : u.ce.attempts = 0 ∧ u.ce.spanLimit = 4 ∧ u.ce.backoff = none ∧ u.ce.failedHold = none ∧ u.ce.exempt = true
  firmEnd : u.ce.firmEnd = some l.len
  supervisor : ∃ st, u.cs = { s.cs with state := st, stopCond := none }
  own : u.ce.own = if s.cs.state = .parked then firmedStanding (cleanOwn o tail l s.ce.own) else cleanOwn o tail l s.ce.own
  ready : s.cs.state = .ready → u.cs.state = .running ∧ u.ds = s.ds
  parked : s.cs.state = .parked → s.ds.pos ≠ .up →
    u.cs.state = .undocking ∧ u.ds = { s.ds with cmd := .raise, undockTimer := some 0 }
  view : u.ov = s.ov

section
variable {o : OrderRec} {head tail : EndRec} {l : Leg} {s : State}

theorem firmedUp_attempts (s : State) : (firmedUp s).ce.attempts = s.ce.attempts ∧ (firmedUp s).ce.spanLimit = s.ce.spanLimit ∧
    (firmedUp s).ce.backoff = s.ce.backoff ∧ (firmedUp s).ce.failedHold = s.ce.failedHold ∧
    (firmedUp s).ce.exempt = s.ce.exempt := by
  unfold firmedUp
  split <;> exact ⟨rfl, rfl, rfl, rfl, rfl⟩

/-- The plain update of a clean start, before the carriage moves off. -/
def cleanBase (o : OrderRec) (head tail : EndRec) (l : Leg) (s : State) : State :=
  withOwn (cleanOwn o tail l s.ce.own) (underway o head tail l s)

theorem blank_tiedStart_of_clean (hc : Clean o head tail l s) : blank (tiedStart o head tail l s) = blank (cleanBase o head tail l s) := by
  rw [blank_tiedStart, startOwn_of_clean hc] <;> rfl

/-- The firming leaves the firm end at the end of leg 1. -/
theorem firmedUp_firmEnd {v : State} (hc : Clean o head tail l s) (hfirm : v.ce.firmEnd = some l.len)
    (hknown : v.pu.known = true) (hnotice : v.pu.noticeHead = some o.lead) (hroute : v.pu.route.isSome = true)
    (hactive : v.os.active = some (startRecord o tail l s)) (hown : v.ce.own = cleanOwn o tail l s.ce.own) :
    (firmedUp v).ce.firmEnd = some l.len := by
  obtain ⟨-, -, -, -, -, -, h | h⟩ := firmedUp_parts v
  · exact h.trans hfirm
  · refine h.trans (firmEndOf_of_start (o := o) (s := s) (tail := tail) hc.leg hknown hnotice hroute hactive ?_)
    show TiedFrom tail.seg (firmedStanding v.ce.own)
    rw [hown]
    exact (cleanOwn_tiedFrom hc).firmedStanding

/-- What the plain update sets, and what it leaves as it was. -/
theorem cleanBase_parts (o : OrderRec) (head tail : EndRec) (l : Leg) (s : State) :
    (cleanBase o head tail l s).os = { s.os with active := some (startRecord o tail l s), stopMark := false } ∧
    ((cleanBase o head tail l s).pu.known = s.pu.known ∧ (cleanBase o head tail l s).pu.route = some (startRoute o head tail l s) ∧
      (cleanBase o head tail l s).pu.noticeHead = some o.lead ∧ (cleanBase o head tail l s).pu.padRead = none) ∧
    ((cleanBase o head tail l s).ce.attempts = 0 ∧ (cleanBase o head tail l s).ce.spanLimit = 4 ∧
      (cleanBase o head tail l s).ce.backoff = none ∧ (cleanBase o head tail l s).ce.failedHold = none ∧
      (cleanBase o head tail l s).ce.exempt = true) ∧
    (cleanBase o head tail l s).cs = s.cs ∧ (cleanBase o head tail l s).ds = s.ds ∧ (cleanBase o head tail l s).ov = s.ov ∧
    (cleanBase o head tail l s).ce.own = cleanOwn o tail l s.ce.own :=
  ⟨rfl, ⟨rfl, rfl, rfl, rfl⟩, ⟨rfl, rfl, rfl, rfl, rfl⟩, rfl, rfl, rfl, rfl⟩

theorem cleanBase_firmEnd (hc : Clean o head tail l s) : (cleanBase o head tail l s).ce.firmEnd = some l.len :=
  firmEndOf_of_start (v := (underway o head tail l s).setCe
    { (underway o head tail l s).ce with own := cleanOwn o tail l s.ce.own }) hc.leg hc.known rfl rfl rfl (cleanOwn_tiedFrom hc)

theorem movedOff_clean_ready (hc : Clean o head tail l s) (hstate : s.cs.state = .ready) :
    CleanStart o head tail l s (movedOff (tiedStart o head tail l s)) := by
  have hbase := blank_tiedStart_of_clean hc
  have hready : (tiedStart o head tail l s).cs.state = .ready := by
    rw [cs_of_blank hbase]
    exact hstate
  have hblank : blank (movedOff (tiedStart o head tail l s)) = blank (entered .running (cleanBase o head tail l s)) := by
    rw [movedOff_of_ready hready, blank_enterState (by rw [hready]; exact CarState.noConfusion)]
    exact blank_entered hbase
  have hfirm := cleanBase_firmEnd hc
  have hnot : s.cs.state ≠ .parked := by rw [hstate]; exact CarState.noConfusion
  obtain ⟨hos, ⟨hknown, hroute, hnotice, hpad⟩, ⟨hatt, hspan, hback, hheld, hex⟩, hcs, hds, hov, hown⟩ :=
    cleanBase_parts o head tail l s
  generalize cleanBase o head tail l s = v at *
  generalize movedOff (tiedStart o head tail l s) = u at *
  have hpu := pu_of_blank hblank
  have hce := ce_of_blank hblank
  have hsup : u.cs = { v.cs with state := .running, stopCond := none } := cs_of_blank hblank
  have hjack : u.ds = v.ds := (ds_of_blank hblank).trans rfl
  have hview : u.ov = v.ov := (ov_of_blank hblank).trans rfl
  have hord : u.os = v.os := (os_of_blank hblank).trans rfl
  exact {
    orders := hord.trans hos
    route := by rw [hpu]; exact hroute
    notice := by rw [hpu]; exact ⟨hnotice, hpad⟩
    attempts := by rw [hce]; exact ⟨hatt, hspan, hback, hheld, hex⟩
    firmEnd := by rw [hce]; exact hfirm
    supervisor := ⟨.running, by rw [hsup, hcs]⟩
    own := by rw [hce, if_neg hnot]; exact hown
    ready := fun _ => ⟨by rw [hsup], hjack.trans hds⟩
    parked := fun h => absurd h hnot
    view := hview.trans hov }

/-- The undocking of a clean start begins. -/
theorem cleanStart_of_raised (hc : Clean o head tail l s) (hstate : s.cs.state = .parked) {u : State}
    (hblank : blank u = blank (firmedUp (undockingBegun (cleanBase o head tail l s)))) : CleanStart o head tail l s u := by
  have hend := cleanBase_firmEnd hc
  obtain ⟨hos, ⟨hknown, hroute, hnotice, hpad⟩, ⟨hatt, hspan, hback, hheld, hex⟩, hcs, hds, hov, hown⟩ :=
    cleanBase_parts o head tail l s
  generalize cleanBase o head tail l s = v at *
  obtain ⟨hcs', hos', hpu', hds', -, hov', -⟩ := firmedUp_parts (undockingBegun v)
  have hown' := firmedUp_own (undockingBegun v)
  have hce' := firmedUp_attempts (undockingBegun v)
  have hfirm : (firmedUp (undockingBegun v)).ce.firmEnd = some l.len :=
    firmedUp_firmEnd (o := o) (tail := tail) (s := s) hc hend (hknown.trans hc.known) hnotice (congrArg Option.isSome hroute)
      (congrArg OrderStore.active hos) hown
  generalize firmedUp (undockingBegun v) = w at *
  have hpu := pu_of_blank hblank
  rw [hpu'] at hpu
  have hce := ce_of_blank hblank
  have hsup : u.cs = { v.cs with state := .undocking, stopCond := none } := (cs_of_blank hblank).trans hcs'
  have hjack : u.ds = { v.ds with cmd := .raise, undockTimer := some 0 } := (ds_of_blank hblank).trans hds'
  have hview : u.ov = v.ov := (ov_of_blank hblank).trans hov'
  have hord : u.os = v.os := (os_of_blank hblank).trans hos'
  have hclaims : u.ce.own = firmedStanding v.ce.own := by rw [hce, hown'] <;> rfl
  obtain ⟨ha, hb, hd, he, hf⟩ := hce'
  exact {
    orders := hord.trans hos
    route := by rw [hpu]; exact hroute
    notice := by rw [hpu]; exact ⟨hnotice, hpad⟩
    attempts := by rw [hce]; exact ⟨ha.trans hatt, hb.trans hspan, hd.trans hback, he.trans hheld, hf.trans hex⟩
    firmEnd := by rw [hce, hfirm]
    supervisor := ⟨.undocking, by rw [hsup, hcs]⟩
    own := by rw [hclaims, hown, if_pos hstate]
    ready := fun h => by rw [hstate] at h; cases h
    parked := fun _ _ => ⟨by rw [hsup], by rw [hjack, hds]⟩
    view := hview.trans hov }

/-- The jacks being up, the carriage leaves UNDOCKING at once. -/
theorem CleanStart.left {u : State} (h : CleanStart o head tail l s u) (hlatch : s.cs.latch = none)
    (hstate : s.cs.state = .parked) (hpos : s.ds.pos = .up) (hentered : u.cs.state = .undocking) :
    CleanStart o head tail l s (leaveUndocking u) := by
  obtain ⟨st, hsup⟩ := h.supervisor
  have hclear : ¬ (jacksOff u).cs.latch.isSome = true := by
    rw [show (jacksOff u).cs.latch = none from (congrArg Supervisor.latch hsup).trans hlatch]
    exact Bool.false_ne_true
  have hblank : blank (enterState .running (jacksOff u)) = blank (entered .running (jacksOff u)) :=
    blank_enterState (by rw [show (jacksOff u).cs.state = .undocking from hentered]; exact CarState.noConfusion)
  unfold leaveUndocking
  rw [if_neg hclear, testTrigger_eq]
  generalize enterState .running (jacksOff u) = w at *
  have hpu := pu_of_blank hblank
  have hce := ce_of_blank hblank
  exact {
    orders := ((os_of_blank hblank).trans rfl).trans h.orders
    route := by rw [State.setCe_pu, hpu]; exact h.route
    notice := by rw [State.setCe_pu, hpu]; exact h.notice
    attempts := by show w.ce.attempts = 0 ∧ _; rw [hce]; exact h.attempts
    firmEnd := by show w.ce.firmEnd = _; rw [hce]; exact h.firmEnd
    supervisor := ⟨.running, ((cs_of_blank hblank).trans rfl).trans (congrArg (fun c : Supervisor => { c with state := .running, stopCond := none }) hsup)⟩
    own := by show w.ce.own = _; rw [hce]; exact h.own
    ready := fun hready => by rw [hstate] at hready; cases hready
    parked := fun _ hne => absurd hpos hne
    view := ((ov_of_blank hblank).trans rfl).trans h.view }

theorem movedOff_clean_parked (hc : Clean o head tail l s) (hstate : s.cs.state = .parked)
    (hpos : s.ds.pos ≠ .up ∨ s.cs.latch = none) : CleanStart o head tail l s (movedOff (tiedStart o head tail l s)) := by
  have hbase := blank_tiedStart_of_clean hc
  have hparked : (tiedStart o head tail l s).cs.state = .parked := by
    rw [cs_of_blank hbase]
    exact hstate
  have hjacks : (tiedStart o head tail l s).ds = s.ds := by
    rw [ds_of_blank hbase]
    rfl
  have hbegun : blank (undockingBegun (tiedStart o head tail l s)) = blank (undockingBegun (cleanBase o head tail l s)) :=
    blank_congr (F := undockingBegun) (fun _ => rfl) hbase
  obtain ⟨v, hv, hblank⟩ := startUndocking_eq hparked
  have hraised := hblank.trans (blank_firmedUp hbegun)
  have h := cleanStart_of_raised hc hstate hraised
  have hundocking : v.cs.state = .undocking := by
    obtain ⟨hcs, -⟩ := firmedUp_parts (undockingBegun (tiedStart o head tail l s))
    rw [cs_of_blank hblank, hcs] <;> rfl
  rw [movedOff_of_parked hparked, hv, hjacks]
  by_cases hup : s.ds.pos = .up
  · rw [if_pos hup]
    exact h.left (hpos.resolve_left (absurd hup)) hstate hup hundocking
  · rw [if_neg hup]
    exact h

/-- No test at the end of a clean start raises anything. -/
theorem CleanStart.tests (hc : Clean o head tail l s) {u : State} (h : CleanStart o head tail l s u) :
    overrunTest (padWatch u) = u := by
  have hcfg : cfg u = cfg s := by
    obtain ⟨st, hsup⟩ := h.supervisor
    unfold cfg
    rw [hsup]
  have hpad : padWatch u = u := by
    refine padWatch_of_within (a := startRecord o tail l s) (by rw [h.orders]) h.route fun p hp => .inr ?_
    rw [hcfg]
    exact Int.ofNat_le.mpr (hc.pad p hp)
  rw [hpad]
  refine overrunTest_of_route h.route fun f hf => ?_
  cases h.firmEnd.symm.trans hf
  refine Int.ofNat_le.mpr ?_
  unfold travelOf
  cases l.dir
  · exact Nat.min_le_right ..
  · exact Nat.sub_le ..

theorem beginOrder_of_clean (hc : Clean o head tail l s)
    (hstate : s.cs.state = .ready ∨ (s.cs.state = .parked ∧ (s.ds.pos ≠ .up ∨ s.cs.latch = none))) :
    beginOrder o s = testTrigger (movedOff (tiedStart o head tail l s)) ∧
    CleanStart o head tail l s (movedOff (tiedStart o head tail l s)) := by
  have h : CleanStart o head tail l s (movedOff (tiedStart o head tail l s)) := by
    rcases hstate with h | ⟨h, hpos⟩
    · exact movedOff_clean_ready hc h
    · exact movedOff_clean_parked hc h hpos
  exact ⟨by rw [beginOrder_eq hc.headAt hc.tailAt (legAt_one hc.leg), h.tests hc], h⟩

end

end Sys2Proof.Machine
end

section
/-! An order in the ACTIVE slot is tested and starts, or is refused (R8, R9). -/

namespace Sys2Proof.Machine

open Sys2Proof

section
variable {s : State}

theorem settleRefresh_setOs (v : OrderStore) (s : State) : settleRefresh (s.setOs v) = (settleRefresh s).setOs v := by
  unfold settleRefresh
  by_cases h : (s.ce.refreshOut && !s.tli.txq.any (fun e => decide (e.tag = .refresh))) = true
  · rw [if_pos h]
    exact if_pos h
  · rw [if_neg h]
    exact if_neg h

/-- The Order Store has no part in a REPORT. -/
theorem report_setOs (b : Block) (u : Subject) (out : ReportOutcome) (n : Nat) (v : OrderStore) (s : State) :
    report b u out n (s.setOs v) = (report b u out n s).setOs v := by
  unfold report
  rw [show console (s.setOs v) = console s from rfl]
  split
  · rfl
  · exact settleRefresh_setOs v (s.setTli _)

theorem startActive_of_ok {n : Nat} {a : ActiveOrder} (ha : s.os.active = some a) (hok : firstLegOk a.ord s = true) :
    startActive (n + 1) s = beginOrder a.ord s := by
  unfold startActive
  rw [ha]
  exact if_pos hok

theorem startActive_of_bad {n : Nat} {a : ActiveOrder} (ha : s.os.active = some a) (hbad : firstLegOk a.ord s = false)
    (hpending : s.os.pending = none) : startActive (n + 1) s =
      (report .os .order (.refused (.badOrder .firstLeg 0)) a.ord.id s).setOs { s.os with active := none } := by
  unfold startActive
  rw [ha]
  refine (if_neg (by simp [hbad])).trans ?_
  dsimp only
  rw [report_os, hpending]

/-- A clean start is a matter of the position, the own list and the record. -/
theorem Clean.congr {o : OrderRec} {head tail : EndRec} {l : Leg} {t : State} (h : Clean o head tail l s)
    (hpu : t.pu.known = s.pu.known ∧ t.pu.endA = s.pu.endA ∧ t.pu.endB = s.pu.endB) (hown : t.ce.own = s.ce.own)
    (hcfg : cfg t = cfg s) : Clean o head tail l t := by
  obtain ⟨hknown, hendA, hendB⟩ := hpu
  have hend (e : End) : endRec t e = endRec s e := by cases e <;> assumption
  exact {
    known := hknown.trans h.known
    headAt := (hend _).trans h.headAt
    tailAt := (hend _).trans h.tailAt
    leg := h.leg
    onLeg := h.onLeg
    headOwn := by rw [hown]; exact h.headOwn
    tailOwn := by rw [hown]; exact h.tailOwn
    own := by rw [hown]; exact h.own
    pad := by rw [hcfg]; exact h.pad }

/-! ## What a start keeps of the line -/

theorem startUndocking_framesStay (s : State) : FramesStay s (startUndocking s) := by
  unfold startUndocking
  dsimp only
  refine FramesStay.after (.ite (fun _ => ?_) (fun _ => .refl _)) ((queueClaim_framesStay _ _ _ _).after ?_)
  · unfold leaveUndocking
    refine .ite (fun _ => (enterState_framesStay _ _).after (.of_eq rfl)) fun _ => ?_
    exact (testTrigger_framesStay _).after ((enterState_framesStay _ _).after (.of_eq rfl))
  · exact FramesStay.after (.ite (fun _ => .refl _) (fun _ => setOwn_framesStay _ _))
      ((enterState_framesStay _ _).after (.of_eq rfl))

theorem movedOff_framesStay (s : State) : FramesStay s (movedOff s) :=
  .ite (fun _ => startUndocking_framesStay s) (fun _ => enterState_framesStay _ s)

/-- The CLAIM that says what the tying changed waits (R76). -/
theorem tiedStart_mem {o : OrderRec} {head tail : EndRec} {l : Leg} (hclash : s.tli.clash = false)
    (hchanged : tieChanged s.ce.own (startOwn o tail l s) = true) :
    offered .ce .plain (.claim o.cls (cfg s).refresh ((startOwn o tail l s).map itemOf)) ∈
      (tiedStart o head tail l s).tli.txq ++ (tiedStart o head tail l s).tli.kept := by
  have hne : startOwn o tail l s ≠ [] := fun h => by rw [h] at hchanged; cases hchanged
  have hblank : blank (setOwn (startOwn o tail l s) (underway o head tail l s)) =
      blank (withOwn (startOwn o tail l s) (underway o head tail l s)) := blank_setOwn ..
  have hclash' : (setOwn (startOwn o tail l s) (underway o head tail l s)).tli.clash = false :=
    (clash_of_blank hblank).trans hclash
  have hcfg : cfg (setOwn (startOwn o tail l s) (underway o head tail l s)) = cfg s := by
    unfold cfg
    rw [cs_of_blank hblank] <;> rfl
  unfold tiedStart
  rw [if_pos hchanged, ← hcfg]
  exact queueClaim_mem hclash' hne

theorem tieChanged_of_exists {own : List OwnClaim} {tied : OwnClaim → OwnClaim} (hseg : ∀ e, (tied e).seg = e.seg)
    {after : List OwnClaim} (hafter : ∀ e ∈ own, tied e ∈ after)
    (h : ∃ e ∈ own, e.dir ≠ (tied e).dir ∨ e.convoy ≠ (tied e).convoy) : tieChanged own after = true := by
  obtain ⟨e, he, hne⟩ := h
  refine List.any_eq_true.mpr ⟨tied e, hafter e he, List.any_eq_true.mpr ⟨e, he, ?_⟩⟩
  rcases hne with h | h <;> simp [hseg, h]

theorem mem_cleanOwn {o : OrderRec} {tail : EndRec} {l : Leg} {own : List OwnClaim} {e : OwnClaim} (he : e ∈ own) :
    cleanTied o tail l e ∈ cleanOwn o tail l own := by
  refine List.mem_map_of_mem ?_
  by_cases h : e.seg = l.seg
  · exact List.mem_append_right _ (List.mem_filter.mpr ⟨he, decide_eq_true h⟩)
  · exact List.mem_append_left _ (List.mem_filter.mpr ⟨he, decide_eq_true h⟩)

end

end Sys2Proof.Machine
end

section
/-! O21: an ORDER that starts at once (R7, R8, R66, R76). -/

namespace Sys2Proof.Machine

open Sys2Proof

/-- The order taken into the ACTIVE slot. -/
def slotted (o : OrderRec) (s : State) : State :=
  (taken s).setOs { s.os with active := some (waitingOrder (storedOrder (cfg s) o)) }

/-- The order taken with both slots empty, its REPORT ACCEPTED queued. -/
def acceptedOrder (o : OrderRec) (s : State) : State := report .os .order .accepted o.id (slotted o s)

section
variable {src : Addr} {o : OrderRec} {s : State}

/-- What taking the order leaves as it was. -/
theorem acceptedOrder_parts (o : OrderRec) (s : State) :
    (acceptedOrder o s).os = { s.os with active := some (waitingOrder (storedOrder (cfg s) o)) } ∧
    (acceptedOrder o s).pu = s.pu ∧ (acceptedOrder o s).cs = s.cs ∧ (acceptedOrder o s).ds = s.ds ∧
    (acceptedOrder o s).ov = s.ov ∧ (acceptedOrder o s).ce.own = s.ce.own ∧
    (acceptedOrder o s).tli.clash = s.tli.clash ∧ (acceptedOrder o s).tli.inbound = s.tli.inbound.tail := by
  have h := report_steady .os .order .accepted o.id (slotted o s)
  exact ⟨report_os .., report_pu .., report_cs .., report_ds .., report_ov .., report_ce_own .., h.clash, h.inbound⟩

theorem cfg_acceptedOrder (o : OrderRec) (s : State) : cfg (acceptedOrder o s) = cfg s := by
  obtain ⟨-, -, hcs, -⟩ := acceptedOrder_parts o s
  unfold cfg
  rw [hcs]

variable (hfront : atFront src (.order o) s = true) (hkind : s.tli.kind = .carriage)
  (hpass : structuralTest (cfg s) o = none) (hstate : s.cs.state = .ready ∨ s.cs.state = .parked)
  (hactive : s.os.active = none) (hlatch : s.cs.latch = none)
include hfront hkind hpass hstate hactive hlatch

theorem exec_order_ok (hok : firstLegOk (storedOrder (cfg s) o) s = true) :
    exec (.order src o) s = .next (beginOrder (storedOrder (cfg s) o) (acceptedOrder o s)) := by
  obtain ⟨hos, hpu, -⟩ := acceptedOrder_parts o s
  have hempty := takeOrder_empty (s := taken s) (o := o) hpass hstate hactive
  have htake : takeOrder o (taken s) = startActive 1 (acceptedOrder o s) := by
    rw [hempty]
    exact (if_neg (by rw [show (taken s).cs.latch = none from hlatch]; exact Bool.false_ne_true)).trans (if_pos hok)
  rw [exec_order_carriage hfront hkind, htake, startActive_of_ok (congrArg OrderStore.active hos)]
  · rfl
  · exact (firstLegOk_congr (congrArg PosUnit.endA hpu) (congrArg PosUnit.endB hpu)).trans hok

theorem exec_order_bad (hpending : s.os.pending = none) (hbad : firstLegOk (storedOrder (cfg s) o) s = false) :
    exec (.order src o) s = .next (report .os .order (.refused (.badOrder .firstLeg 0)) o.id (taken s)) := by
  have hempty := takeOrder_empty (s := taken s) (o := o) hpass hstate hactive
  have htake : takeOrder o (taken s) = startActive 1 (slotted o s) := by
    rw [hempty]
    exact (if_neg (by rw [show (taken s).cs.latch = none from hlatch]; exact Bool.false_ne_true)).trans
      (if_neg fun h => Bool.false_ne_true (hbad.symm.trans h))
  have hos : ({ s.os with active := none } : OrderStore) = (taken s).os := by
    show _ = s.os
    rw [← hactive]
  rw [exec_order_carriage hfront hkind, htake, startActive_of_bad (s := slotted o s) (a := waitingOrder (storedOrder (cfg s) o)) rfl
    hbad hpending]
  refine congrArg _ ?_
  rw [slotted, report_setOs]
  show ((report .os .order (.refused (.badOrder .firstLeg 0)) o.id (taken s)).setOs _).setOs { s.os with active := none } = _
  rw [hos, ← report_os .os .order (.refused (.badOrder .firstLeg 0)) o.id (taken s)] <;> rfl

end

/-- The rear segment of an order that starts. -/
theorem rearAtStart_eq (o : OrderRec) (l : Leg) (tail : EndRec) (s : State) : rearAtStart o l tail s =
    if tail.seg = l.seg then none else
      some { seg := tail.seg, dir := turn o.lead tail.aSense,
             limit := ((s.os.memory.find? (fun m => decide (m.1 = tail.seg))).map Prod.snd).getD (cfg s).ceiling } := by
  unfold rearAtStart
  cases s.os.memory.find? (fun m => decide (m.1 = tail.seg)) <;> rfl

/-- The progress record of an order that starts. -/
theorem startRecord_eq (o : OrderRec) (tail : EndRec) (l : Leg) (s : State) : startRecord o tail l s =
    { ord := o, phase := .underway, headLeg := 1, tailLeg := if tail.seg = l.seg then .leg 1 else .rear, nextClaim := 2,
      rear := rearAtStart o l tail s } := by
  have htail : (rearAtStart o l tail s).isSome = true ↔ ¬ tail.seg = l.seg := by
    unfold rearAtStart
    split <;> simp [*]
  unfold startRecord
  by_cases h : tail.seg = l.seg
  · rw [if_pos h, if_neg (by rw [htail]; exact not_not_intro h)]
  · rw [if_neg h, if_pos (htail.mpr h)]

/-- Settles O21: the test of leg 1 decides, and a clean start is carried out with no fault in the way. -/
theorem orderStarts : Obligations.OrderStarts := by
  intro src o s hfront hkind hpass hstate hactive hpending hlatch st
  refine ⟨fun hbad => exec_order_bad hfront hkind hpass hstate hactive hlatch hpending hbad, ?_⟩
  intro head tail l hclean hhead htail hl x rear tied own
  obtain ⟨head', tail', l', hc⟩ := startsClean_iff.mp hclean
  obtain rfl : head' = head := Option.some.inj (hc.headAt.symm.trans hhead)
  obtain rfl : tail' = tail := Option.some.inj (hc.tailAt.symm.trans htail)
  obtain rfl : l' = l := Option.some.inj (hc.leg.symm.trans hl)
  obtain ⟨hos, hpu, hcs, hds, hov, hown, hmute, hinbound⟩ := acceptedOrder_parts o s
  have hcfg := cfg_acceptedOrder o s
  have hc' : Clean st head' tail' l' (acceptedOrder o s) := hc.congr (by rw [hpu]; exact ⟨rfl, rfl, rfl⟩) hown hcfg
  obtain ⟨hbegin, h⟩ := beginOrder_of_clean hc' (by rw [hcs]; exact hstate.imp id fun h => ⟨h, .inr hlatch⟩)
  have hsteady := beginOrder_steady st (acceptedOrder o s)
  have hexec := exec_order_ok hfront hkind hpass hstate hactive hlatch hc.firstLegOk
  have hrear : rearAtStart st l' tail' (acceptedOrder o s) = rear := by
    rw [rearAtStart_eq, hos, hcfg] <;> rfl
  have htied : cleanOwn st tail' l' s.ce.own = own := rfl
  have hlist := h.own
  rw [hown, htied, hcs] at hlist
  obtain ⟨entered, hsup⟩ := h.supervisor
  rw [hcs] at hsup
  have hstays := movedOff_framesStay (tiedStart st head' tail' l' (acceptedOrder o s))
  have htied' : startOwn st tail' l' (acceptedOrder o s) = own := by rw [startOwn_of_clean hc', hown] <;> rfl
  have hmem := tiedStart_mem (s := acceptedOrder o s) (o := st) (head := head') (tail := tail') (l := l')
  refine ⟨_, hexec, ?_⟩
  rw [hbegin] at hsteady ⊢
  rw [testTrigger_eq] at hsteady ⊢
  generalize movedOff (tiedStart st head' tail' l' (acceptedOrder o s)) = u at *
  refine ⟨?_, ?_, ?_, h.notice.1, h.notice.2, h.attempts.1, h.attempts.2.1, h.attempts.2.2.1, h.attempts.2.2.2.1,
    h.attempts.2.2.2.2, h.firmEnd, fun hready => ?_, fun hparked hpos => ?_, ?_, ?_, ?_, ?_, fun hclash => ⟨fun hch => ?_, fun c hcon => ?_⟩⟩
  · refine (congrArg OrderStore.active h.orders).trans ?_
    show some (startRecord _ _ _ _) = _
    rw [startRecord_eq, hrear]
  · refine (congrArg OrderStore.pending h.orders).trans ?_
    show (acceptedOrder o s).os.pending = none
    rw [hos]
    exact hpending
  · show u.pu.route.map _ = _
    rw [h.route]
    show some ((x : Int), (0 : Int), tail'.off, (x : Int) - (cfg (acceptedOrder o s)).length) = _
    rw [hcfg]
  · have hmoved := h.ready (by rw [hcs]; exact hready)
    rw [hds] at hmoved
    refine ⟨hmoved.1, hmoved.2, hlist.trans (if_neg (by rw [hready]; exact CarState.noConfusion))⟩
  · have hmoved := h.parked (by rw [hcs]; exact hparked) (by rw [hds]; exact hpos)
    refine ⟨hmoved.1, by show u.ds.cmd = _; rw [hmoved.2], by show u.ds.undockTimer = _; rw [hmoved.2], hlist.trans (if_pos hparked)⟩
  · exact hsteady.inbound.trans hinbound
  · exact h.view.trans hov
  · exact (congrArg Supervisor.latch hsup).trans hlatch
  · exact (congrArg Supervisor.fault hsup).trans rfl
  · have hclash' := hmute.trans hclash
    rw [htied', hown, hcfg] at hmem
    have hchanged : tieChanged s.ce.own own = true :=
      tieChanged_of_exists (tied := cleanTied st tail' l') (cleanTied_seg (o := st) (tail := tail') (l := l')) (fun e he => mem_cleanOwn he) hch
    exact queued_of_mem (hstays _ (hmem hclash' hchanged) rfl rfl)
  · have hreport := mem_waiting_report (b := .os) (u := .order) (o := .accepted) (n := o.id) (c := c)
      (s := slotted o s) hclash ((console_carriage (s := slotted o s) hkind).trans hcon)
    exact hsteady.queued hreport

end Sys2Proof.Machine
end

section
/-! O38: HALT, and the resume pair (R156, R167-R170, R99). -/

namespace Sys2Proof.Machine

open Sys2Proof

section
variable {s : State} {src : Addr}

/-! ## HALT -/

theorem exec_halt_carriage {origin : Addr} {reason : HaltReason} (hkind : s.tli.kind = .carriage)
    (hfrom : fromOther src s = true) (horigin : addrOk origin = true) :
    exec (.halt src origin reason) s = .next (setLatch origin reason (quiet s)) :=
  next_congr ((onKind_of_eq _ hkind).trans (hear_of_fromOther _ hfrom horigin))

theorem exec_pointsHalt_points {origin : Addr} {reason : HaltReason} (hkind : s.tli.kind = .points)
    (hfrom : fromOther src s = true) (horigin : addrOk origin = true) : exec (.pointsHalt src origin reason) s =
      .next ((quiet s).setPa { (quiet s).pa with latch := some ⟨origin, reason⟩ }) :=
  next_congr ((onKind_of_eq _ hkind).trans (hear_of_fromOther _ hfrom horigin))

/-- What hearing a frame leaves of a carriage node. -/
theorem quiet_parts (hkind : s.tli.kind = .carriage) : (quiet s).cs = { s.cs with watcher := none } ∧ (quiet s).os = s.os ∧
    (quiet s).pu = s.pu ∧ (quiet s).eu = s.eu ∧ (quiet s).cr = s.cr ∧ (quiet s).ds = s.ds ∧ (quiet s).ce = s.ce := by
  rw [quiet_carriage hkind]
  exact ⟨rfl, rfl, rfl, rfl, rfl, rfl, rfl⟩

theorem outsideSpan_quiet (hkind : s.tli.kind = .carriage) : outsideSpan (quiet s) = outsideSpan s := by
  rw [quiet_carriage hkind] <;> rfl

/-- The latch of a carriage node set by a HALT heard. -/
theorem halt_heard (origin : Addr) (reason : HaltReason) (hkind : s.tli.kind = .carriage) (hfrom : fromOther src s = true)
    (horigin : addrOk origin = true) :
    (s.cs.latch.isSome = true → exec (.halt src origin reason) s = .next (quiet s)) ∧
    (s.cs.latch = none →
      (s.cs.state ≠ .running → s.ce.span = none → exec (.halt src origin reason) s =
        .next ((quiet s).setCs { (quiet s).cs with latch := some ⟨origin, reason⟩ })) ∧
      (s.cs.state = .running → s.ce.span = none ∨ headWithin (outsideSpan s) s →
        ∃ t, exec (.halt src origin reason) s = .next t ∧
          t.cs = { s.cs with state := .halted, latch := some ⟨origin, reason⟩, watcher := none, stopCond := none } ∧
          t.ce.span = none ∧ t.eu = { s.eu with rest := decide (s.eu.demand = 0) && s.pu.standstill,
                                                stopTarget := none } ∧
          t.cr = s.cr ∧ t.ds = s.ds ∧ t.ov = (quiet s).ov ∧ t.ce.attempts = s.ce.attempts ∧
          s.pu = { t.pu with timer := s.pu.timer } ∧
          (s.ce.span.isSome = true → t.ce.abort.map AbortRec.reason = some .halted ∧ t.ce.own = outsideSpan s) ∧
          (s.ce.span = none → t.os = s.os ∧
            s.ce = { t.ce with refresh := s.ce.refresh, refreshOut := s.ce.refreshOut }))) := by
  have hexec := exec_halt_carriage (reason := reason) hkind hfrom horigin
  obtain ⟨hcs, hos, hpu, heu, hcr, hds, hce⟩ := quiet_parts hkind
  have hlatch : (quiet s).cs.latch = s.cs.latch := quiet_cs_latch s
  have hstate : (quiet s).cs.state = s.cs.state := (congrArg Supervisor.state hcs).trans rfl
  refine ⟨fun h => ?_, fun hnone => ⟨fun hne hspan => ?_, fun hrun hout => ?_⟩⟩
  · rw [hexec, setLatch_of_latched (by rw [hlatch]; exact h)]
  · rw [hexec, setLatch_of_not_running (hlatch.trans hnone) (by rw [hstate]; exact hne),
      spanAbort_of_none (s := latched origin reason (quiet s)) ((congrArg ClaimEngine.span hce).trans hspan)] <;> rfl
  · have hout' : (quiet s).ce.span = none ∨ headWithin (outsideSpan (quiet s)) (quiet s) := by
      rw [outsideSpan_quiet hkind, hce]
      exact hout.imp id fun h => headWithin_congr h hos hpu ((congrArg Supervisor.comm hcs).trans rfl)
    obtain ⟨hcs', hspan, heu', hcr', hds', hov', hattempts, hpu', habort, hkept⟩ :=
      setLatch_parts_of_running (src := origin) (reason := reason) (hlatch.trans hnone) (hstate.trans hrun) hout'
    rw [hcs] at hcs'
    rw [heu, hpu] at heu'
    rw [hpu] at hpu'
    rw [hce, outsideSpan_quiet hkind] at habort
    rw [hce, hos] at hkept
    exact ⟨_, hexec, hcs', hspan, heu', hcr'.trans hcr, hds'.trans hds, hov', hattempts.trans (congrArg ClaimEngine.attempts hce),
      hpu', habort, hkept⟩

/-! ## The resume pair -/

theorem exec_resumeWindowExpiry (s : State) : exec .resumeWindowExpiry s = .next (match s.tli.kind with
    | .carriage => s.setCs { s.cs with watcher := none }
    | .points => s.setPa { s.pa with watcher := none }) := by
  show execResumeWindowExpiry s = _
  unfold execResumeWindowExpiry setWatcher
  rfl

/-- RESUME-A from the console arms the watcher, and from another sender disarms it. -/
theorem exec_resumeA {token : Nat} (hfrom : fromOther src s = true) (htoken : token ≤ 65535) :
    exec (.resumeA src token) s =
      .next (setWatcher (if console s = some src then some ⟨src, token, 0⟩ else none) (quiet s)) := by
  obtain ⟨haddr, hne⟩ := (fromOther_iff src s).mp hfrom
  refine next_congr ?_
  rw [haddr, decide_eq_true htoken, Bool.and_self, hear_of_ne _ _ hne, quiet, setWatcher_setWatcher]
  unfold watch watchStep
  rw [console_heard] <;> rfl

theorem exec_resumeB {token : Nat} (hfrom : fromOther src s = true) (htoken : token ≤ 65535) :
    exec (.resumeB src token) s = .next (if completes src (.resumeB token) s then
      match s.tli.kind with
      | .carriage => resumeCarriage (quiet s)
      | .points => resumePoints (quiet s)
      else quiet s) := by
  obtain ⟨haddr, hne⟩ := (fromOther_iff src s).mp hfrom
  refine next_congr ?_
  rw [haddr, decide_eq_true htoken, Bool.and_self, hear_of_ne _ _ hne, watch_resumeB, ← quiet, ← quiet_tli_kind s] <;> rfl

/-- A RESUME-B that completes no pair only disarms the watcher. -/
theorem exec_resumeB_of_incomplete {token : Nat} (hfrom : fromOther src s = true) (htoken : token ≤ 65535)
    (h : ∀ w, watcherOf s = some w → w.sender ≠ src ∨ w.token ≠ token) : exec (.resumeB src token) s = .next (quiet s) := by
  rw [exec_resumeB hfrom htoken, if_neg]
  rw [completes_resumeB_iff]
  rintro ⟨w, hw, hsender, htok⟩
  exact (h w hw).elim (fun h => h hsender) (fun h => h htok)

/-- The latch of a carriage node cleared. -/
def unlatched (s : State) : State := (quiet s).setCs { (quiet s).cs with latch := none }

/-- What the completed pair leads to, by the carriage state. -/
def resumed (s : State) : State :=
  match s.cs.state with
  | .halted => resumeHalted s
  | .ready | .parked => startActive 2 s
  | _ => s

theorem exec_resumeB_carriage {token : Nat} {w : Watcher} (hkind : s.tli.kind = .carriage) (hfrom : fromOther src s = true)
    (htoken : token ≤ 65535) (hw : s.cs.watcher = some w) (hsender : w.sender = src) (htok : w.token = token)
    (hlatch : s.cs.latch.isSome = true) :
    exec (.resumeB src token) s = .next (testTrigger (resumed (unlatched s))) := by
  have hwatch : watcherOf s = some w := by
    unfold watcherOf
    rw [hkind]
    exact hw
  have hset : ¬ (quiet s).cs.latch.isNone = true := by
    rw [quiet_cs_latch]
    cases h : s.cs.latch with
    | none => rw [h] at hlatch; cases hlatch
    | some _ => exact Bool.false_ne_true
  rw [exec_resumeB hfrom htoken, if_pos ((completes_resumeB_iff ..).mpr ⟨w, hwatch, hsender, htok⟩), hkind]
  exact next_congr (if_neg hset)

theorem exec_resumeB_points {token : Nat} {w : Watcher} (hkind : s.tli.kind = .points) (hfrom : fromOther src s = true)
    (htoken : token ≤ 65535) (hw : s.pa.watcher = some w) (hsender : w.sender = src) (htok : w.token = token)
    (hlatch : s.pa.latch.isSome = true) :
    exec (.resumeB src token) s =
      .next (serveAfter (quiet s) ((quiet s).setPa { (quiet s).pa with latch := none })) := by
  have hwatch : watcherOf s = some w := by
    unfold watcherOf
    rw [hkind]
    exact hw
  have hset : ¬ (quiet s).pa.latch.isNone = true := by
    rw [quiet_pa_latch]
    cases h : s.pa.latch with
    | none => rw [h] at hlatch; cases hlatch
    | some _ => exact Bool.false_ne_true
  rw [exec_resumeB hfrom htoken, if_pos ((completes_resumeB_iff ..).mpr ⟨w, hwatch, hsender, htok⟩), hkind]
  exact next_congr (if_neg hset)

/-- What the latch's clearing leaves as it was. -/
theorem unlatched_parts (hkind : s.tli.kind = .carriage) :
    (unlatched s).cs = { s.cs with latch := none, watcher := none } ∧ (unlatched s).os = s.os ∧
    (unlatched s).pu = s.pu ∧ (unlatched s).eu = s.eu ∧ (unlatched s).ds = s.ds ∧ (unlatched s).ce = s.ce ∧
    (unlatched s).tli.clash = s.tli.clash ∧ (unlatched s).tli.kind = .carriage := by
  unfold unlatched
  rw [quiet_carriage hkind]
  exact ⟨rfl, rfl, rfl, rfl, rfl, rfl, rfl, hkind⟩

end

end Sys2Proof.Machine
end

section
/-! What the life of an order and a fault keep: the latch, the watcher, and the frames of the Claim Engine that wait, which
further ones follow (R167, R169, R189). -/

namespace Sys2Proof.Machine

open Sys2Proof

/-- The latch and the watcher stay, and with no span in flight the Claim Engine's frames are only followed by others. -/
structure Onward (s t : State) : Prop where
  latch : t.cs.latch = s.cs.latch
  watcher : t.cs.watcher = s.cs.watcher
  frames : s.tli.clash = false → s.ce.span = none →
    t.tli.clash = false ∧ t.ce.span = none ∧ ∃ more, waiting .ce t.tli = waiting .ce s.tli ++ more

namespace Onward

theorem refl (s : State) : Onward s s := ⟨rfl, rfl, fun hc hs => ⟨hc, hs, [], (List.append_nil _).symm⟩⟩

theorem after {s t u : State} (k : Onward t u) (h : Onward s t) : Onward s u where
  latch := k.latch.trans h.latch
  watcher := k.watcher.trans h.watcher
  frames hc hs := by
    obtain ⟨hc', hs', m, hm⟩ := h.frames hc hs
    obtain ⟨hc'', hs'', n, hn⟩ := k.frames hc' hs'
    exact ⟨hc'', hs'', m ++ n, by rw [hn, hm, List.append_assoc]⟩

theorem plain {s t : State} (hlatch : t.cs.latch = s.cs.latch) (hwatcher : t.cs.watcher = s.cs.watcher)
    (htli : t.tli = s.tli) (hspan : s.ce.span = none → t.ce.span = none) : Onward s t :=
  ⟨hlatch, hwatcher, fun hc hs => ⟨by rw [htli]; exact hc, hspan hs, [], by rw [htli, List.append_nil]⟩⟩

theorem setOs (s : State) (v : OrderStore) : Onward s (s.setOs v) := plain rfl rfl rfl id
theorem setDs (s : State) (v : Dock) : Onward s (s.setDs v) := plain rfl rfl rfl id
theorem setEu (s : State) (v : Envelope) : Onward s (s.setEu v) := plain rfl rfl rfl id
theorem setCs (s : State) (v : Supervisor) (hlatch : v.latch = s.cs.latch) (hwatcher : v.watcher = s.cs.watcher) :
    Onward s (s.setCs v) := plain hlatch hwatcher rfl id
theorem setCe (s : State) (v : ClaimEngine) (h : s.ce.span = none → v.span = none) : Onward s (s.setCe v) := plain rfl rfl rfl h

theorem of_blank {s t u : State} (h : blank t = blank u) (hlatch : u.cs.latch = s.cs.latch) (hwatcher : u.cs.watcher = s.cs.watcher)
    (hclash : u.tli.clash = s.tli.clash) (hspan : s.ce.span = none → u.ce.span = none)
    (hwaits : ∃ more, waiting .ce t.tli = waiting .ce s.tli ++ more) : Onward s t where
  latch := by rw [cs_of_blank h, hlatch]
  watcher := by rw [cs_of_blank h, hwatcher]
  frames hc hs := ⟨by rw [clash_of_blank h, hclash, hc], by rw [span_of_blank h, hspan hs], hwaits⟩

theorem ite {c : Prop} [Decidable c] {s t u : State} (ht : c → Onward s t) (hu : ¬ c → Onward s u) :
    Onward s (if c then t else u) := by
  split
  case isTrue h => exact ht h
  case isFalse h => exact hu h

theorem of_waiting {s t : State} (h : waiting .ce t.tli = waiting .ce s.tli) :
    ∃ more, waiting .ce t.tli = waiting .ce s.tli ++ more := ⟨[], by rw [h, List.append_nil]⟩

end Onward

/-! ## The shared operations -/

theorem report_onward (b : Block) (u : Subject) (o : ReportOutcome) (n : Nat) (s : State) : Onward s (report b u o n s) := by
  refine .of_blank (blank_report b u o n s) rfl rfl rfl id ?_
  unfold report
  split
  · exact ⟨[], (List.append_nil _).symm⟩
  · exact ⟨_, waiting_offer ..⟩

theorem queueClaim_onward (g : TxTag) (c : Nat) (l : List OwnClaim) (s : State) : Onward s (queueClaim g c l s) :=
  .of_blank (blank_queueClaim ..) rfl rfl rfl id ⟨[], by rw [waiting_queueClaim, List.append_nil]⟩

theorem queuePosition_onward (s : State) : Onward s (queuePosition s) :=
  .of_blank (blank_queuePosition ..) rfl rfl rfl id ⟨[], by rw [waiting_queuePosition, List.append_nil]⟩

theorem setOwn_onward (own : List OwnClaim) (s : State) : Onward s (setOwn own s) :=
  .of_blank (blank_setOwn own s) rfl rfl rfl id ⟨[], by rw [waiting_setOwn, List.append_nil]⟩

theorem enterState_onward (st : CarState) (s : State) : Onward s (enterState st s) := by
  by_cases h : st = s.cs.state
  · rw [enterState_of_eq h]
    exact .refl s
  · exact .of_blank (blank_enterState h) rfl rfl rfl id ⟨[], by rw [waiting_enterState, List.append_nil]⟩

theorem makeStanding_onward (s : State) : Onward s (makeStanding s) := by
  obtain ⟨f, hf⟩ := blank_makeStanding_eq s
  exact .of_blank hf rfl rfl rfl id ⟨[], by rw [waiting_makeStanding, List.append_nil]⟩

theorem testTrigger_onward (s : State) : Onward s (testTrigger s) := by
  rw [testTrigger_eq]
  exact .plain rfl rfl rfl id

theorem releaseOwn_onward (gone : List Seg) (s : State) : Onward s (releaseOwn gone s) := by
  obtain ⟨f, hf⟩ := blank_releaseOwn_eq gone s
  refine ⟨by rw [cs_of_blank hf] <;> rfl, by rw [cs_of_blank hf] <;> rfl, fun hc hs => ⟨by rw [clash_of_blank hf]; exact hc,
    by rw [span_of_blank hf]; exact hs, ?_⟩⟩
  unfold releaseOwn
  dsimp only
  split
  · exact ⟨[], (List.append_nil _).symm⟩
  · exact ⟨_, by rw [waiting_releaseStep _ _ _ _ hc, List.append_assoc]⟩

theorem endSpan_onward (more : List Seg) (s : State) : Onward s (endSpan more s) := by
  cases hspan : s.ce.span with
  | none =>
    unfold endSpan
    rw [hspan]
    exact releaseOwn_onward more s
  | some sp =>
    have h := cs_of_blank (blank_endSpan (more := more) hspan)
    exact ⟨by rw [h] <;> rfl, by rw [h] <;> rfl, fun _ hs => by rw [hspan] at hs; cases hs⟩

theorem orderLeaves_onward (s : State) : Onward s (orderLeaves s) := by
  have hvacated : ∀ u, Onward u (vacated u) := fun u => .plain rfl rfl rfl id
  rw [orderLeaves_eq]
  exact (hvacated _).after (endSpan_onward [] s)

/-! ## Faults -/

theorem jacksOff_onward (s : State) : Onward s (jacksOff s) := .plain rfl rfl rfl id

theorem failOrders_onward (s : State) : Onward s (failOrders s) := by
  have hactive : Onward s (match s.os.active with
      | some a => report .os .orderEnd (.failed .fault) a.ord.id s
      | none => s) := by
    split
    · exact report_onward ..
    · exact .refl s
  unfold failOrders
  dsimp only
  split
  · exact (report_onward _ _ _ _ _).after hactive
  · exact hactive

theorem faultClaims_onward (s : State) : Onward s (faultClaims s) := by
  unfold faultClaims
  dsimp only
  split
  · exact releaseOwn_onward _ _
  · exact Onward.after (t := endSpan ((aheadSegs s).filter (fun g => decide (g ∉ clashSegs s))) s) (.setCe _ _ id) (endSpan_onward _ _)

theorem firstFault_onward (c : FaultCode) (g : Seg) (m : Mm) (s : State) : Onward s (firstFault c g m s) := by
  unfold firstFault
  refine (queuePosition_onward _).after (Onward.after (.ite (fun _ => jacksOff_onward _) (fun _ => .refl _)) ?_)
  refine Onward.after (.setOs _ _) ((orderLeaves_onward _).after ((faultClaims_onward _).after ?_))
  refine (failOrders_onward _).after ((report_onward _ _ _ _ _).after ?_)
  exact Onward.after (.setEu _ _) (.setCs _ _ rfl rfl)

theorem raiseFault_onward (c : FaultCode) (s : State) : Onward s (raiseFault c s) := by
  refine .ite (fun _ => ?_) (fun _ => firstFault_onward ..)
  refine Onward.after (.ite (fun _ => jacksOff_onward _) (fun _ => .refl _)) ((report_onward _ _ _ _ _).after ?_)
  exact .setCs _ _ rfl rfl

theorem overrunTest_onward (s : State) : Onward s (overrunTest s) := by
  unfold overrunTest
  split
  · exact .ite (fun _ => raiseFault_onward _ s) (fun _ => .refl s)
  · exact .refl s

theorem padWatch_onward (s : State) : Onward s (padWatch s) := by
  unfold padWatch
  split
  · split
    · exact .ite (fun _ => raiseFault_onward _ s) (fun _ => .refl s)
    · exact .refl s
  · exact .refl s

/-! ## The life of an order -/

theorem leaveUndocking_onward (s : State) : Onward s (leaveUndocking s) :=
  .ite (fun _ => (enterState_onward _ _).after (jacksOff_onward s))
    (fun _ => (testTrigger_onward _).after ((enterState_onward _ _).after (jacksOff_onward s)))

theorem startUndocking_onward (s : State) : Onward s (startUndocking s) := by
  refine Onward.after (.ite (fun _ => leaveUndocking_onward _) (fun _ => .refl _)) ((queueClaim_onward _ _ _ _).after ?_)
  refine Onward.after (.ite (fun _ => .refl _) (fun _ => setOwn_onward _ _)) ((enterState_onward _ _).after ?_)
  exact .setDs _ _

theorem beginOrder_onward (o : OrderRec) (s : State) : Onward s (beginOrder o s) := by
  unfold beginOrder
  split
  · refine (testTrigger_onward _).after ((overrunTest_onward _).after ((padWatch_onward _).after ?_))
    refine Onward.after (.ite (fun _ => startUndocking_onward _) (fun _ => enterState_onward _ _)) ?_
    refine Onward.after (.ite (fun _ => queueClaim_onward _ _ _ _) (fun _ => .refl _)) ?_
    exact (setOwn_onward _ _).after (.plain rfl rfl rfl id)
  · exact .refl s

theorem startActive_onward (n : Nat) (s : State) : Onward s (startActive n s) := by
  induction n generalizing s with
  | zero => exact .refl s
  | succ n ih =>
    unfold startActive
    split
    · exact .refl s
    · refine .ite (fun _ => beginOrder_onward _ s) (fun _ => ?_)
      dsimp only
      split
      · exact Onward.after (.setOs _ _) (report_onward _ _ _ _ _)
      · exact (ih _).after (Onward.after (.setOs _ _) (report_onward _ _ _ _ _))

theorem promote_onward (s : State) : Onward s (promote s) := by
  unfold promote
  split
  · exact .refl s
  · exact Onward.after (.ite (fun _ => startActive_onward _ _) (fun _ => .refl _)) (.setOs _ _)

theorem endOrder_onward (o : ReportOutcome) (r p : Bool) (s : State) : Onward s (endOrder o r p s) := by
  unfold endOrder
  split
  · exact .refl s
  · refine (promote_onward _).after (Onward.after (.ite (fun _ => releaseOwn_onward _ _) (fun _ => .refl _)) ?_)
    refine Onward.after (.ite (fun _ => ?_) (fun _ => enterState_onward _ _))
      ((orderLeaves_onward _).after (report_onward _ _ _ _ _))
    exact (enterState_onward _ _).after (makeStanding_onward _)

theorem startDocking_onward (s : State) : Onward s (startDocking s) :=
  Onward.after (.ite (fun _ => (endOrder_onward _ _ _ _).after (jacksOff_onward _)) (fun _ => .refl _))
    ((enterState_onward _ _).after (.setDs _ _))

theorem alignmentCheck_onward (s : State) : Onward s (alignmentCheck s) := by
  unfold alignmentCheck
  split
  · exact .ite (fun _ => .ite (fun _ => startDocking_onward s) (fun _ => endOrder_onward ..)) (fun _ => endOrder_onward ..)
  · exact .refl s

end Sys2Proof.Machine
end

section
/-! O38, concluded: what the completed pair leads to (R170, R156, R8). -/

namespace Sys2Proof.Machine

open Sys2Proof

section
variable {s : State}

/-- How a pad stop without docking ends. -/
def alignOutcome (x p : Int) (s : State) : ReportOutcome :=
  if (x - p).natAbs ≤ (cfg s).dockTol then .completed else .failed .misaligned

theorem alignmentCheck_of_no_dock {a : ActiveOrder} {r : Route} {p : Int} (ha : s.os.active = some a) (hr : s.pu.route = some r)
    (hp : s.pu.padRead = some p) (hdock : (lastPad a.ord).any PadSpec.dock = false) :
    alignmentCheck s = endOrder (alignOutcome r.x p s) false false s := by
  unfold alignmentCheck alignOutcome
  rw [ha, hr, hp]
  dsimp only
  rw [hdock, if_neg Bool.false_ne_true]
  split <;> rfl

theorem alignmentCheck_of_dock {a : ActiveOrder} {r : Route} {p : Int} (ha : s.os.active = some a) (hr : s.pu.route = some r)
    (hp : s.pu.padRead = some p) (hdock : (lastPad a.ord).any PadSpec.dock = true)
    (hwithin : (r.x - p).natAbs ≤ (cfg s).dockTol) : alignmentCheck s = startDocking s := by
  unfold alignmentCheck
  rw [ha, hr, hp]
  exact (if_pos hwithin).trans (if_pos hdock)

theorem alignmentCheck_of_misaligned {a : ActiveOrder} {r : Route} {p : Int} (ha : s.os.active = some a)
    (hr : s.pu.route = some r) (hp : s.pu.padRead = some p) (hwide : ¬ (r.x - p).natAbs ≤ (cfg s).dockTol) :
    alignmentCheck s = endOrder (.failed .misaligned) false false s := by
  unfold alignmentCheck
  rw [ha, hr, hp]
  exact if_neg hwide

/-- RUNNING entered from HALTED. -/
theorem runningAgain (hstate : s.cs.state = .halted) :
    blank (enterState .running s) = blank (entered .running s) ∧ (enterState .running s).eu.padStop = s.eu.padStop ∧
    (enterState .running s).eu.demand = s.eu.demand ∧ (enterState .running s).pu.standstill = s.pu.standstill := by
  have h : blank (enterState .running s) = blank (entered .running s) :=
    blank_enterState (by rw [hstate]; exact CarState.noConfusion)
  exact ⟨h, (congrArg Envelope.padStop (eu_of_blank h)).trans rfl, (congrArg Envelope.demand (eu_of_blank h)).trans rfl,
    (congrArg PosUnit.standstill (pu_of_blank h)).trans rfl⟩

theorem resumed_of_halted (hstate : s.cs.state = .halted)
    (hfree : s.eu.padStop = false ∨ s.eu.demand ≠ 0 ∨ s.pu.standstill = false) : resumed s = enterState .running s := by
  obtain ⟨-, hpad, hdemand, hstill⟩ := runningAgain hstate
  unfold resumed
  rw [hstate]
  refine if_neg ?_
  rw [hpad, hdemand, hstill]
  rcases hfree with h | h | h <;> simp [h]

theorem resumed_of_padStop (hstate : s.cs.state = .halted) (hpadStop : s.eu.padStop = true) (hzero : s.eu.demand = 0)
    (hrest : s.pu.standstill = true) : resumed s = alignmentCheck (enterState .running s) := by
  obtain ⟨-, hpad, hdemand, hstill⟩ := runningAgain hstate
  unfold resumed
  rw [hstate]
  refine if_pos ?_
  rw [hpad, hdemand, hstill, hpadStop, hzero, hrest] <;> rfl

theorem resumed_of_slot (h : s.cs.state = .ready ∨ s.cs.state = .parked) : resumed s = startActive 2 s := by
  unfold resumed
  rcases h with h | h <;> rw [h]

theorem startActive_of_none (n : Nat) (h : s.os.active = none) : startActive (n + 1) s = s := by
  unfold startActive
  rw [h]

/-- The states on which the completed pair has no further effect. -/
theorem resumed_of_idle (hhalted : s.cs.state ≠ .halted)
    (hslot : s.cs.state = .ready ∨ s.cs.state = .parked → s.os.active = none) : resumed s = s := by
  by_cases h : s.cs.state = .ready ∨ s.cs.state = .parked
  · rw [resumed_of_slot h, startActive_of_none 1 (hslot h)]
  · unfold resumed
    split
    · next hst => exact absurd hst hhalted
    · next hst => exact absurd (.inl hst) h
    · next hst => exact absurd (.inr hst) h
    · rfl

theorem resumed_onward (s : State) : Onward s (resumed s) := by
  unfold resumed
  split
  · exact Onward.after (.ite (fun _ => alignmentCheck_onward _) (fun _ => .refl _)) (enterState_onward _ _)
  · exact startActive_onward 2 s
  · exact startActive_onward 2 s
  · exact .refl s

/-! ## The ends of a completed pair -/

theorem testTrigger_parts (t : State) : (testTrigger t).cs = t.cs ∧ (testTrigger t).os = t.os ∧ (testTrigger t).eu = t.eu ∧
    (testTrigger t).pu = t.pu ∧ (testTrigger t).ds = t.ds ∧ (testTrigger t).tli = t.tli ∧
    (testTrigger t).ce.own = t.ce.own := by
  rw [testTrigger_eq]
  exact ⟨rfl, rfl, rfl, rfl, rfl, rfl, rfl⟩

/-- HALTED becomes RUNNING, and every other state with no order to start stays. -/
theorem resume_plain (hkind : s.tli.kind = .carriage) (hslot : s.cs.state = .ready ∨ s.cs.state = .parked → s.os.active = none) :
    let t := testTrigger (resumed (unlatched s))
    t.cs.latch = none ∧ t.cs.watcher = none ∧
    (s.cs.state = .halted → (s.eu.padStop = false ∨ s.eu.demand ≠ 0 ∨ s.pu.standstill = false) →
      t.cs.state = .running ∧ t.os = s.os ∧ t.eu.demand = s.eu.demand ∧ t.ce.own = s.ce.own) ∧
    (s.cs.state ≠ .halted → t.cs.state = s.cs.state ∧ t.os = s.os ∧ t.eu = s.eu ∧ t.ce.own = s.ce.own) := by
  obtain ⟨hcs, hos, hpu, heu, -, hce, -⟩ := unlatched_parts hkind
  generalize unlatched s = u at *
  have hstate : u.cs.state = s.cs.state := by rw [hcs]
  have honward := resumed_onward u
  obtain ⟨hcs', hos', heu', -, -, -, hown'⟩ := testTrigger_parts (resumed u)
  dsimp only
  rw [hcs', hos', heu', hown']
  refine ⟨by rw [honward.latch, hcs], by rw [honward.watcher, hcs], fun hhalted hfree => ?_, fun hne => ?_⟩
  · have hhalted' := hstate.trans hhalted
    obtain ⟨hblank, -, hdemand, -⟩ := runningAgain hhalted'
    rw [resumed_of_halted hhalted' (by rw [heu, hpu]; exact hfree), hdemand, cs_of_blank hblank, os_of_blank hblank,
      own_of_blank hblank]
    exact ⟨rfl, hos, congrArg Envelope.demand heu, congrArg ClaimEngine.own hce⟩
  · rw [resumed_of_idle (by rw [hstate]; exact hne) (by rw [hstate, hos]; exact hslot)]
    exact ⟨hstate, hos, heu, congrArg ClaimEngine.own hce⟩

/-- A pad stop held at rest is checked for alignment, and ends the order. -/
theorem resume_padStop {a : ActiveOrder} {r : Route} {p : Int} (hkind : s.tli.kind = .carriage) (hstate : s.cs.state = .halted)
    (hpadStop : s.eu.padStop = true) (hzero : s.eu.demand = 0) (hrest : s.pu.standstill = true) (ha : s.os.active = some a)
    (hr : s.pu.route = some r) (hp : s.pu.padRead = some p) (hpending : s.os.pending = none)
    (hdock : (lastPad a.ord).any PadSpec.dock = false) :
    let t := testTrigger (resumed (unlatched s))
    t.cs.state = .ready ∧ t.cs.latch = none ∧ t.os.active = none ∧
    (s.tli.clash = false → ∀ c, s.cs.console = some c → queued (.report c
      { subject := .orderEnd, oid := a.ord.id,
        outcome := if (r.x - p).natAbs ≤ (cfg s).dockTol then .completed else .failed .misaligned }) t) := by
  obtain ⟨hcs, hos, hpu, heu, -, hce, hclash, hkind'⟩ := unlatched_parts hkind
  have hcfg : cfg (unlatched s) = cfg s := by unfold cfg; rw [hcs]
  generalize unlatched s = u at *
  have hhalted : u.cs.state = .halted := by rw [hcs, hstate]
  obtain ⟨hblank, hpad, hdemand, hstill⟩ := runningAgain hhalted
  have hresumed := resumed_of_padStop hhalted (by rw [heu, hpadStop]) (by rw [heu, hzero]) (by rw [hpu, hrest])
  have hcsR : (enterState .running u).cs = { u.cs with state := .running, stopCond := none } := cs_of_blank hblank
  have hosR : (enterState .running u).os = s.os := ((os_of_blank hblank).trans rfl).trans hos
  have hrouteR : (enterState .running u).pu.route = s.pu.route :=
    hpu ▸ (congrArg PosUnit.route (pu_of_blank hblank)).trans rfl
  have hreadR : (enterState .running u).pu.padRead = s.pu.padRead :=
    hpu ▸ (congrArg PosUnit.padRead (pu_of_blank hblank)).trans rfl
  have hcfgR : cfg (enterState .running u) = cfg s := by rw [← hcfg]; unfold cfg; rw [hcsR]
  have hclashR : (enterState .running u).tli.clash = s.tli.clash := (clash_of_blank hblank).trans hclash
  have hconsoleR : console (enterState .running u) = s.cs.console := by
    rw [console_carriage ((enterState_tli_kind ..).trans hkind'), hcsR, hcs]
  have hlatchR : (enterState .running u).cs.latch = none := by rw [hcsR, hcs]
  have halign := alignmentCheck_of_no_dock (hosR ▸ ha) (hrouteR.trans hr) (hreadR.trans hp) hdock
  rw [← hresumed] at halign
  have hne : (enterState .running u).cs.state ≠ .ready := by rw [hcsR]; exact CarState.noConfusion
  rw [endOrder_readied (hosR ▸ ha) hne (hosR ▸ hpending), alignOutcome, hcfgR] at halign
  obtain ⟨hcs', hos', -, -, -, htli', -⟩ := testTrigger_parts (resumed u)
  have hready := blank_readied (out := if (r.x - p).natAbs ≤ (cfg s).dockTol then .completed else .failed .misaligned)
    (ahead := false) (a := a) hne
  have hwaits := fun d (hc : (enterState .running u).tli.clash = false) hd =>
    waiting_readied (out := if (r.x - p).natAbs ≤ (cfg s).dockTol then .completed else .failed .misaligned)
    (ahead := false) (a := a) (s := enterState .running u) (d := d) hc hd
  obtain ⟨hcsE, -, -, hactiveE, -⟩ := endedReady_parts false (enterState .running u)
  dsimp only
  rw [hcs', hos']
  refine ⟨?_, ?_, ?_, fun hfree c hc => queued_of_mem_waiting (b := .os) ?_⟩
  · rw [halign, cs_of_blank hready, hcsE]
  · rw [halign, cs_of_blank hready, hcsE]
    exact hlatchR
  · rw [halign, os_of_blank hready]
    exact hactiveE
  · rw [htli', halign, hwaits c (hclashR.trans hfree) (hconsoleR.trans hc)]
    exact List.mem_append_right _ List.mem_cons_self

/-- A WAITING order that starts cleanly is under way (R8). -/
theorem resume_clean {a : ActiveOrder} (hkind : s.tli.kind = .carriage) (hslot : s.cs.state = .ready ∨ s.cs.state = .parked)
    (ha : s.os.active = some a) (hclean : startsClean a.ord s) :
    let t := testTrigger (resumed (unlatched s))
    t.cs.latch = none ∧ t.os.active.map (fun b => (b.ord, b.phase)) = some (a.ord, .underway) ∧
    (s.cs.state = .ready → t.cs.state = .running) ∧ (s.cs.state = .parked → s.ds.pos ≠ .up → t.cs.state = .undocking) := by
  obtain ⟨hcs, hos, hpu, -, hds, hce, -⟩ := unlatched_parts hkind
  have hcfg : cfg (unlatched s) = cfg s := by unfold cfg; rw [hcs]
  generalize unlatched s = u at *
  have hstate : u.cs.state = s.cs.state := by rw [hcs]
  have hlatch : u.cs.latch = none := by rw [hcs]
  obtain ⟨head, tail, l, hc⟩ := startsClean_iff.mp hclean
  have hc' : Clean a.ord head tail l u := hc.congr (by rw [hpu]; exact ⟨rfl, rfl, rfl⟩) (congrArg ClaimEngine.own hce) hcfg
  obtain ⟨hbegin, h⟩ := beginOrder_of_clean hc' (by rw [hstate]; exact hslot.imp id fun h => ⟨h, .inr hlatch⟩)
  have hresumed : resumed u = testTrigger (movedOff (tiedStart a.ord head tail l u)) := by
    rw [resumed_of_slot (by rw [hstate]; exact hslot), startActive_of_ok (hos ▸ ha) hc'.firstLegOk, hbegin]
  obtain ⟨st, hsup⟩ := h.supervisor
  dsimp only
  rw [hresumed]
  generalize movedOff (tiedStart a.ord head tail l u) = v at *
  obtain ⟨hcs', hos', -⟩ := testTrigger_parts (testTrigger v)
  obtain ⟨hcs'', hos'', -⟩ := testTrigger_parts v
  rw [hcs', hos', hcs'', hos'']
  refine ⟨by rw [hsup]; exact hlatch, by rw [h.orders] <;> rfl, fun hready => (h.ready (hstate.trans hready)).1, fun hparked hpos => ?_⟩
  exact (h.parked (hstate.trans hparked) (by rw [hds]; exact hpos)).1

/-- A WAITING order whose first-leg test fails leaves, refused. -/
theorem resume_refused {a : ActiveOrder} (hkind : s.tli.kind = .carriage) (hslot : s.cs.state = .ready ∨ s.cs.state = .parked)
    (ha : s.os.active = some a) (hbad : firstLegOk a.ord s = false) (hpending : s.os.pending = none) :
    let t := testTrigger (resumed (unlatched s))
    t.cs.latch = none ∧ t.os.active = none ∧ t.cs.state = s.cs.state ∧
    (s.tli.clash = false → ∀ c, s.cs.console = some c → queued (.report c
      { subject := .order, outcome := .refused (.badOrder .firstLeg 0), oid := a.ord.id }) t) := by
  obtain ⟨hcs, hos, hpu, -, -, -, hclash, hkind'⟩ := unlatched_parts hkind
  generalize unlatched s = u at *
  have hstate : u.cs.state = s.cs.state := by rw [hcs]
  have hresumed := resumed_of_slot (by rw [hstate]; exact hslot)
  rw [startActive_of_bad (hos ▸ ha) ((firstLegOk_congr (congrArg PosUnit.endA hpu) (congrArg PosUnit.endB hpu)).trans hbad)
    (hos ▸ hpending)] at hresumed
  obtain ⟨hcs', hos', -⟩ := testTrigger_parts (resumed u)
  dsimp only
  rw [hcs', hos', hresumed]
  refine ⟨?_, rfl, ?_, fun hfree c hc => queued_of_mem_waiting (b := .os) ?_⟩
  · rw [State.setOs_cs, report_cs, hcs]
  · rw [State.setOs_cs, report_cs, hstate]
  · rw [testTrigger_tli]
    exact mem_waiting_report (hclash.trans hfree) (by rw [console_carriage hkind', hcs]; exact hc)

end

/-- Settles O38: the HALT heard by either personality, and the resume pair completed or not. -/
theorem haltAndResume : Obligations.HaltAndResume := by
  refine ⟨fun src origin reason s hfrom horigin => ⟨fun hkind => exec_pointsHalt_points hkind hfrom horigin,
      fun hkind => halt_heard origin reason hkind hfrom horigin⟩,
    fun src token s => ⟨exec_resumeWindowExpiry s, fun hfrom htoken => ⟨fun hkind => ?_, fun hkind => ?_⟩⟩⟩
  · have hconsole : console s = s.cs.console := console_carriage hkind
    have hquiet : (quiet s).tli.kind = .carriage := (quiet_tli_kind s).trans hkind
    have harm := exec_resumeA hfrom htoken
    rw [hconsole, setWatcher_carriage _ hquiet] at harm
    refine ⟨fun h => harm.trans (next_congr (by rw [if_pos h])), fun h => harm.trans (next_congr ?_),
      fun h => exec_resumeB_of_incomplete hfrom htoken fun w hw => h w ?_, fun w hw hsender htok hlatch => ?_⟩
    · rw [if_neg h, quiet_carriage hkind] <;> rfl
    · rwa [watcherOf, hkind] at hw
    · have hexec := exec_resumeB_carriage hkind hfrom htoken hw hsender htok hlatch
      exact ⟨fun hslot => ⟨_, hexec, resume_plain hkind hslot⟩,
        fun a r p hstate hpadStop hzero hrest ha hr hp hpending _ hdock =>
          ⟨_, hexec, resume_padStop hkind hstate hpadStop hzero hrest ha hr hp hpending hdock⟩,
        fun a hslot ha _ => ⟨fun hclean => ⟨_, hexec, resume_clean hkind hslot ha hclean⟩,
          fun hbad hpending => ⟨_, hexec, resume_refused hkind hslot ha hbad hpending⟩⟩⟩
  · have hconsole : console s = s.pa.console := console_points hkind
    have hquiet : (quiet s).tli.kind = .points := (quiet_tli_kind s).trans hkind
    have harm := exec_resumeA hfrom htoken
    rw [hconsole, setWatcher_points _ hquiet] at harm
    refine ⟨fun h => harm.trans (next_congr (by rw [if_pos h])), fun h => harm.trans (next_congr ?_),
      fun h => exec_resumeB_of_incomplete hfrom htoken fun w hw => h w ?_, fun w hw hsender htok hlatch =>
        exec_resumeB_points hkind hfrom htoken hw hsender htok hlatch⟩
    · rw [if_neg h, quiet_points hkind] <;> rfl
    · rwa [watcherOf, hkind] at hw

end Sys2Proof.Machine
end

section
/-! The pending order promoted (R9), from READY and from PARKED. -/

namespace Sys2Proof.Machine

open Sys2Proof

/-- The pending order moved into the ACTIVE slot. -/
def promoted (p : OrderRec) (s : State) : State := s.setOs { s.os with active := some (waitingOrder p), pending := none }

section
variable {s : State} {p : OrderRec}

theorem promote_eq (hp : s.os.pending = some p) :
    promote s = if s.cs.latch.isNone then startActive 2 (promoted p s) else promoted p s := by
  unfold promote
  rw [hp] <;> rfl

theorem promote_of_latched (hp : s.os.pending = some p) (hlatch : s.cs.latch.isSome = true) : promote s = promoted p s := by
  rw [promote_eq hp]
  refine if_neg fun h => ?_
  rw [Option.isNone_iff_eq_none.mp h] at hlatch
  cases hlatch

theorem promote_of_ok (hp : s.os.pending = some p) (hlatch : s.cs.latch = none) (hok : firstLegOk p s = true) :
    promote s = beginOrder p (promoted p s) := by
  rw [promote_eq hp, hlatch]
  exact startActive_of_ok (s := promoted p s) (a := waitingOrder p) rfl hok

/-- The order refused at its first leg, the slot empty again. -/
def turnedAway (p : OrderRec) (s : State) : State :=
  (report .os .order (.refused (.badOrder .firstLeg 0)) p.id (promoted p s)).setOs { (promoted p s).os with active := none }

theorem promote_of_bad (hp : s.os.pending = some p) (hlatch : s.cs.latch = none) (hbad : firstLegOk p s = false) :
    promote s = turnedAway p s := by
  rw [promote_eq hp, hlatch]
  exact startActive_of_bad (s := promoted p s) (a := waitingOrder p) rfl hbad rfl

/-- What the refusal leaves. -/
theorem turnedAway_parts (p : OrderRec) (s : State) : (turnedAway p s).cs = s.cs ∧ (turnedAway p s).ds = s.ds ∧
    (turnedAway p s).pu = s.pu ∧ (turnedAway p s).ce.own = s.ce.own ∧ (turnedAway p s).os.pending = none ∧
    (turnedAway p s).os.active = none :=
  ⟨report_cs .., report_ds .., report_pu .., report_ce_own .., rfl, rfl⟩

theorem turnedAway_queued {c : Addr} (hclash : s.tli.clash = false) (hc : console s = some c) : queued (.report c
    { subject := .order, outcome := .refused (.badOrder .firstLeg 0), oid := p.id }) (turnedAway p s) :=
  queued_of_mem_waiting (b := .os) (mem_waiting_report (s := promoted p s) hclash hc)

/-- What becomes of the pending order in READY. -/
theorem promote_of_ready (hp : s.os.pending = some p) (hstate : s.cs.state = .ready) (hends : ∀ e, (endRec s e).isSome = true) :
    (promote s).os.pending = none ∧
    (s.cs.latch.isSome = true → (promote s).cs.state = .ready ∧
      (promote s).os.active.map (fun b => (b.ord, b.phase)) = some (p, .waiting)) ∧
    (s.cs.latch = none → (promote s).cs.state = .fault ∨
      (firstLegOk p (promote s) = true ∧ (promote s).cs.state = .running ∧
        (promote s).os.active.map (fun b => (b.ord, b.phase)) = some (p, .underway)) ∨
      (firstLegOk p (promote s) = false ∧ (promote s).cs.state = .ready ∧ (promote s).os.active = none ∧
        (s.tli.clash = false → ∀ c, console s = some c → queued (.report c
          { subject := .order, outcome := .refused (.badOrder .firstLeg 0), oid := p.id }) (promote s)))) := by
  cases hlatch : s.cs.latch with
  | some x =>
    rw [promote_of_latched hp (by rw [hlatch]; rfl)]
    exact ⟨rfl, fun _ => ⟨hstate, rfl⟩, fun h => (nomatch h)⟩
  | none =>
    cases hok : firstLegOk p s with
    | true =>
      rw [promote_of_ok hp hlatch hok]
      obtain ⟨hpending, hout⟩ := beginOrder_of_ready (s := promoted p s) hok (hends _) hstate rfl
      exact ⟨hpending, fun h => (nomatch h), fun _ => hout.imp id .inl⟩
    | false =>
      rw [promote_of_bad hp hlatch hok]
      obtain ⟨hcs, -, hpu, -, hpending, hactive⟩ := turnedAway_parts p s
      refine ⟨hpending, fun h => (nomatch h), fun _ => .inr (.inr ⟨?_, by rw [hcs, hstate], hactive,
        fun hclash c hc => turnedAway_queued hclash hc⟩)⟩
      rw [← hok]
      exact firstLegOk_congr (by rw [hpu]) (by rw [hpu])

/-! ## From PARKED -/

/-- The order under way on a node in PARKED with the jacks down: UNDOCKING with no STANDING entry, or a fault. -/
theorem beginOrder_of_parked {o : OrderRec} (hok : firstLegOk o s = true) (hboth : (endRec s (otherEnd o.lead)).isSome = true)
    (hstate : s.cs.state = .parked) (hpos : s.ds.pos ≠ .up) (hpending : s.os.pending = none) :
    (beginOrder o s).os.pending = none ∧ ((beginOrder o s).cs.state = .fault ∨
      (firstLegOk o (beginOrder o s) = true ∧ (beginOrder o s).cs.state = .undocking ∧ (beginOrder o s).ds.cmd = .raise ∧
        (∀ e ∈ (beginOrder o s).ce.own, e.st ≠ .standing) ∧
        (beginOrder o s).os.active.map (fun b => (b.ord, b.phase)) = some (o, .underway))) := by
  obtain ⟨head, l, hhead, hl, -, -⟩ := firstLegOk_iff.mp hok
  obtain ⟨tail, htail⟩ := Option.isSome_iff_exists.mp hboth
  obtain ⟨hcs, hos, hds, -, -, hendA, hendB, -⟩ := tiedStart_parts o head tail l s
  have hparked : (tiedStart o head tail l s).cs.state = .parked := by rw [hcs, hstate]
  have hblank : blank (movedOff (tiedStart o head tail l s)) = blank (firmedUp (undockingBegun (tiedStart o head tail l s))) := by
    rw [movedOff_of_parked hparked]
    exact blank_startUndocking hparked (by rw [hds]; exact hpos)
  rw [beginOrder_eq hhead htail hl]
  generalize movedOff (tiedStart o head tail l s) = u at *
  generalize tiedStart o head tail l s = v at *
  obtain ⟨hcs', hos', hpu', hds', -⟩ := firmedUp_parts (undockingBegun v)
  have hown' := firmedUp_own (undockingBegun v)
  generalize firmedUp (undockingBegun v) = w at *
  have hundocking : u.cs.state = .undocking := by rw [cs_of_blank hblank, hcs'] <;> rfl
  have hraise : u.ds.cmd = .raise := by rw [ds_of_blank hblank, hds'] <;> rfl
  have hendA' : u.pu.endA = s.pu.endA := by rw [pu_of_blank hblank, hpu']; exact hendA
  have hendB' : u.pu.endB = s.pu.endB := by rw [pu_of_blank hblank, hpu']; exact hendB
  have hactive : u.os = { s.os with active := some (startRecord o tail l s), stopMark := false } := by
    rw [os_of_blank hblank, hos']
    exact hos
  have hstand : ∀ e ∈ u.ce.own, e.st ≠ .standing := by
    rw [own_of_blank hblank, hown']
    intro e he
    obtain ⟨x, -, rfl⟩ := List.mem_map.mp he
    split
    · exact ClaimState.noConfusion
    · next h => exact h
  rcases startTests_or (s := u) (by rw [hundocking]; exact CarState.noConfusion) with ⟨b, hb⟩ | ⟨hfault, hnone⟩
  · rw [hb]
    refine ⟨(congrArg OrderStore.pending hactive).trans hpending, .inr ⟨(firstLegOk_congr hendA' hendB').trans hok, hundocking,
      hraise, hstand, ?_⟩⟩
    show u.os.active.map _ = _
    rw [hactive] <;> rfl
  · exact ⟨hnone, .inl hfault⟩

end

end Sys2Proof.Machine
end

section
/-! What an order that ends leaves: the ends of the carriage, the claims released ahead, and the frames (R67, R77, R105). -/

namespace Sys2Proof.Machine

open Sys2Proof

section
variable {s : State}

/-! ## The position in the end form -/

theorem endRec_leftOrder (hspan : s.ce.span = none) (e : End) : endRec (leftOrder s) e = endAfter s e := by
  unfold leftOrder spanless
  rw [hspan]
  cases e <;> rfl

/-- The route form gives both end records. -/
theorem endRec_leftOrder_isSome {a : ActiveOrder} {r : Route} (hspan : s.ce.span = none) (ha : s.os.active = some a)
    (hr : s.pu.route = some r) (e : End) : (endRec (leftOrder s) e).isSome = true := by
  rw [endRec_leftOrder hspan, endAfter, hr, ha] <;> rfl

/-- Each end stays where it is. -/
theorem endPos_leftOrder (hspan : s.ce.span = none) (e : End) : endPos (leftOrder s) e = endPos s e := by
  have hroute : (leftOrder s).pu.route = none := (leftOrder_parts s).2.2.2.2.2.2.2.2.2.1
  have hleft : endPos (leftOrder s) e = match endRec (leftOrder s) e with
      | some x => (x.seg, x.off)
      | none => (0, 0) := by
    unfold endPos
    rw [hroute] <;> (cases (leftOrder s).os.active <;> rfl)
  rw [hleft, endRec_leftOrder hspan]
  unfold endAfter
  cases hr : s.pu.route with
  | none =>
    unfold endPos
    rw [hr] <;> (cases s.os.active <;> rfl)
  | some r =>
    cases ha : s.os.active with
    | none =>
      unfold endPos
      rw [hr, ha] <;> rfl
    | some a => rfl

theorem headPos_leftOrder (hspan : s.ce.span = none) : headPos (leftOrder s) = headPos s := by
  have hparts : (leftOrder s).pu.known = s.pu.known ∧ noticeEnd (leftOrder s) = noticeEnd s := by
    unfold leftOrder spanless
    rw [hspan]
    exact ⟨rfl, rfl⟩
  unfold headPos
  rw [hparts.1, hparts.2, endPos_leftOrder hspan]

theorem headPos_of_blank {s t : State} (h : blank s = blank t) : headPos s = headPos t := by
  have hs : headPos (blank s) = headPos s := rfl
  have ht : headPos (blank t) = headPos t := rfl
  rw [← hs, h, ht]

theorem endRec_of_blank {s t : State} (h : blank s = blank t) (e : End) : endRec s e = endRec t e := by
  have hs : endRec (blank s) e = endRec s e := by cases e <;> rfl
  have ht : endRec (blank t) e = endRec t e := by cases e <;> rfl
  rw [← hs, h, ht]

/-! ## The order gone, and READY or PARKED entered -/

/-- An own entry tied to no order. -/
def untied (e : OwnClaim) : OwnClaim := { e with leg := .none }

theorem outsideSpan_of_none (hspan : s.ce.span = none) : outsideSpan s = s.ce.own := by
  simp [outsideSpan, spanSegs, hspan]

/-- READY entered by an order that ended. -/
def madeReady (out : ReportOutcome) (a : ActiveOrder) (s : State) : State :=
  enterState .ready (orderLeaves (report .os .orderEnd out a.ord.id s))

variable {out : ReportOutcome} {a : ActiveOrder}

theorem readied_eq (ahead : Bool) : readied out ahead a s =
    if ahead then releaseOwn (aheadSegs (madeReady out a s)) (madeReady out a s) else madeReady out a s := rfl

theorem blank_madeReady (hstate : s.cs.state ≠ .ready) : blank (madeReady out a s) = blank (entered .ready (leftOrder s)) :=
  blank_readied (out := out) (ahead := false) (a := a) hstate

theorem madeReady_own (hstate : s.cs.state ≠ .ready) (hspan : s.ce.span = none) : (madeReady out a s).ce.own = s.ce.own.map untied := by
  obtain ⟨-, -, -, -, -, -, -, -, -, -, -, -, hown⟩ := leftOrder_parts s
  rw [own_of_blank (blank_madeReady hstate)]
  exact hown.trans (by rw [outsideSpan_of_none hspan] <;> rfl)

theorem headPos_entered (st : CarState) (s : State) : headPos (entered st s) = headPos s := rfl

theorem madeReady_headPos (hstate : s.cs.state ≠ .ready) (hspan : s.ce.span = none) : headPos (madeReady out a s) = headPos s := by
  rw [headPos_of_blank (blank_madeReady hstate), headPos_entered, headPos_leftOrder hspan]

theorem firmEndOf_of_no_order {u : State} (hu : u.os.active = none) : firmEndOf u = none := by
  have hstarted : started u = none := by
    unfold started
    rw [hu] <;> rfl
  unfold firmEndOf
  rw [hstarted]

theorem waiting_madeReady (hspan : s.ce.span = none) : waiting .ce (madeReady out a s).tli = waiting .ce s.tli := by
  unfold madeReady
  rw [waiting_enterState, waiting_orderLeaves _ _ (by rw [report_ce_span]; exact hspan),
    waiting_report_of_ne _ _ _ _ _ _ (fun h => Block.noConfusion h)]

theorem readied_plain_own (hstate : s.cs.state ≠ .ready) (hspan : s.ce.span = none) :
    (readied out false a s).ce.own = s.ce.own.map untied := madeReady_own hstate hspan

/-- The firm end goes with the order. -/
theorem readied_firmEnd (ahead : Bool) (hstate : s.cs.state ≠ .ready) : (readied out ahead a s).ce.firmEnd = none := by
  have h := congrArg ClaimEngine.firmEnd (ce_of_blank (blank_readied (out := out) (ahead := ahead) (a := a) hstate))
  refine h.trans ?_
  have hplain : (entered .ready (leftOrder s)).ce.firmEnd = none := rfl
  obtain ⟨-, -, -, hactive, -⟩ := leftOrder_parts s
  show (endedReady ahead s).ce.firmEnd = none
  unfold endedReady
  cases ahead with
  | false => exact hplain
  | true =>
    show (releasedOwn _ _).ce.firmEnd = none
    unfold releasedOwn
    split
    · exact firmEndOf_of_no_order hactive
    · exact hplain

section
variable {before after : List OwnClaim} {o : OwnClaim} (hown : s.ce.own = before ++ o :: after)
  (hnodup : (s.ce.own.map OwnClaim.seg).Nodup) (ho : o.seg = (headPos s).1) (hstate : s.cs.state ≠ .ready)
  (hspan : s.ce.span = none)
include hown hnodup ho hstate hspan

theorem madeReady_parts : (madeReady out a s).ce.own = before.map untied ++ untied o :: after.map untied ∧
    ((madeReady out a s).ce.own.map OwnClaim.seg).Nodup ∧
    aheadSegs (madeReady out a s) = (after.map untied).map OwnClaim.seg := by
  have hlist : (madeReady out a s).ce.own = before.map untied ++ untied o :: after.map untied := by
    rw [madeReady_own hstate hspan, hown, List.map_append, List.map_cons]
  have hdistinct : ((madeReady out a s).ce.own.map OwnClaim.seg).Nodup := by
    rw [madeReady_own hstate hspan, List.map_map]
    exact hnodup
  exact ⟨hlist, hdistinct, aheadSegs_eq _ _ _ _ hlist hdistinct (by rw [madeReady_headPos hstate hspan]; exact ho)⟩

/-- An ending that releases ahead keeps the entries up to the head's. -/
theorem readied_ahead_own : (readied out true a s).ce.own = (before ++ [o]).map untied := by
  obtain ⟨hlist, hdistinct, hahead⟩ := madeReady_parts (out := out) (a := a) hown hnodup ho hstate hspan
  obtain ⟨f, hf⟩ := blank_releaseOwn_eq (aheadSegs (madeReady out a s)) (madeReady out a s)
  have hparts : (madeReady out a s).ce.own = (before.map untied ++ [untied o]) ++ after.map untied ++ [] := by
    rw [hlist, List.append_nil, List.append_assoc] <;> rfl
  refine (own_of_blank hf).trans ?_
  show (madeReady out a s).ce.own.filter _ = _
  rw [hahead, filter_outside_part _ _ _ hparts hdistinct, List.append_nil, List.map_append] <;> rfl

/-- An ending that releases ahead queues the frames of the entries beyond the head's. -/
theorem readied_ahead_releases (hclash : s.tli.clash = false) : releasedWith after [] s (readied out true a s) := by
  obtain ⟨hlist, hdistinct, hahead⟩ := madeReady_parts (out := out) (a := a) hown hnodup ho hstate hspan
  have hclash' : (madeReady out a s).tli.clash = false := (clash_of_blank (blank_madeReady hstate)).trans
    (by unfold leftOrder spanless; rw [hspan]; exact hclash)
  have hreleased := releaseOwn_releasedWith (aheadSegs (madeReady out a s)) (madeReady out a s) hclash'
  have hgone : ownOf (aheadSegs (madeReady out a s)) (madeReady out a s) = after.map untied := by
    rw [hahead]
    exact ownOf_part (before.map untied ++ [untied o]) (after.map untied) [] _
      (by rw [hlist, List.append_nil, List.append_assoc] <;> rfl) hdistinct
  rw [hgone] at hreleased
  obtain ⟨nodes, hnew, hmem, hwaits⟩ := hreleased
  refine ⟨nodes, hnew, fun n => (hmem n).trans ⟨?_, ?_⟩, ?_⟩
  · rintro ⟨e, he, p, hp, hn⟩
    obtain ⟨x, hx, rfl⟩ := List.mem_map.mp he
    exact ⟨x, hx, p, hp, hn⟩
  · rintro ⟨e, he, p, hp, hn⟩
    exact ⟨untied e, List.mem_map_of_mem he, p, hp, hn⟩
  · rw [waiting_madeReady hspan, List.length_map, List.map_map] at hwaits
    exact hwaits

end

end

end Sys2Proof.Machine
end

section
/-! The standstill event: the state at rest, and each ending of the order it may present (R108, R137, R138). -/

namespace Sys2Proof.Machine

open Sys2Proof

/-- The standstill flag set, and the service brake applied if the target is 0 (R137). -/
def braked (s : State) : State :=
  (s.setPu { s.pu with zeroFor := 500, standstill := true }).setEu
    { s.eu with brake := if s.eu.target = 0 then .service else s.eu.brake }

section
variable {s : State}

theorem exec_standstillEvent (hkind : s.tli.kind = .carriage) : exec .standstillEvent s =
    .next (if measuredSpeed s = 0 ∧ s.pu.standstill = false then takeStandstill s else s) :=
  next_congr (onKind_of_eq _ hkind)

theorem takeStandstill_of_still (h : movingState s.cs.state = false ∨ s.eu.demand ≠ 0) :
    takeStandstill s = s.setPu { s.pu with zeroFor := 500, standstill := true } := by
  refine if_neg ?_
  rcases h with h | h <;> simp [h]

theorem takeStandstill_of_moving (hmoving : movingState s.cs.state = true) (hzero : s.eu.demand = 0) :
    takeStandstill s = restEvent (braked s) := by
  have hcond : (movingState s.cs.state && decide (s.eu.demand = 0)) = true := by rw [hmoving, hzero] <;> rfl
  refine (if_pos hcond).trans (congrArg restEvent ?_)
  unfold braked
  by_cases h : s.eu.target = 0
  · rw [if_pos h]
    exact if_pos h
  · rw [if_neg h]
    exact if_neg h

/-! ## The conditions of the rest event -/

theorem authorityEnd_getD (s : State) : (authorityEnd s).getD 0 = s.ce.firmEnd.getD 0 - (cfg s).margin := by
  unfold authorityEnd
  cases s.ce.firmEnd with
  | none => exact (Nat.zero_sub _).symm
  | some f => rfl

theorem blockedAtRest_iff {a : ActiveOrder} {r : Route} (hr : s.pu.route = some r) : blockedAtRest a s = true ↔
    s.ce.span = none ∧ (∃ l, legAt a.ord.legs a.nextClaim = some l ∧ ∃ e ∈ s.ce.own, e.seg = l.seg) ∧
      ((s.ce.firmEnd.getD 0 - (cfg s).margin : Nat) : Int) ≤ r.x := by
  have hleg : firstLegHeld s a = true ↔ ∃ l, legAt a.ord.legs a.nextClaim = some l ∧ ∃ e ∈ s.ce.own, e.seg = l.seg := by
    unfold firstLegHeld ownOn
    cases legAt a.ord.legs a.nextClaim with
    | none => simp
    | some l => simp
  have hleft : decide (remaining s r.x = 0) = true ↔ ((s.ce.firmEnd.getD 0 - (cfg s).margin : Nat) : Int) ≤ r.x := by
    rw [decide_eq_true_iff, remaining, authorityEnd_getD]
    exact Int.toNat_eq_zero.trans sub_nonpos
  unfold blockedAtRest
  rw [hr]
  dsimp only
  rw [Bool.and_eq_true, Bool.and_eq_true, hleg, hleft, Option.isNone_iff_eq_none, and_assoc]

theorem arrived_iff {a : ActiveOrder} {r : Route} (hr : s.pu.route = some r) (hzero : s.eu.demand = 0) : arrived a s = true ↔
    a.ord.legs.length < a.nextClaim ∧ ((routeEnd a.ord.legs : Nat) : Int) - (cfg s).margin ≤ r.x := by
  unfold arrived
  rw [hr]
  simp [hzero]

theorem legAt_of_beyond {legs : List Leg} {k : Nat} (h : legs.length < k) : legAt legs k = none := by
  unfold legAt
  split
  · rfl
  · exact List.getElem?_eq_none (by omega)

/-! ## The endings -/

section
variable {a : ActiveOrder} {out : ReportOutcome} {ahead : Bool}

/-- An order that ends at a rest, with its REPORT (R20, R77). -/
theorem ends_readied (hne : s.cs.state ≠ .ready) (hstill : s.pu.standstill = true) :
    (readied out ahead a s).cs.state = .ready ∧ (readied out ahead a s).os.active = none ∧
    (readied out ahead a s).eu.brake = .service ∧ (readied out ahead a s).pu.route = none ∧
    (readied out ahead a s).pu.standstill = true ∧ (readied out ahead a s).ce.firmEnd = none ∧
    (s.tli.clash = false → ∀ c, console s = some c →
      queued (.report c { subject := .orderEnd, outcome := out, oid := a.ord.id }) (readied out ahead a s)) := by
  have h := blank_readied (out := out) (ahead := ahead) (a := a) hne
  obtain ⟨hcs, -, heu, hactive, -, -, -, -, -, hroute, -, hstand⟩ := endedReady_parts ahead s
  have hpu := pu_of_blank h
  refine ⟨by rw [cs_of_blank h, hcs], by rw [os_of_blank h, hactive], by rw [eu_of_blank h, heu], by rw [hpu]; exact hroute,
    by rw [hpu]; exact hstand.trans hstill, readied_firmEnd ahead hne, fun hclash c hc => queued_of_mem_waiting (b := .os) ?_⟩
  rw [waiting_readied hclash hc]
  exact List.mem_append_right _ List.mem_cons_self

theorem releasedWith_more {gone : List OwnClaim} {more : List Frame} {t u : State} (h : releasedWith gone [] s t)
    (hmore : waiting .ce u.tli = waiting .ce t.tli ++ more) : releasedWith gone more s u := by
  obtain ⟨nodes, hnew, hmem, hwaits⟩ := h
  exact ⟨nodes, hnew, hmem, by rw [hmore, hwaits, List.append_nil]⟩

/-- The state in which an ending's promotion finds the carriage. -/
theorem readied_before (hne : s.cs.state ≠ .ready) (hspan : s.ce.span = none) {r : Route} (ha : s.os.active = some a)
    (hr : s.pu.route = some r) :
    (readied out ahead a s).cs.latch = s.cs.latch ∧ (readied out ahead a s).os.pending = s.os.pending ∧
    (readied out ahead a s).tli.clash = s.tli.clash ∧ (readied out ahead a s).ce.span = none ∧
    (∀ e, (endRec (readied out ahead a s) e).isSome = true) ∧
    (s.tli.kind = .carriage → console (readied out ahead a s) = console s) := by
  have h := blank_readied (out := out) (ahead := ahead) (a := a) hne
  obtain ⟨hcs, -, -, -, hpending, -, -, hnone, -⟩ := endedReady_parts ahead s
  have hsteady : Steady s (readied out ahead a s) := by
    have hready : Steady s (madeReady out a s) :=
      (enterState_steady _ _).after ((orderLeaves_steady _).after (report_steady ..))
    rw [readied_eq]
    exact Steady.after (.ite (fun _ => releaseOwn_steady _ _) (fun _ => .refl _)) hready
  have hends : ∀ e, endRec (endedReady ahead s) e = endRec (leftOrder s) e := by
    unfold endedReady
    cases ahead with
    | false => exact fun e => by cases e <;> rfl
    | true =>
      obtain ⟨f, hf⟩ := releasedOwn_eq (aheadSegs (entered .ready (leftOrder s))) (entered .ready (leftOrder s))
      dsimp only
      rw [if_pos rfl, hf]
      exact fun e => by cases e <;> rfl
  refine ⟨by rw [cs_of_blank h, hcs], by rw [os_of_blank h, hpending], hsteady.clash, by rw [span_of_blank h, hnone],
    fun e => ?_, fun hkind => ?_⟩
  · rw [endRec_of_blank h, hends]
    exact endRec_leftOrder_isSome hspan ha hr e
  · have hline := congrArg Tli.kind hsteady.line
    have hkind' : (readied out ahead a s).tli.kind = .carriage := Eq.trans hline hkind
    rw [console_carriage hkind', console_carriage hkind, cs_of_blank h, hcs]

end

end

end Sys2Proof.Machine
end

section
/-! O57: a standstill event taken. -/

namespace Sys2Proof.Machine

open Sys2Proof

/-- The carriage at rest, as a standstill event presents it. -/
def stoodStill (s : State) : State := rested (braked s)

section
variable {s : State} {a : ActiveOrder} {r : Route}

theorem alignOutcome_of_within {x p : Int} (h : (x - p).natAbs ≤ (cfg s).dockTol) : alignOutcome x p s = .completed := if_pos h

/-- The carriage docks at the pad. -/
theorem startDocking_of_above (hstate : s.cs.state = .running) (hpos : s.ds.pos ≠ .down) :
    (startDocking s).cs.state = .docking ∧ (startDocking s).ds.cmd = .lower ∧ (startDocking s).ds.dockTimer = some 0 ∧
    (startDocking s).os = s.os ∧ (startDocking s).pu.route = s.pu.route ∧ (startDocking s).ce.own = s.ce.own ∧
    (startDocking s).eu.brake = .service := by
  have h : blank (enterState .docking (s.setDs { s.ds with cmd := .lower, dockTimer := some 0 })) =
      blank (entered .docking (s.setDs { s.ds with cmd := .lower, dockTimer := some 0 })) :=
    blank_enterState (by rw [State.setDs_cs, hstate]; exact CarState.noConfusion)
  have hstart : startDocking s = enterState .docking (s.setDs { s.ds with cmd := .lower, dockTimer := some 0 }) := by
    refine if_neg ?_
    rw [ds_of_blank h]
    exact hpos
  rw [hstart, cs_of_blank h, ds_of_blank h, os_of_blank h, pu_of_blank h, own_of_blank h, eu_of_blank h]
  exact ⟨rfl, rfl, rfl, rfl, rfl, rfl, rfl⟩

section
variable (hkind : s.tli.kind = .carriage) (hzero : measuredSpeed s = 0) (hclear : s.pu.standstill = false)
  (hmoving : movingState s.cs.state = true) (hdemand : s.eu.demand = 0)
include hkind hzero hclear hmoving hdemand

theorem exec_standstill_moving : exec .standstillEvent s = .next (restEvent (braked s)) := by
  rw [exec_standstillEvent hkind, if_pos ⟨hzero, hclear⟩, takeStandstill_of_moving hmoving hdemand]

/-- In RUNNING an order short of its destination and not blocked runs on. -/
theorem standstill_runs_on (ha : s.os.active = some a) (hphase : a.phase = .underway) (hstate : s.cs.state = .running)
    (hpad : s.eu.padStop = false) (hr : s.pu.route = some r)
    (hshort : a.nextClaim ≤ a.ord.legs.length ∨ r.x < ((routeEnd a.ord.legs : Nat) : Int) - (cfg s).margin)
    (hopen : s.ce.span.isSome = true ∨ r.x < ((s.ce.firmEnd.getD 0 - (cfg s).margin : Nat) : Int) ∨
      ∀ l, legAt a.ord.legs a.nextClaim = some l → ∀ e ∈ s.ce.own, e.seg ≠ l.seg) :
    exec .standstillEvent s = .next (stoodStill s) := by
  rw [exec_standstill_moving hkind hzero hclear hmoving hdemand, restEvent_running (s := braked s) ha hphase hstate]
  have hblocked : ¬ blockedAtRest a (stoodStill s) = true := by
    rw [blockedAtRest_iff (s := stoodStill s) hr]
    rintro ⟨hspan, ⟨l, hl, e, he, hseg⟩, hx⟩
    rcases hopen with h | h | h
    · rw [show s.ce.span = none from hspan] at h
      cases h
    · exact absurd hx (not_le.mpr h)
    · exact h l hl e he hseg
  have harrived : ¬ arrived a (stoodStill s) = true := by
    rw [arrived_iff (s := stoodStill s) hr hdemand]
    rintro ⟨hall, hx⟩
    rcases hshort with h | h
    · omega
    · exact absurd hx (not_le.mpr h)
  exact next_congr ((if_neg (by rw [show (braked s).eu.padStop = false from hpad]; exact Bool.false_ne_true)).trans
    ((if_neg hblocked).trans (if_neg harrived)))

/-- At its destination an order without a pad ends COMPLETED, and one whose pad is unread is a fault (R13, R116). -/
theorem standstill_arrived (ha : s.os.active = some a) (hphase : a.phase = .underway) (hstate : s.cs.state = .running)
    (hpad : s.eu.padStop = false) (hr : s.pu.route = some r) (hall : a.ord.legs.length < a.nextClaim)
    (hx : ((routeEnd a.ord.legs : Nat) : Int) - (cfg s).margin ≤ r.x) :
    exec .standstillEvent s = .next (if (lastPad a.ord).isSome then raiseFault .padMarkerMissed (stoodStill s)
      else endOrder .completed false false (stoodStill s)) := by
  rw [exec_standstill_moving hkind hzero hclear hmoving hdemand, restEvent_running (s := braked s) ha hphase hstate]
  have hblocked : ¬ blockedAtRest a (stoodStill s) = true := by
    rw [blockedAtRest_iff (s := stoodStill s) hr, legAt_of_beyond hall]
    rintro ⟨-, ⟨l, hl, -⟩, -⟩
    cases hl
  have harrived : arrived a (stoodStill s) = true := (arrived_iff (s := stoodStill s) hr hdemand).mpr ⟨hall, hx⟩
  exact next_congr ((if_neg (by rw [show (braked s).eu.padStop = false from hpad]; exact Bool.false_ne_true)).trans
    ((if_neg hblocked).trans (if_pos harrived)))

/-- At the authority end an order whose next leg lies on a segment held ends FAILED ROUTE_BLOCKED (R44). -/
theorem standstill_blocked {l : Leg} (ha : s.os.active = some a) (hphase : a.phase = .underway) (hstate : s.cs.state = .running)
    (hpad : s.eu.padStop = false) (hr : s.pu.route = some r) (hspan : s.ce.span = none)
    (hl : legAt a.ord.legs a.nextClaim = some l) (hheld : ∃ e ∈ s.ce.own, e.seg = l.seg)
    (hx : ((s.ce.firmEnd.getD 0 - (cfg s).margin : Nat) : Int) ≤ r.x) :
    exec .standstillEvent s = .next (endOrder (.failed .routeBlocked) true false (stoodStill s)) := by
  rw [exec_standstill_moving hkind hzero hclear hmoving hdemand, restEvent_running (s := braked s) ha hphase hstate]
  have hblocked : blockedAtRest a (stoodStill s) = true := (blockedAtRest_iff (s := stoodStill s) hr).mpr ⟨hspan, ⟨l, hl, hheld⟩, hx⟩
  exact next_congr ((if_neg (by rw [show (braked s).eu.padStop = false from hpad]; exact Bool.false_ne_true)).trans
    (if_pos hblocked))

/-- Under the pad stop the alignment is checked (R14). -/
theorem standstill_padStop (ha : s.os.active = some a) (hphase : a.phase = .underway) (hstate : s.cs.state = .running)
    (hpad : s.eu.padStop = true) : exec .standstillEvent s = .next (alignmentCheck (stoodStill s)) := by
  rw [exec_standstill_moving hkind hzero hclear hmoving hdemand, restEvent_running (s := braked s) ha hphase hstate]
  exact next_congr (if_pos hpad)

end

/-- An order that ends at a rest with none pending. -/
theorem endOrder_stoodStill {out : ReportOutcome} {ahead : Bool} (ha : s.os.active = some a) (hne : s.cs.state ≠ .ready)
    (hpending : s.os.pending = none) : endOrder out ahead false (stoodStill s) = readied out ahead a (stoodStill s) :=
  endOrder_readied (s := stoodStill s) ha hne hpending

end

/-- Settles O57: the flag, the rest, and the ending that the order's state calls for. -/
theorem standstillTaken : Obligations.StandstillTaken := by
  intro s hkind flagged resting
  have hexec := exec_standstillEvent (s := s) hkind
  refine ⟨fun h => hexec.trans (next_congr (if_neg ?_)), fun hzero hclear => ⟨fun h => ?_, fun hmoving hdemand hnone => ?_,
    fun a ha hphase hdemand => ⟨fun hstate => ?_, fun r hstate hpad hr hshort hopen => ?_⟩, ?_⟩⟩
  · rintro ⟨hzero, hclear⟩
    rcases h with h | h
    · exact h hzero
    · rw [h] at hclear
      cases hclear
  · rw [hexec, if_pos ⟨hzero, hclear⟩, takeStandstill_of_still h]
  · rw [exec_standstill_moving hkind hzero hclear hmoving hdemand, restEvent_of_no_order (s := braked s) hnone] <;> rfl
  · rw [exec_standstill_moving hkind hzero hclear (by rw [hstate]; rfl) hdemand, restEvent_halted (s := braked s) ha hphase hstate] <;> rfl
  · exact standstill_runs_on hkind hzero hclear (by rw [hstate]; rfl) hdemand ha hphase hstate hpad hr hshort hopen
  intro a r ha hr hdemand hspan ends freesAhead
  have hends {out : ReportOutcome} {ahead : Bool} (hne : s.cs.state ≠ .ready) : ends out (readied out ahead a (stoodStill s)) :=
    ends_readied (s := stoodStill s) hne rfl
  have hfrees {out : ReportOutcome} (hne : s.cs.state ≠ .ready) : freesAhead (readied out true a (stoodStill s)) := by
    intro before after o hown hnodup _ ho
    refine ⟨?_, fun hclash => readied_ahead_releases (s := stoodStill s) hown hnodup ho hne hspan hclash⟩
    rw [readied_ahead_own (s := stoodStill s) hown hnodup ho hne hspan, List.map_map] <;> rfl
  have hblocked (out : ReportOutcome) (hne : s.cs.state ≠ .ready) (hpending : s.os.pending = none)
      (he : exec .standstillEvent s = .next (endOrder out true false (stoodStill s))) :
      ∃ t, exec .standstillEvent s = .next t ∧ ends out t ∧ freesAhead t :=
    ⟨_, he.trans (next_congr (endOrder_stoodStill ha hne hpending)), hends hne, hfrees hne⟩
  refine ⟨fun hstate hphase => ?_, fun hmoving hphase hpending => ?_, fun hstate hphase => ?_⟩
  · have hmoving : movingState s.cs.state = true := by rw [hstate] <;> rfl
    have hne : s.cs.state ≠ .ready := by rw [hstate]; exact CarState.noConfusion
    refine ⟨fun hpad hall hx => ?_, fun l hpad hpending hl hheld hx => ?_, fun p hpad hp => ?_⟩
    · have harrived := standstill_arrived hkind hzero hclear hmoving hdemand ha hphase hstate hpad hr hall hx
      refine ⟨fun hnopad hpending => ⟨_, harrived.trans (next_congr ?_), hends (ahead := false) hne, ?_⟩, fun hsome => ⟨_, harrived, ?_⟩⟩
      · exact (if_neg (by rw [hnopad]; exact Bool.false_ne_true)).trans (endOrder_stoodStill ha hne hpending)
      · rw [readied_plain_own (s := stoodStill s) hne hspan, List.map_map] <;> rfl
      · rw [if_pos hsome]
        obtain ⟨hfault, hcode, -⟩ := raiseFault_faultedWith (s := stoodStill s) .padMarkerMissed
          (by show s.cs.state ≠ _; rw [hstate]; exact CarState.noConfusion)
        exact ⟨hfault, hcode⟩
    · exact hblocked _ hne hpending
        (standstill_blocked hkind hzero hclear hmoving hdemand ha hphase hstate hpad hr hspan hl hheld hx)
    · have hstop := standstill_padStop hkind hzero hclear hmoving hdemand ha hphase hstate hpad
      refine ⟨fun hwithin hdock hpos => ⟨_, hstop.trans (next_congr
        (alignmentCheck_of_dock (s := stoodStill s) ha hr hp hdock hwithin)), startDocking_of_above (s := stoodStill s) hstate hpos⟩,
        fun hwithin hdock hpending => ⟨_, hstop.trans (next_congr ?_), hends (ahead := false) hne⟩,
        fun hwide hpending => ⟨_, hstop.trans (next_congr ?_), hends (ahead := false) hne⟩⟩
      · refine (alignmentCheck_of_no_dock (s := stoodStill s) ha hr hp hdock).trans ?_
        rw [alignOutcome_of_within (s := stoodStill s) hwithin]
        exact endOrder_stoodStill ha hne hpending
      · exact (alignmentCheck_of_misaligned (s := stoodStill s) ha hr hp (not_le.mpr hwide)).trans (endOrder_stoodStill ha hne hpending)
  · have hne : s.cs.state ≠ .ready := fun h => by rw [h] at hmoving; cases hmoving
    refine hblocked _ hne hpending ?_
    rw [exec_standstill_moving hkind hzero hclear hmoving hdemand, restEvent_ending (s := braked s) ha hphase hmoving] <;> rfl
  · have hne : s.cs.state ≠ .ready := by rw [hstate]; exact CarState.noConfusion
    have hstopped : exec .standstillEvent s = .next (endOrder .stopped true false (stoodStill s)) := by
      rw [exec_standstill_moving hkind hzero hclear (by rw [hstate]; rfl) hdemand,
        restEvent_stopping (s := braked s) ha hphase hstate] <;> rfl
    refine ⟨fun hpending => hblocked _ hne hpending hstopped, fun p hp => ?_⟩
    obtain ⟨hlatch, hpending, hclash, hnone, hboth, hconsole⟩ :=
      readied_before (s := stoodStill s) (out := .stopped) (ahead := true) (a := a) hne hspan ha hr
    obtain ⟨hready, -⟩ := hends (out := .stopped) (ahead := true) hne
    obtain ⟨hgone, hheld, hfree⟩ := promote_of_ready (hpending.trans hp) hready hboth
    have honward := promote_onward (readied .stopped true a (stoodStill s))
    rw [hlatch, hclash, hconsole hkind] at hfree
    rw [hlatch] at hheld
    refine ⟨_, hstopped.trans (next_congr (endOrder_eq_readied (s := stoodStill s) ha)), hgone, ?_, hheld, hfree⟩
    intro before after o hown hnodup _ ho hmute
    obtain ⟨-, -, more, hmore⟩ := honward.frames (hclash.trans hmute) hnone
    exact ⟨more, releasedWith_more (readied_ahead_releases (s := stoodStill s) hown hnodup ho hne hspan hmute) hmore⟩

end Sys2Proof.Machine
end

section
/-! The carriage parks: the entry under the head STANDING, and the CLAIM that says so (R71). -/

namespace Sys2Proof.Machine

open Sys2Proof

/-- The own list with the entry on a segment STANDING. -/
def standingAt (g : Seg) (own : List OwnClaim) : List OwnClaim :=
  own.map (fun e => if e.seg = g then { e with st := .standing } else e)

section
variable {s : State}

theorem claimClass_congr {t : State} (h : t.os = s.os) : claimClass t = claimClass s := by
  unfold claimClass started
  rw [h]

/-- What parking leaves, but for the own list. -/
theorem enterParked_parts (h : s.cs.state ≠ .parked) :
    (enterParked s).cs = { s.cs with state := .parked, stopCond := none } ∧ (enterParked s).os = s.os ∧
    (enterParked s).ds = s.ds ∧ (enterParked s).eu.brake = .service ∧ (enterParked s).ov = s.ov ∧
    (enterParked s).ce.own = standingAt (headPos s).1 s.ce.own ∧ (∀ e, endRec (enterParked s) e = endRec s e) := by
  obtain ⟨f, hf⟩ := blank_makeStanding_eq s
  have hne : CarState.parked ≠ (makeStanding s).cs.state := by
    rw [cs_of_blank hf]
    exact fun heq => h heq.symm
  have hblank : blank (enterParked s) = blank (entered .parked (s.setCe
      { s.ce with own := standingAt (headPos s).1 s.ce.own, firmEnd := f })) :=
    (blank_enterState hne).trans (blank_entered hf)
  refine ⟨cs_of_blank hblank, (os_of_blank hblank).trans rfl, (ds_of_blank hblank).trans rfl, by rw [eu_of_blank hblank] <;> rfl,
    (ov_of_blank hblank).trans rfl,
    own_of_blank hblank, fun e => ?_⟩
  rw [endRec_of_blank hblank]
  cases e <;> rfl

/-- Where the entry under the head did not stand, a CLAIM carries it. -/
theorem enterParked_claim (hclash : s.tli.clash = false) (hex : ∃ e ∈ s.ce.own, e.seg = (headPos s).1 ∧ e.st ≠ .standing) :
    offered .ce .plain (.claim (claimClass s) (cfg s).refresh
      (((standingAt (headPos s).1 s.ce.own).filter (fun e => decide (e.seg = (headPos s).1))).map itemOf)) ∈
      (enterParked s).tli.txq ++ (enterParked s).tli.kept := by
  have hset : blank (setOwn (standingAt (headPos s).1 s.ce.own) s) = blank (withOwn (standingAt (headPos s).1 s.ce.own) s) :=
    blank_setOwn ..
  have hown : (setOwn (standingAt (headPos s).1 s.ce.own) s).ce.own = standingAt (headPos s).1 s.ce.own := own_of_blank hset
  have hcfg : cfg (setOwn (standingAt (headPos s).1 s.ce.own) s) = cfg s := by
    unfold cfg
    rw [cs_of_blank hset] <;> rfl
  have hclash' : (setOwn (standingAt (headPos s).1 s.ce.own) s).tli.clash = false := (clash_of_blank hset).trans hclash
  have hclass : claimClass (setOwn (standingAt (headPos s).1 s.ce.own) s) = claimClass s := claimClass_congr ((os_of_blank hset).trans rfl)
  have hmake : makeStanding s = queueClaim .plain (claimClass (setOwn (standingAt (headPos s).1 s.ce.own) s))
      ((setOwn (standingAt (headPos s).1 s.ce.own) s).ce.own.filter (fun e => decide (e.seg = (headPos s).1)))
      (setOwn (standingAt (headPos s).1 s.ce.own) s) := by
    refine if_pos ?_
    obtain ⟨e, he, hseg, hst⟩ := hex
    exact List.any_eq_true.mpr ⟨e, he, by simp [hseg, hst]⟩
  have hne : (standingAt (headPos s).1 s.ce.own).filter (fun e => decide (e.seg = (headPos s).1)) ≠ [] := by
    obtain ⟨e, he, hseg, -⟩ := hex
    refine List.ne_nil_of_mem (List.mem_filter.mpr ⟨List.mem_map_of_mem he, decide_eq_true ?_⟩)
    rw [if_pos hseg]
    exact hseg
  have hqueued := queueClaim_mem (g := .plain) (c := claimClass s) hclash' hne
  rw [hcfg] at hqueued
  rw [hown, hclass] at hmake
  unfold enterParked
  rw [hmake]
  exact enterState_framesStay _ _ _ hqueued rfl rfl

/-! ## The pending order promoted in PARKED -/

section
variable {p : OrderRec}

theorem promote_of_parked (hp : s.os.pending = some p) (hstate : s.cs.state = .parked) (hpos : s.ds.pos ≠ .up)
    (hlatch : s.cs.latch = none) (hends : ∀ e, (endRec s e).isSome = true) :
    (promote s).os.pending = none ∧ ((promote s).cs.state = .fault ∨
      (firstLegOk p (promote s) = true ∧ (promote s).cs.state = .undocking ∧ (promote s).ds.cmd = .raise ∧
        (∀ e ∈ (promote s).ce.own, e.st ≠ .standing) ∧
        (promote s).os.active.map (fun b => (b.ord, b.phase)) = some (p, .underway)) ∨
      (firstLegOk p s = false ∧ promote s = turnedAway p s)) := by
  cases hok : firstLegOk p s with
  | true =>
    rw [promote_of_ok hp hlatch hok]
    obtain ⟨hpending, hout⟩ := beginOrder_of_parked (s := promoted p s) hok (hends _) hstate hpos rfl
    exact ⟨hpending, hout.imp id .inl⟩
  | false =>
    rw [promote_of_bad hp hlatch hok]
    exact ⟨(turnedAway_parts p s).2.2.2.2.1, .inr (.inr ⟨rfl, rfl⟩)⟩

theorem turnedAway_framesStay (p : OrderRec) (s : State) : FramesStay s (turnedAway p s) :=
  FramesStay.after (t := report .os .order (.refused (.badOrder .firstLeg 0)) p.id (promoted p s)) (.of_eq rfl)
    ((report_framesStay _ _ _ _ _).after (.of_eq rfl))

end

/-! ## An order that ends in PARKED -/

/-- PARKED entered by an order that ended. -/
def madeParked (out : ReportOutcome) (a : ActiveOrder) (s : State) : State :=
  enterParked (orderLeaves (report .os .orderEnd out a.ord.id s))

section
variable {a : ActiveOrder} {out : ReportOutcome}

theorem endOrder_eq_madeParked (ha : s.os.active = some a) : endOrder out false true s = promote (madeParked out a s) := by
  unfold endOrder
  rw [ha]
  rfl

theorem madeParked_steady : Steady (report .os .orderEnd out a.ord.id s) (madeParked out a s) :=
  (enterParked_steady _).after (orderLeaves_steady _)

/-- What an ending in PARKED leaves. -/
theorem madeParked_parts (hstate : s.cs.state ≠ .parked) (hspan : s.ce.span = none) :
    (madeParked out a s).cs = { s.cs with state := .parked, stopCond := none } ∧ (madeParked out a s).os.active = none ∧
    (madeParked out a s).os.pending = s.os.pending ∧ (madeParked out a s).ds = s.ds ∧ (madeParked out a s).eu.brake = .service ∧
    (madeParked out a s).ce.own = standingAt (headPos s).1 (s.ce.own.map untied) ∧
    (∀ e, endRec (madeParked out a s) e = endRec (leftOrder s) e) := by
  have hleft : blank (orderLeaves (report .os .orderEnd out a.ord.id s)) = blank (leftOrder s) :=
    (blank_orderLeaves_plain _).trans (blank_leftOrder (blank_report ..))
  obtain ⟨hcs, hds, -, hactive, hpending, -, -, -, -, -, -, -, hown⟩ := leftOrder_parts s
  have hne : (orderLeaves (report .os .orderEnd out a.ord.id s)).cs.state ≠ .parked := by
    rw [cs_of_blank hleft, hcs]
    exact hstate
  obtain ⟨hcs', hos', hds', hbrake, -, hown', hends⟩ := enterParked_parts hne
  rw [cs_of_blank hleft, hcs] at hcs'
  rw [os_of_blank hleft] at hos'
  rw [ds_of_blank hleft, hds] at hds'
  rw [own_of_blank hleft, hown, headPos_of_blank hleft, headPos_leftOrder hspan, outsideSpan_of_none hspan] at hown'
  exact ⟨hcs', (congrArg OrderStore.active hos').trans hactive, (congrArg OrderStore.pending hos').trans hpending, hds', hbrake,
    hown', fun e => (hends e).trans (endRec_of_blank hleft e)⟩

theorem madeParked_claim (hspan : s.ce.span = none) (hclash : s.tli.clash = false)
    (hex : ∃ e ∈ s.ce.own, e.seg = (headPos s).1 ∧ e.st ≠ .standing) :
    offered .ce .plain (.claim 3 (cfg s).refresh
      (((standingAt (headPos s).1 (s.ce.own.map untied)).filter (fun e => decide (e.seg = (headPos s).1))).map itemOf)) ∈
      (madeParked out a s).tli.txq ++ (madeParked out a s).tli.kept := by
  have hleft : blank (orderLeaves (report .os .orderEnd out a.ord.id s)) = blank (leftOrder s) :=
    (blank_orderLeaves_plain _).trans (blank_leftOrder (blank_report ..))
  obtain ⟨hcs, -, -, hactive, -, -, -, -, -, -, -, -, hown⟩ := leftOrder_parts s
  have hown' : (orderLeaves (report .os .orderEnd out a.ord.id s)).ce.own = s.ce.own.map untied := by
    rw [own_of_blank hleft, hown, outsideSpan_of_none hspan] <;> rfl
  have hhead : headPos (orderLeaves (report .os .orderEnd out a.ord.id s)) = headPos s := by
    rw [headPos_of_blank hleft, headPos_leftOrder hspan]
  have hcfg : cfg (orderLeaves (report .os .orderEnd out a.ord.id s)) = cfg s := by
    unfold cfg
    rw [cs_of_blank hleft, hcs]
  have hclass : claimClass (orderLeaves (report .os .orderEnd out a.ord.id s)) = 3 :=
    claimClass_of_none (by rw [os_of_blank hleft]; exact hactive)
  have hclash' : (orderLeaves (report .os .orderEnd out a.ord.id s)).tli.clash = false :=
    ((orderLeaves_steady _).clash.trans (report_steady ..).clash).trans hclash
  have hmem := enterParked_claim hclash' (by
    obtain ⟨e, he, hseg, hst⟩ := hex
    rw [hown', hhead]
    exact ⟨untied e, List.mem_map_of_mem he, hseg, hst⟩)
  rw [hown', hhead, hcfg, hclass] at hmem
  exact hmem

end

end

end Sys2Proof.Machine
end

section
/-! O60: the jack switches and the two timeouts. -/

namespace Sys2Proof.Machine

open Sys2Proof

/-- The switch inputs as they now stand. -/
def jacksRead (up down : Bool) (s : State) : State :=
  s.setDs { s.ds with upInput := up, downInput := down, pos := jackPosOf up down }

section
variable {s : State}

theorem jackPosOf_eq (up down : Bool) : jackPosOf up down =
    if (up && !down) = true then .up else if (down && !up) = true then .down else .between := by
  cases up <;> cases down <;> rfl

theorem exec_jackPositionChange (up down : Bool) (hkind : s.tli.kind = .carriage) :
    exec (.jackPositionChange up down) s = .next (jacksMoved (jacksRead up down s)) := next_congr (onKind_of_eq _ hkind)

theorem exec_dockTimeout (hkind : s.tli.kind = .carriage) : exec .dockTimeout s =
    .next (if s.ds.dockTimer.isSome then raiseFault .dockTimeout (jacksOff s) else s) := next_congr (onKind_of_eq _ hkind)

theorem exec_undockTimeout (hkind : s.tli.kind = .carriage) : exec .undockTimeout s =
    .next (if s.ds.undockTimer.isSome then raiseFault .undockTimeout (jacksOff s) else s) := next_congr (onKind_of_eq _ hkind)

/-! ## What a new jack position does, by the carriage state -/

theorem jacksMoved_of_other (hd : s.cs.state ≠ .docking) (hu : s.cs.state ≠ .undocking) (hf : s.cs.state ≠ .fault) :
    jacksMoved s = s := by
  unfold jacksMoved
  split
  · next h => exact absurd h hd
  · next h => exact absurd h hu
  · next h => exact absurd h hf
  · rfl

theorem jacksMoved_docking (h : s.cs.state = .docking) : jacksMoved s = if s.ds.pos = .down then dockDone s else s := by
  unfold jacksMoved
  rw [h]

theorem jacksMoved_undocking (h : s.cs.state = .undocking) : jacksMoved s = if s.ds.pos = .up then undockDone s else s := by
  unfold jacksMoved
  rw [h]

theorem jacksMoved_fault (h : s.cs.state = .fault) :
    jacksMoved s = if motionDone s.ds.cmd s.ds.pos then jacksOff s else s := by
  unfold jacksMoved
  rw [h]

theorem motionDone_iff (cmd : JackCmd) (pos : JackPos) :
    motionDone cmd pos = true ↔ (cmd = .lower ∧ pos = .down) ∨ (cmd = .raise ∧ pos = .up) := by
  simp [motionDone]

/-- The jacks being up, the carriage leaves UNDOCKING with its order (R160). -/
theorem leaveUndocking_parts (hstate : s.cs.state = .undocking) :
    (leaveUndocking s).ds = (jacksOff s).ds ∧ (leaveUndocking s).os = s.os ∧
    (leaveUndocking s).cs.state = (if s.cs.latch.isSome then .halted else .running) ∧
    (leaveUndocking s).eu.brake = s.eu.brake := by
  have hentered (st : CarState) (hne : st ≠ .undocking) : blank (enterState st (jacksOff s)) = blank (entered st (jacksOff s)) :=
    blank_enterState (by show st ≠ s.cs.state; rw [hstate]; exact hne)
  unfold leaveUndocking
  dsimp only
  by_cases hlatch : s.cs.latch.isSome = true
  · have h := hentered .halted CarState.noConfusion
    rw [if_pos (show (jacksOff s).cs.latch.isSome = true from hlatch), if_pos hlatch, ds_of_blank h, os_of_blank h,
      cs_of_blank h, eu_of_blank h]
    exact ⟨rfl, rfl, rfl, rfl⟩
  · have h := hentered .running CarState.noConfusion
    obtain ⟨hcs, hos, heu, -, hds, -⟩ := testTrigger_parts (enterState .running (jacksOff s))
    rw [if_neg (show ¬ (jacksOff s).cs.latch.isSome = true from hlatch), if_neg hlatch, hcs, hos, heu, hds, ds_of_blank h,
      os_of_blank h, cs_of_blank h, eu_of_blank h]
    exact ⟨rfl, rfl, rfl, rfl⟩

/-! ## The timeouts -/

/-- A dock or undock timer that runs out is a fault, the jacks stopped. -/
theorem jackFault_first (code : FaultCode) (h : s.cs.state ≠ .fault) :
    (raiseFault code (jacksOff s)).cs.state = .fault ∧ (raiseFault code (jacksOff s)).cs.fault.map FaultRec.code = some code ∧
    (raiseFault code (jacksOff s)).ds = (jacksOff s).ds := by
  obtain ⟨hfault, hcode, -⟩ := raiseFault_faultedWith (s := jacksOff s) code h
  obtain ⟨-, -, -, -, -, -, -, -, -, hds⟩ := firstFault_parts code (headPos (jacksOff s)).1 (headPos (jacksOff s)).2 (jacksOff s)
  refine ⟨hfault, hcode, ?_⟩
  rw [raiseFault, raiseFaultAt_of_not_fault (s := jacksOff s) h, hds]
  exact ite_self _

/-- In FAULT it is a further one. -/
theorem jackFault_further (code : FaultCode) (hplain : positionalCode code = false) (hjacks : stopsJacks code = false)
    (h : s.cs.state = .fault) {f : FaultRec} (hf : s.cs.fault = some f) :
    (raiseFault code (jacksOff s)).cs =
      { s.cs with fault := some { f with further := min (f.further + 1) 65535, last := some code } } ∧
    (raiseFault code (jacksOff s)).ds = (jacksOff s).ds := by
  rw [raiseFault, raiseFaultAt_of_fault (s := jacksOff s) h]
  constructor
  · have hadd : s.cs.fault.map (fun g => g.add code) =
        some { f with further := min (f.further + 1) 65535, last := some code } := by
      rw [hf, Option.map_some, FaultRec.add, hplain, Bool.or_false] <;> rfl
    rw [furtherFault_parts]
    exact congrArg (fun g => { s.cs with fault := g }) hadd
  · unfold furtherFault
    rw [hjacks]
    exact report_ds ..

end

/-! ## The two ends of a motion -/

section
variable {s : State} {a : ActiveOrder} {up down : Bool}

/-- DOWN in DOCKING completes the order, and parks the carriage (R158). -/
theorem exec_docked (hkind : s.tli.kind = .carriage) (hstate : s.cs.state = .docking) (hpos : jackPosOf up down = .down)
    (ha : s.os.active = some a) : exec (.jackPositionChange up down) s =
      .next (promote (madeParked .completed a (jacksOff (jacksRead up down s)))) := by
  rw [exec_jackPositionChange up down hkind, jacksMoved_docking (s := jacksRead up down s) hstate]
  exact next_congr ((if_pos hpos).trans (endOrder_eq_madeParked (s := jacksOff (jacksRead up down s)) ha))

theorem standingAt_untied (g : Seg) (own : List OwnClaim) : standingAt g (own.map untied) =
    own.map (fun e => { e with leg := .none, st := if e.seg = g then .standing else e.st }) := by
  rw [standingAt, List.map_map]
  refine List.map_congr_left fun e _ => ?_
  by_cases h : e.seg = g
  · rw [if_pos h]
    exact if_pos h
  · rw [if_neg h]
    exact if_neg h

theorem exec_undocked (hkind : s.tli.kind = .carriage) (hstate : s.cs.state = .undocking) (hpos : jackPosOf up down = .up) :
    exec (.jackPositionChange up down) s = .next (undockDone (jacksRead up down s)) := by
  rw [exec_jackPositionChange up down hkind, jacksMoved_undocking (s := jacksRead up down s) hstate]
  exact next_congr (if_pos hpos)

end

/-- Settles O60: the switches by the carriage state, the ends of a docking and an undocking, and the two timers. -/
theorem jacksMove : Obligations.JacksMove := by
  intro up down s hkind pos read off head parked stands
  have hpos : jackPosOf up down = pos := jackPosOf_eq up down
  have hread : jacksRead up down s = read := by rw [jacksRead, hpos]
  have hexec := exec_jackPositionChange up down hkind
  have hoff : read.setDs off = jacksOff (jacksRead up down s) := by rw [hread] <;> rfl
  have hjacks : (jacksOff (jacksRead up down s)).ds = off := by rw [hread] <;> rfl
  have hrun {t : State} (h : jacksMoved (jacksRead up down s) = t) : exec (.jackPositionChange up down) s = .next t :=
    hexec.trans (next_congr h)
  have hdock := exec_dockTimeout hkind
  have hundock := exec_undockTimeout hkind
  refine ⟨fun hd hu hf => ?_, fun hd hp => ?_, fun hu hp => ?_, fun a hd hp ha hspan => ?_, fun hu hp => ⟨fun hmark => ?_, ?_⟩,
    fun hf => ⟨fun h => ?_, fun h => ?_⟩, fun h => ?_, fun h => ?_, fun hf => ⟨fun h => ?_, fun h => ?_⟩, fun f hf hrec => ?_⟩
  · rw [← hread]
    exact hrun (jacksMoved_of_other (s := jacksRead up down s) hd hu hf)
  · rw [← hread]
    exact hrun ((jacksMoved_docking (s := jacksRead up down s) hd).trans (if_neg (by rw [← hpos] at hp; exact hp)))
  · rw [← hread]
    exact hrun ((jacksMoved_undocking (s := jacksRead up down s) hu).trans (if_neg (by rw [← hpos] at hp; exact hp)))
  · rw [← hpos] at hp
    have hdocked := exec_docked hkind hd hp ha
    obtain ⟨hcs, hactive, hpending, hds, hbrake, hown, hends⟩ := madeParked_parts (s := jacksOff (jacksRead up down s))
      (out := .completed) (a := a) (by show s.cs.state ≠ _; rw [hd]; exact CarState.noConfusion) hspan
    rw [standingAt_untied] at hown
    have hstands (t : State) (hlist : t.ce.own = (madeParked .completed a (jacksOff (jacksRead up down s))).ce.own)
        (hstays : FramesStay (madeParked .completed a (jacksOff (jacksRead up down s))) t) : stands t := by
      refine ⟨hlist.trans hown, fun hclash hex => ?_⟩
      have hmem := madeParked_claim (s := jacksOff (jacksRead up down s)) (out := .completed) (a := a) hspan hclash hex
      rw [standingAt_untied] at hmem
      exact queued_of_mem (hstays _ hmem rfl rfl)
    refine ⟨fun hnone => ⟨_, hdocked, ?_⟩, fun p hp' hroute => ⟨_, hdocked, ?_⟩⟩
    · rw [promote_of_none (hpending.trans hnone)]
      refine ⟨by rw [hcs], hactive, hds.trans hjacks, hbrake, hstands _ rfl (.refl _), fun hclash c hc => ?_⟩
      exact madeParked_steady.queued (mem_waiting_report (b := .os) (s := jacksOff (jacksRead up down s)) hclash hc)
    · obtain ⟨r, hr⟩ := Option.isSome_iff_exists.mp hroute
      have hp'' := hpending.trans hp'
      have hlatched : (madeParked .completed a (jacksOff (jacksRead up down s))).cs.latch = s.cs.latch := by rw [hcs] <;> rfl
      have hparked : (madeParked .completed a (jacksOff (jacksRead up down s))).cs.state = .parked := by rw [hcs]
      cases hlatch : s.cs.latch with
      | some x =>
        rw [promote_of_latched hp'' (by rw [hlatched, hlatch]; rfl)]
        exact ⟨rfl, fun _ => ⟨hparked, hstands _ rfl (.of_eq rfl), rfl⟩, fun h => (nomatch h)⟩
      | none =>
        obtain ⟨hgone, hout⟩ := promote_of_parked hp'' hparked (by
            rw [hds]
            show jackPosOf up down ≠ .up
            rw [hp]
            exact JackPos.noConfusion) (hlatched.trans hlatch)
          fun e => by rw [hends]; exact endRec_leftOrder_isSome (s := jacksOff (jacksRead up down s)) hspan ha hr e
        refine ⟨hgone, fun h => (nomatch h), fun _ => ?_⟩
        rcases hout with hfault | hstarted | ⟨hbad, haway⟩
        · exact .inl hfault
        · exact .inr (.inl hstarted)
        · rw [haway]
          obtain ⟨hcs', hds', hpu', hown', -, hactive'⟩ := turnedAway_parts p (madeParked .completed a (jacksOff (jacksRead up down s)))
          refine .inr (.inr ⟨?_, by rw [hcs', hparked], hactive', (hds'.trans hds).trans hjacks, hstands _ hown' (turnedAway_framesStay _ _)⟩)
          rw [← hbad]
          exact firstLegOk_congr (by rw [hpu']) (by rw [hpu'])
  · rw [← hpos] at hp
    have hundocked := exec_undocked (up := up) (down := down) hkind hu hp
    obtain ⟨hds, hos, hstate, hbrake⟩ := leaveUndocking_parts (s := jacksRead up down s) hu
    have hunmarked : undockDone (jacksRead up down s) = leaveUndocking (jacksRead up down s) :=
      if_neg fun h => Bool.false_ne_true (hmark.symm.trans h)
    exact ⟨_, hundocked.trans (next_congr hunmarked), hds.trans hjacks, hos, hstate, hbrake⟩
  · intro a hmark ha hnone hspan
    rw [← hpos] at hp
    have hne : (jacksOff (jacksRead up down s)).cs.state ≠ .ready := by
      show s.cs.state ≠ _
      rw [hu]
      exact CarState.noConfusion
    have hundocked := exec_undocked (up := up) (down := down) hkind hu hp
    have hended : undockDone (jacksRead up down s) = readied .stopped true a (jacksOff (jacksRead up down s)) :=
      (if_pos hmark).trans (endOrder_readied (s := jacksOff (jacksRead up down s)) ha hne hnone)
    have h := blank_readied (out := .stopped) (ahead := true) (a := a) hne
    obtain ⟨hcs, hds, -, hactive, -⟩ := endedReady_parts true (jacksOff (jacksRead up down s))
    refine ⟨_, hundocked.trans (next_congr hended), by rw [ds_of_blank h, hds, hjacks], by rw [cs_of_blank h, hcs],
      by rw [os_of_blank h, hactive], fun before after o hown hnodup _ ho => ⟨?_, fun hclash => ?_⟩, fun hclash c hc => ?_⟩
    · exact readied_ahead_own (s := jacksOff (jacksRead up down s)) hown hnodup ho hne hspan
    · exact readied_ahead_releases (s := jacksOff (jacksRead up down s)) hown hnodup ho hne hspan hclash
    · refine queued_of_mem_waiting (b := .os) ?_
      rw [waiting_readied (s := jacksOff (jacksRead up down s)) hclash hc]
      exact List.mem_append_right _ List.mem_cons_self
  · rw [hoff]
    refine hrun ((jacksMoved_fault (s := jacksRead up down s) hf).trans (if_pos ?_))
    rw [← hpos] at h
    exact (motionDone_iff _ _).mpr h
  · rw [← hread]
    refine hrun ((jacksMoved_fault (s := jacksRead up down s) hf).trans (if_neg ?_))
    rw [motionDone_iff]
    rintro (⟨hc, -⟩ | ⟨hc, -⟩)
    · cases h.symm.trans hc
    · cases h.symm.trans hc
  · rw [hdock, h] <;> rfl
  · rw [hundock, h] <;> rfl
  · obtain ⟨hstate, hcode, hds⟩ := jackFault_first .dockTimeout hf
    exact ⟨_, hdock.trans (next_congr (if_pos h)), hstate, hcode, by rw [hds] <;> rfl, by rw [hds] <;> rfl⟩
  · obtain ⟨hstate, hcode, hds⟩ := jackFault_first .undockTimeout hf
    exact ⟨_, hundock.trans (next_congr (if_pos h)), hstate, hcode, by rw [hds] <;> rfl, by rw [hds] <;> rfl⟩
  · exact ⟨fun h => ⟨_, hdock.trans (next_congr (if_pos h)), jackFault_further .dockTimeout rfl rfl hf hrec⟩,
      fun h => ⟨_, hundock.trans (next_congr (if_pos h)), jackFault_further .undockTimeout rfl rfl hf hrec⟩⟩

end Sys2Proof.Machine
end

section
/-! O26: CLEAR-FAULT on a carriage node (R176, R78, R71). -/

namespace Sys2Proof.Machine

open Sys2Proof

section
variable {s : State}

/-! ## PARKED and UNLOCATED entered -/

theorem blank_enterParked (h : s.cs.state ≠ .parked) : ∃ f, blank (enterParked s) = blank (entered .parked (s.setCe
    { s.ce with own := standingAt (headPos s).1 s.ce.own, firmEnd := f })) := by
  obtain ⟨f, hf⟩ := blank_makeStanding_eq s
  have hne : CarState.parked ≠ (makeStanding s).cs.state := by
    rw [cs_of_blank hf]
    exact fun heq => h heq.symm
  exact ⟨f, (blank_enterState hne).trans (blank_entered hf)⟩

/-- The state with no position and an empty occupied-leg memory (R12, R115). -/
def stripped (s : State) : State :=
  (s.setPu { s.pu with known := false, endA := none, endB := none, route := none, readA := none, readB := none,
                       lastCorrection := 0, deferral := none, padRead := none, held := none }).setOs
    { s.os with memory := [] }

/-- The state with no position and no claims. -/
def unplaced (f : Option Mm) (s : State) : State := stripped (s.setCe { s.ce with own := [], firmEnd := f })

theorem stripped_cs (s : State) : (stripped s).cs = s.cs := rfl

theorem enterUnlocated_eq (s : State) :
    enterUnlocated s = enterState .unlocated (stripped (releaseOwn (s.ce.own.map OwnClaim.seg) s)) := rfl

theorem blank_enterUnlocated (h : s.cs.state ≠ .unlocated) :
    ∃ f, blank (enterUnlocated s) = blank (entered .unlocated (unplaced f s)) := by
  obtain ⟨f, hf⟩ := blank_releaseOwn_eq (s.ce.own.map OwnClaim.seg) s
  have hnone : s.ce.own.filter (fun e => decide (e.seg ∉ s.ce.own.map OwnClaim.seg)) = [] :=
    List.filter_eq_nil_iff.mpr fun e he hn => of_decide_eq_true hn (List.mem_map_of_mem he)
  rw [hnone] at hf
  refine ⟨f, ?_⟩
  rw [enterUnlocated_eq]
  generalize releaseOwn (s.ce.own.map OwnClaim.seg) s = u at hf
  have hstate : u.cs.state = s.cs.state := (congrArg Supervisor.state (cs_of_blank hf)).trans rfl
  have hne : CarState.unlocated ≠ (stripped u).cs.state := by
    rw [stripped_cs, hstate]
    exact h.symm
  exact (blank_enterState hne).trans (blank_entered (blank_congr (F := stripped) (fun _ => rfl) hf))

/-! ## The tests -/

theorem exec_clearFault_carriage {src : Addr} (hfront : atFront src .clearFault s = true) (hkind : s.tli.kind = .carriage) :
    exec (.clearFault src) s = .next (takeClearFault (taken s)) := by
  show execClearFault src s = _
  rw [execClearFault, onKind_of_eq _ hkind, deliver_of_atFront _ hfront rfl]

theorem takeClearFault_of_state (h : s.cs.fault = none ∨ s.cs.state ≠ .fault ∨ s.tli.clash = true) :
    takeClearFault s = report .cs .clearFault (.refused .state) 0 s := by
  unfold takeClearFault
  cases hf : s.cs.fault with
  | none => rfl
  | some f => exact if_pos (h.resolve_left (by simp [hf]))

section
variable {f : FaultRec} (hf : s.cs.fault = some f) (hstate : s.cs.state = .fault) (hclash : s.tli.clash = false)
include hf hstate hclash

theorem takeClearFault_eq : takeClearFault s =
    if !s.pu.standstill then report .cs .clearFault (.refused .notStandstill) 0 s
    else if s.cs.eStop || s.cs.driveFault then report .cs .clearFault (.refused .stillPresent) 0 s
    else clearFault f s := by
  have hopen : ¬ (s.cs.state ≠ .fault ∨ s.tli.clash = true) := by simp [hstate, hclash]
  unfold takeClearFault
  rw [hf]
  exact if_neg hopen

end

/-! ## The clearing -/

/-- The jacks off and the REPORT queued: nothing else changes. -/
theorem blank_accepted (s : State) : blank (jacksOff (report .cs .clearFault .accepted 0 s)) = blank (jacksOff s) :=
  blank_congr (F := jacksOff) (fun _ => rfl) (blank_report ..)

theorem blank_forgetFault {s t : State} (h : blank s = blank t) : blank (forgetFault s) = blank (forgetFault t) :=
  blank_congr (F := forgetFault) (fun _ => rfl) h

/-- What a positional clearing leaves (R176, R78). -/
theorem clearFault_positional {f : FaultRec} (hpos : f.positional = true) (hstate : s.cs.state = .fault) :
    ∃ m, blank (clearFault f s) = blank (entered .unlocated (unplaced m (forgetFault (jacksOff s)))) := by
  have hblank := blank_forgetFault (blank_accepted s)
  obtain ⟨m, hm⟩ := blank_enterUnlocated (s := forgetFault (jacksOff (report .cs .clearFault .accepted 0 s)))
    (by rw [cs_of_blank hblank]; show s.cs.state ≠ _; rw [hstate]; exact CarState.noConfusion)
  refine ⟨m, ?_⟩
  unfold clearFault
  dsimp only
  rw [if_pos hpos, hm]
  exact blank_entered (blank_congr (F := unplaced m) (fun _ => rfl) hblank)

/-- The entries a clearing keeps: a clash entry goes, unless it is occupied (R78). -/
def keptClaims (s : State) : List OwnClaim :=
  s.ce.own.filter (fun e => !(decide (e.seg ∈ s.ce.clashMem.map Prod.snd) && decide (e.seg ∉ occupied s)))

/-- The record cleared and the clash entries gone. -/
def clashless (m : Option Mm) (s : State) : State :=
  forgetFault ((jacksOff s).setCe { s.ce with own := keptClaims s, firmEnd := m })

theorem occupied_of_blank {s t : State} (h : blank s = blank t) : occupied s = occupied t := by
  have hs : occupied (blank s) = occupied s := rfl
  have ht : occupied (blank t) = occupied t := rfl
  rw [← hs, h, ht]

/-- The state a clearing that keeps the position chooses from. -/
def recordCleared (s : State) : State :=
  forgetFault (releaseOwn ((clashSegs (jacksOff (report .cs .clearFault .accepted 0 s))).filter
    (fun g => decide (g ∉ occupied (jacksOff (report .cs .clearFault .accepted 0 s)))))
      (jacksOff (report .cs .clearFault .accepted 0 s)))

theorem clearFault_eq {f : FaultRec} (hpos : f.positional = false) : clearFault f s =
    if (recordCleared s).ds.pos = .up then enterState .ready (recordCleared s) else enterParked (recordCleared s) :=
  if_neg (by rw [hpos]; exact Bool.false_ne_true)

theorem blank_recordCleared (s : State) : ∃ m, blank (recordCleared s) = blank (clashless m s) := by
  unfold recordCleared
  have h := blank_accepted s
  have hgone : (clashSegs (jacksOff (report .cs .clearFault .accepted 0 s))).filter
      (fun g => decide (g ∉ occupied (jacksOff (report .cs .clearFault .accepted 0 s)))) =
        (clashSegs s).filter (fun g => decide (g ∉ occupied s)) := by
    have hmem : clashSegs (jacksOff (report .cs .clearFault .accepted 0 s)) = clashSegs s := by
      unfold clashSegs
      rw [ce_of_blank h] <;> rfl
    rw [hmem, occupied_of_blank h] <;> rfl
  rw [hgone]
  obtain ⟨m, hm⟩ := blank_releaseOwn_eq ((clashSegs s).filter (fun g => decide (g ∉ occupied s)))
    (jacksOff (report .cs .clearFault .accepted 0 s))
  have hkept : (jacksOff (report .cs .clearFault .accepted 0 s)).ce.own.filter
      (fun e => decide (e.seg ∉ (clashSegs s).filter (fun g => decide (g ∉ occupied s)))) = keptClaims s := by
    rw [own_of_blank h]
    refine List.filter_congr fun e _ => ?_
    have hmem : e.seg ∈ (clashSegs s).filter (fun g => decide (g ∉ occupied s)) ↔
        e.seg ∈ s.ce.clashMem.map Prod.snd ∧ e.seg ∉ occupied s := by
      rw [List.mem_filter, decide_eq_true_iff] <;> rfl
    rw [← Bool.decide_and, ← decide_not]
    exact decide_eq_decide.mpr (not_congr hmem)
  rw [hkept] at hm
  exact ⟨m, blank_forgetFault (hm.trans (blank_congr (F := fun u => u.setCe { u.ce with own := keptClaims s, firmEnd := m })
    (fun _ => rfl) h))⟩

/-- What a clearing that keeps the position leaves with the jacks up. -/
theorem clearFault_ready {f : FaultRec} (hpos : f.positional = false) (hstate : s.cs.state = .fault) (hup : s.ds.pos = .up) :
    ∃ m, blank (clearFault f s) = blank (entered .ready (clashless m s)) := by
  obtain ⟨m, hm⟩ := blank_recordCleared s
  have hread : (recordCleared s).ds.pos = .up := by rw [ds_of_blank hm]; exact hup
  have hne : (recordCleared s).cs.state ≠ .ready := by
    rw [cs_of_blank hm]
    show s.cs.state ≠ _
    rw [hstate]
    exact CarState.noConfusion
  refine ⟨m, ?_⟩
  rw [clearFault_eq hpos, if_pos hread, blank_enterState hne.symm]
  exact blank_entered hm

theorem headPos_clashless (m : Option Mm) (s : State) : headPos (clashless m s) = headPos s := rfl

/-- What a clearing that keeps the position leaves elsewhere: the carriage parked. -/
theorem clearFault_parked {f : FaultRec} (hpos : f.positional = false) (hstate : s.cs.state = .fault) (hup : s.ds.pos ≠ .up) :
    (∃ m n, blank (clearFault f s) = blank (entered .parked ((clashless m s).setCe
      { (clashless m s).ce with own := standingAt (headPos s).1 (keptClaims s), firmEnd := n }))) ∧
    (s.tli.clash = false → s.os.active = none → (∃ e ∈ keptClaims s, e.seg = (headPos s).1 ∧ e.st ≠ .standing) →
      queued (.claim 3 (cfg s).refresh
        (((standingAt (headPos s).1 (keptClaims s)).filter (fun e => decide (e.seg = (headPos s).1))).map itemOf))
        (clearFault f s)) := by
  obtain ⟨m, hm⟩ := blank_recordCleared s
  have hread : (recordCleared s).ds.pos ≠ .up := by rw [ds_of_blank hm]; exact hup
  have hne : (recordCleared s).cs.state ≠ .parked := by
    rw [cs_of_blank hm]
    show s.cs.state ≠ _
    rw [hstate]
    exact CarState.noConfusion
  have hown : (recordCleared s).ce.own = keptClaims s := (own_of_blank hm).trans rfl
  have hhead : headPos (recordCleared s) = headPos s := (headPos_of_blank hm).trans (headPos_clashless m s)
  rw [clearFault_eq hpos, if_neg hread]
  constructor
  · obtain ⟨n, hn⟩ := blank_enterParked hne
    refine ⟨m, n, ?_⟩
    rw [hn, hown, hhead]
    exact blank_entered (blank_congr (F := fun u => u.setCe
      { u.ce with own := standingAt (headPos s).1 (keptClaims s), firmEnd := n }) (fun _ => rfl) hm)
  · intro hclash hnone hex
    have hmem := enterParked_claim (s := recordCleared s) ((clash_of_blank hm).trans hclash) (by rw [hown, hhead]; exact hex)
    have hcfg : cfg (recordCleared s) = cfg s := by unfold cfg; rw [cs_of_blank hm] <;> rfl
    rw [claimClass_of_none (by rw [os_of_blank hm]; exact hnone), hcfg, hown, hhead] at hmem
    exact queued_of_mem hmem

end

/-- The entries of the segment under the head, STANDING, as the CLAIM lists them. -/
theorem standingAt_filter (g : Seg) (own : List OwnClaim) :
    ((standingAt g own).filter (fun e => decide (e.seg = g))).map itemOf =
      (own.filter (fun e => decide (e.seg = g))).map
        (fun e => itemOf (if e.seg = g then { e with st := .standing } else e)) := by
  have hseg (e : OwnClaim) : (if e.seg = g then { e with st := .standing } else e).seg = e.seg := by split <;> rfl
  rw [standingAt, List.filter_map, List.map_map]
  congr 2
  funext e
  exact congrArg (fun h => decide (h = g)) (hseg e)

/-- Settles O26: the tests in their order, and the three states a clearing leaves. -/
theorem clearFaultTaken : Obligations.ClearFaultTaken := by
  intro src s hfront hkind refuse kept head standing
  have hexec := exec_clearFault_carriage hfront hkind
  refine ⟨fun h => hexec.trans (next_congr (takeClearFault_of_state (s := taken s) h)), fun f hf hstate hclash => ?_⟩
  have htake := hexec.trans (next_congr (takeClearFault_eq (s := taken s) hf hstate hclash))
  refine ⟨fun hmoving => htake.trans (next_congr (if_pos ?_)), fun hstill hinput => htake.trans (next_congr ?_),
    fun hstill hstop hdrive => ⟨clearFault f (taken s), htake.trans (next_congr ?_), ?_⟩⟩
  · rw [show (taken s).pu.standstill = false from hmoving] <;> rfl
  · refine (if_neg (by rw [show (taken s).pu.standstill = true from hstill]; exact Bool.false_ne_true)).trans (if_pos ?_)
    rcases hinput with h | h
    · rw [show (taken s).cs.eStop = true from h] <;> rfl
    · rw [show (taken s).cs.driveFault = true from h, Bool.or_true]
  · refine (if_neg (by rw [show (taken s).pu.standstill = true from hstill]; exact Bool.false_ne_true)).trans (if_neg ?_)
    rw [show (taken s).cs.eStop = false from hstop, show (taken s).cs.driveFault = false from hdrive]
    exact Bool.false_ne_true
  · have hshape (u v : State) (st : CarState) (h : blank u = blank (entered st v)) (hcs : v.cs = { s.cs with fault := none })
        (hds : v.ds = (jacksOff s).ds) (hmem : v.ce.clashMem = [] ∧ v.ce.lostMem = []) :
        u.cs.fault = none ∧ u.cs.latch = s.cs.latch ∧ u.ds.cmd = .off ∧ u.ds.dockTimer = none ∧ u.ds.undockTimer = none ∧
        u.ce.clashMem = [] ∧ u.ce.lostMem = [] := by
      have hsup : u.cs = { v.cs with state := st, stopCond := if st = .stopping then v.cs.stopCond else none } := cs_of_blank h
      have hjack : u.ds = v.ds := (ds_of_blank h).trans rfl
      rw [hsup, hjack, ce_of_blank h, hcs, hds]
      exact ⟨rfl, rfl, rfl, rfl, rfl, hmem.1, hmem.2⟩
    have hclashless (m : Option Mm) : (clashless m (taken s)).cs = { s.cs with fault := none } ∧
        (clashless m (taken s)).ds = (jacksOff s).ds := ⟨rfl, rfl⟩
    have hkept : keptClaims (taken s) = kept := rfl
    cases hpos : f.positional with
    | true =>
      obtain ⟨m, hm⟩ := clearFault_positional (s := taken s) hpos hstate
      obtain ⟨h1, h2, h3, h4, h5, h6, h7⟩ := hshape _ _ _ hm rfl rfl ⟨rfl, rfl⟩
      refine ⟨h1, h2, h3, h4, h5, h6, h7, fun _ => ⟨?_, ?_, ?_, ?_, ?_⟩, fun h => (nomatch h), fun h => (nomatch h)⟩
      · rw [cs_of_blank hm] <;> rfl
      · rw [pu_of_blank hm] <;> rfl
      · rw [own_of_blank hm] <;> rfl
      · rw [os_of_blank hm] <;> rfl
      · rw [eu_of_blank hm] <;> rfl
    | false =>
      by_cases hup : s.ds.pos = .up
      · obtain ⟨m, hm⟩ := clearFault_ready (s := taken s) hpos hstate hup
        obtain ⟨h1, h2, h3, h4, h5, h6, h7⟩ := hshape _ _ _ hm rfl rfl ⟨rfl, rfl⟩
        refine ⟨h1, h2, h3, h4, h5, h6, h7, fun h => (nomatch h), fun _ _ => ⟨?_, ?_, ?_⟩, fun _ h => absurd hup h⟩
        · rw [cs_of_blank hm] <;> rfl
        · rw [eu_of_blank hm] <;> rfl
        · rw [own_of_blank hm] <;> rfl
      · obtain ⟨⟨m, n, hm⟩, hqueued⟩ := clearFault_parked (s := taken s) hpos hstate hup
        obtain ⟨h1, h2, h3, h4, h5, h6, h7⟩ := hshape _ _ _ hm rfl rfl ⟨rfl, rfl⟩
        refine ⟨h1, h2, h3, h4, h5, h6, h7, fun h => (nomatch h), fun _ h => absurd h hup, fun _ _ => ⟨?_, ?_, ?_, fun hnone hex => ?_⟩⟩
        · rw [cs_of_blank hm] <;> rfl
        · rw [eu_of_blank hm] <;> rfl
        · rw [own_of_blank hm] <;> rfl
        · have h := hqueued hclash hnone hex
          rw [standingAt_filter] at h
          exact h

end Sys2Proof.Machine
end

section
/-! Locations: the records refused, the end records a good one gives, and the clamped commissioning record (R117, R118, R195,
R196). -/

namespace Sys2Proof.Machine

open Sys2Proof

/-! ## The records refused -/

theorem segOk_eq_false_iff (g : Nat) : segOk g = false ↔ g = 0 ∨ 1023 < g := by
  unfold segOk
  rw [Bool.and_eq_false_iff, decide_eq_false_iff_not, decide_eq_false_iff_not]
  show ¬ 1 ≤ g ∨ ¬ g ≤ 1023 ↔ g = 0 ∨ 1023 < g
  omega

theorem beyond_eq_false_iff (dir : Dir) (o base : Mm) :
    beyond dir o base = false ↔ (dir = .up ∧ o ≤ base) ∨ (dir = .down ∧ base ≤ o) := by
  cases dir <;> simp [beyond]

theorem apart_eq_natAbs (a b : Nat) : apart a b = ((a : Int) - b).natAbs := by
  show (a - b) + (b - a) = _
  omega

theorem badLocation_pad {c : CommRec} {jacks : JackPos} {id : Nat} {g : Seg} {u : Mm} {dir : Dir} {e : End} :
    badLocation c jacks (.pad id g u dir e) = true ↔
      (g = 0 ∨ 1023 < g) ∨ id = 0 ∨ jacks = .up ∨ (dir = .up ∧ u < c.length) := by
  have h : badLocation c jacks (.pad id g u dir e) =
      (!(segOk g && true) || (decide (id = 0) || decide (jacks = .up) || (decide (dir = .up) && decide (u < c.length)))) := rfl
  rw [h, ← segOk_eq_false_iff]
  cases segOk g <;> simp [or_assoc]

/-- A TRACK record of one segment, but for its segments' range. -/
def badTrack (c : CommRec) (jacks : JackPos) (ahead : Bool) (span : Mm) : Bool :=
  decide (jacks ≠ .up) || !ahead || decide (c.tol < apart span c.length)

theorem badTrack_iff {c : CommRec} {jacks : JackPos} {dir : Dir} {u base span : Mm} :
    badTrack c jacks (beyond dir u base) span = true ↔
      jacks ≠ .up ∨ ((dir = .up ∧ u ≤ base) ∨ (dir = .down ∧ base ≤ u)) ∨ (c.tol : Int) < ((span : Int) - c.length).natAbs := by
  rw [← beyond_eq_false_iff, badTrack, apart_eq_natAbs, Bool.or_eq_true, Bool.or_eq_true, decide_eq_true_iff,
    decide_eq_true_iff, Bool.not_eq_true', or_assoc, Nat.cast_lt]

section
variable {c : CommRec} {jacks : JackPos} {e : End} {dir : Dir} {g h : Seg} {u v jh jt : Mm}

theorem badLocation_one : badLocation c jacks (.track e g u dir g v none) =
    (!(segOk g && (segOk g && true)) || badTrack c jacks (beyond dir u v) (apart u v)) := by
  unfold badLocation badTrack
  simp [locSegs, normalLoc, trackSpan]

theorem badLocation_unjoined (hne : g ≠ h) : badLocation c jacks (.track e g u dir h v none) = true := by
  unfold badLocation
  simp [locSegs, normalLoc, hne]

theorem badLocation_joined (hne : g ≠ h) (hoff : v ≠ jt) : badLocation c jacks (.track e g u dir h v (some (jh, jt))) =
    (!(segOk g && (segOk h && true)) || badTrack c jacks (beyond dir u jh) (apart u jh + apart jt v)) := by
  unfold badLocation badTrack
  simp [locSegs, normalLoc, trackSpan, hne, hoff]

theorem badLocation_at_joint (hne : g ≠ h) : badLocation c jacks (.track e g u dir h jt (some (jh, jt))) =
    (!segOk h || badLocation c jacks (.track e g u dir g jh none)) := by
  rw [badLocation_one]
  unfold badLocation badTrack
  simp [locSegs, normalLoc, trackSpan, hne.symm]
  cases segOk g <;> cases segOk h <;> simp

end

/-- Which records are refused BAD_LOCATION (R117, R196). -/
theorem badLocation_cases (c : CommRec) (jacks : JackPos) (e : End) (dir : Dir) (id : Nat) (g h : Seg) (u v jh jt : Mm) :
    let apart (n : Int) : Prop := (c.tol : Int) < (n - c.length).natAbs
    let behind (a b : Mm) : Prop := (dir = .up ∧ a ≤ b) ∨ (dir = .down ∧ b ≤ a)
    let outside (k : Seg) : Prop := k = 0 ∨ 1023 < k
    badLocation c jacks .none = false ∧
    (badLocation c jacks (.pad id g u dir e) = true ↔
      outside g ∨ id = 0 ∨ jacks = .up ∨ (dir = .up ∧ u < c.length)) ∧
    (badLocation c jacks (.track e g u dir g v none) = true ↔
      outside g ∨ jacks ≠ .up ∨ behind u v ∨ apart ((u : Int) - v).natAbs) ∧
    (g ≠ h →
      (badLocation c jacks (.track e g u dir h v none) = true) ∧
      (v ≠ jt → (badLocation c jacks (.track e g u dir h v (some (jh, jt))) = true ↔
        outside g ∨ outside h ∨ jacks ≠ .up ∨ behind u jh ∨
          apart (((u : Int) - jh).natAbs + ((jt : Int) - v).natAbs))) ∧
      badLocation c jacks (.track e g u dir h jt (some (jh, jt))) =
        (!segOk h || badLocation c jacks (.track e g u dir g jh none))) := by
  intro far behind outside
  have hsum : ((Machine.apart u jh + Machine.apart jt v : Nat) : Int) = ((u : Int) - jh).natAbs + ((jt : Int) - v).natAbs := by
    rw [apart_eq_natAbs, apart_eq_natAbs, Nat.cast_add]
  refine ⟨rfl, badLocation_pad, ?_, fun hne => ⟨badLocation_unjoined hne, fun hoff => ?_, badLocation_at_joint hne⟩⟩
  · rw [badLocation_one, Bool.or_eq_true, badTrack_iff, apart_eq_natAbs]
    refine or_congr ?_ Iff.rfl
    show _ ↔ g = 0 ∨ 1023 < g
    rw [← segOk_eq_false_iff]
    cases segOk g <;> simp
  · rw [badLocation_joined hne hoff, Bool.or_eq_true, badTrack_iff, hsum, ← or_assoc (a := outside g)]
    refine or_congr ?_ Iff.rfl
    show _ ↔ (g = 0 ∨ 1023 < g) ∨ (h = 0 ∨ 1023 < h)
    rw [← segOk_eq_false_iff, ← segOk_eq_false_iff]
    cases segOk g <;> cases segOk h <;> simp

/-! ## The end records -/

/-- What a good record holds (R118). -/
theorem heldOf_cases (c : CommRec) (e : End) (dir : Dir) (id : Nat) (g h : Seg) (u v jh jt : Mm) :
    let ends (l : LocRec) := (heldOf c l).map (fun k => (k.pad, k.headEnd, match e with
      | .a => (k.a, k.b)
      | .b => (k.b, k.a)))
    let a (d : Dir) : Dir := match e with
      | .a => d
      | .b => flip d
    heldOf c .none = none ∧
    ends (.pad id g u dir e) = some (true, e, ⟨g, u, a dir⟩,
      ⟨g, if dir = .up then u - c.length else u + c.length, a dir⟩) ∧
    ends (.track e g u dir g v none) = some (false, e, ⟨g, u, a dir⟩, ⟨g, v, a dir⟩) ∧
    (g ≠ h → v ≠ jt → ends (.track e g u dir h v (some (jh, jt))) =
      some (false, e, ⟨g, u, a dir⟩, ⟨h, v, a (if v < jt then .up else .down)⟩)) ∧
    (g ≠ h → ends (.track e g u dir h jt (some (jh, jt))) = some (false, e, ⟨g, u, a dir⟩, ⟨g, jh, a dir⟩)) := by
  refine ⟨rfl, ?_, ?_, fun hne hoff => ?_, fun hne => ?_⟩
  · cases e <;> cases dir <;> rfl
  · cases e <;> rfl
  · cases e <;> simp [heldOf, normalLoc, pairEnds, turn, hne, hoff]
  · cases e <;> simp [heldOf, normalLoc, pairEnds, turn, hne.symm]

/-- A PAD record holds both ends on its spur. -/
theorem heldOf_pad_seg {c : CommRec} {l : LocRec} {h : HeldLoc} (hh : heldOf c l = some h) (hpad : h.pad = true) :
    h.a.seg = h.b.seg := by
  unfold heldOf at hh
  cases hl : normalLoc l with
  | none => rw [hl] at hh; cases hh
  | pad id spur off dir facing =>
    rw [hl] at hh
    cases hh
    cases facing <;> rfl
  | track e hs ho sense ts to' j =>
    rw [hl] at hh
    cases hh
    cases hpad

/-! ## The clamped record -/

/-- The nearer bound of a range, or the value within it. -/
def nearBound (lo hi v : Nat) : Nat := if v < lo then lo else if hi < v then hi else v

theorem clampTo_eq {lo hi v : Nat} (h : lo ≤ hi) : clampTo lo hi v = nearBound lo hi v := by
  unfold clampTo nearBound
  split
  · omega
  · split <;> omega

theorem nearBound_mem {lo hi v : Nat} (h : lo ≤ hi) : lo ≤ nearBound lo hi v ∧ nearBound lo hi v ≤ hi := by
  unfold nearBound
  split
  · omega
  · split <;> omega

theorem nearBound_of_mem {lo hi v : Nat} (hlo : lo ≤ v) (hhi : v ≤ hi) : nearBound lo hi v = v := by
  unfold nearBound
  rw [if_neg (by omega), if_neg (by omega)]

theorem nearBound_idem {lo hi v : Nat} (h : lo ≤ hi) : nearBound lo hi (nearBound lo hi v) = nearBound lo hi v :=
  nearBound_of_mem (nearBound_mem h).1 (nearBound_mem h).2

theorem clampTo_of_mem {lo hi v : Nat} (hlo : lo ≤ v) (hhi : v ≤ hi) : clampTo lo hi v = v := by
  rw [clampTo, min_eq_right hhi, max_eq_right hlo]

theorem nearBound_zero (hi v : Nat) : nearBound 0 hi v = min v hi := by
  unfold nearBound
  rw [if_neg (Nat.not_lt_zero v)]
  split <;> omega

theorem clampPeriod_eq (v : Nat) : clampPeriod v = if v = 0 then 0 else nearBound 100 4095 v := by
  unfold clampPeriod
  rw [clampTo_eq (by decide)]

theorem clampResume_eq (hold v : Nat) : clampResume hold v =
    if v ≤ hold then min (hold + 2000) 100000 else if 100000 < v then 100000 else v := by
  show (if v ≤ hold then min (hold + 2000) 100000 else min v 100000) = _
  split
  · rfl
  · split <;> omega

/-- Every field within its range. -/
structure Ranged (c : CommRec) : Prop where
  length : 4000 ≤ c.length ∧ c.length ≤ 40000
  decel : 50 ≤ c.decel ∧ c.decel ≤ 800
  accel : c.accel ≤ 3
  ceiling : 100 ≤ c.ceiling ∧ c.ceiling ≤ 3000
  gust : 50 ≤ c.gust ∧ c.gust ≤ c.ceiling
  margin : 500 ≤ c.margin ∧ c.margin ≤ 5000
  tol : 50 ≤ c.tol ∧ c.tol ≤ 1000
  dockTol : 5 ≤ c.dockTol ∧ c.dockTol ≤ 50
  scale : 1 ≤ c.scale ∧ c.scale ≤ 65535
  refresh : 200 ≤ c.refresh ∧ c.refresh ≤ 1000
  posPeriod : c.posPeriod = 0 ∨ 100 ≤ c.posPeriod ∧ c.posPeriod ≤ 4095
  standoff : 5000 ≤ c.standoff ∧ c.standoff ≤ 50000
  hold : c.standoff ≤ c.hold ∧ c.hold ≤ 98000
  resume : c.hold < c.resume ∧ c.resume ≤ 100000
  dockSec : 5 ≤ c.dockSec ∧ c.dockSec ≤ 60
  undockSec : 5 ≤ c.undockSec ∧ c.undockSec ≤ 60

theorem clampTo_mem {lo hi v : Nat} (h : lo ≤ hi) : lo ≤ clampTo lo hi v ∧ clampTo lo hi v ≤ hi := by
  rw [clampTo_eq h]
  exact nearBound_mem h

theorem clampPeriod_mem (v : Nat) : clampPeriod v = 0 ∨ 100 ≤ clampPeriod v ∧ clampPeriod v ≤ 4095 := by
  unfold clampPeriod
  split
  · exact .inl rfl
  · exact .inr (clampTo_mem (by decide))

theorem clampResume_mem {hold : Nat} (h : hold ≤ 98000) (v : Nat) : hold < clampResume hold v ∧ clampResume hold v ≤ 100000 := by
  rw [clampResume_eq]
  show hold < (if v ≤ hold then min (hold + 2000) 100000 else if 100000 < v then 100000 else v) ∧
    (if v ≤ hold then min (hold + 2000) 100000 else if 100000 < v then 100000 else v) ≤ 100000
  split
  · omega
  · split <;> omega

theorem clampComm_ranged (r : CommRec) : Ranged (clampComm r) :=
  have hceiling : 100 ≤ (clampComm r).ceiling ∧ (clampComm r).ceiling ≤ 3000 := clampTo_mem (by decide)
  have hstandoff : 5000 ≤ (clampComm r).standoff ∧ (clampComm r).standoff ≤ 50000 := clampTo_mem (by decide)
  have hhold : (clampComm r).standoff ≤ (clampComm r).hold ∧ (clampComm r).hold ≤ 98000 :=
    clampTo_mem (le_trans hstandoff.2 (by decide))
  { length := clampTo_mem (by decide)
    decel := clampTo_mem (by decide)
    accel := Nat.min_le_right ..
    ceiling := hceiling
    gust := clampTo_mem (le_trans (by decide) hceiling.1)
    margin := clampTo_mem (by decide)
    tol := clampTo_mem (by decide)
    dockTol := clampTo_mem (by decide)
    scale := clampTo_mem (by decide)
    refresh := clampTo_mem (by decide)
    posPeriod := clampPeriod_mem _
    standoff := hstandoff
    hold := hhold
    resume := clampResume_mem hhold.2 _
    dockSec := clampTo_mem (by decide)
    undockSec := clampTo_mem (by decide) }

/-- A record within its ranges is kept. -/
theorem Ranged.clampComm {c : CommRec} (h : Ranged c) : Machine.clampComm c = c := by
  have hperiod : clampPeriod c.posPeriod = c.posPeriod := by
    rcases h.posPeriod with h | h
    · rw [h] <;> rfl
    · exact (if_neg (by rintro heq; rw [heq] at h; exact absurd h.1 (by decide))).trans (clampTo_of_mem h.1 h.2)
  have hresume : clampResume c.hold c.resume = c.resume := by
    rw [clampResume_eq, if_neg (not_le.mpr h.resume.1), if_neg (not_lt.mpr h.resume.2)]
  unfold Machine.clampComm
  dsimp only
  rw [clampTo_of_mem h.length.1 h.length.2, clampTo_of_mem h.decel.1 h.decel.2, min_eq_left h.accel,
    clampTo_of_mem h.ceiling.1 h.ceiling.2, clampTo_of_mem h.gust.1 h.gust.2, clampTo_of_mem h.margin.1 h.margin.2,
    clampTo_of_mem h.tol.1 h.tol.2, clampTo_of_mem h.dockTol.1 h.dockTol.2, clampTo_of_mem h.scale.1 h.scale.2,
    clampTo_of_mem h.refresh.1 h.refresh.2, hperiod, clampTo_of_mem h.standoff.1 h.standoff.2,
    clampTo_of_mem h.hold.1 h.hold.2, hresume, clampTo_of_mem h.dockSec.1 h.dockSec.2,
    clampTo_of_mem h.undockSec.1 h.undockSec.2]

end Sys2Proof.Machine
end

section
/-! A location held is taken (R75, R118, R177). -/

namespace Sys2Proof.Machine

open Sys2Proof

/-- The state with the end records of a location and none held. -/
def placed (h : HeldLoc) (s : State) : State :=
  s.setPu { s.pu with known := true, endA := some h.a, endB := some h.b, route := none, readA := none, readB := none,
                      stillDist := 0, held := none, noticeHead := some h.headEnd }

/-- The state in which the carriage stands at a location. -/
def locatedState (h : HeldLoc) : CarState := if h.pad then .parked else .ready

/-- The location of its head. -/
def HeldLoc.head (h : HeldLoc) : EndRec :=
  match h.headEnd with
  | .a => h.a
  | .b => h.b

/-- The location of its tail. -/
def HeldLoc.tail (h : HeldLoc) : EndRec :=
  match h.headEnd with
  | .a => h.b
  | .b => h.a

/-- No live firm claim of the view stands on the segments a location claims (R75). -/
def Unclaimed (h : HeldLoc) (s : State) : Prop :=
  ∀ o ∈ locatedClaims h, ∀ e ∈ s.ov.claims, e.seg = o.seg → e.stale = true ∨ firmState e.st = false

section
variable {h : HeldLoc} {s : State}

/-- The entry a location gives for an end. -/
def locatedClaim (h : HeldLoc) (st : ClaimState) (e : EndRec) : OwnClaim :=
  { leg := .none, seg := e.seg, dir := turn h.headEnd e.aSense, st := st, convoy := false, points := none }

theorem locatedClaims_eq (h : HeldLoc) : locatedClaims h =
    if h.pad then [locatedClaim h .standing (HeldLoc.head h)]
    else if (HeldLoc.tail h).seg = (HeldLoc.head h).seg then [locatedClaim h .firm (HeldLoc.head h)]
    else [locatedClaim h .firm (HeldLoc.tail h), locatedClaim h .firm (HeldLoc.head h)] := rfl

theorem ends_of_head_tail (h : HeldLoc) :
    (HeldLoc.head h = h.a ∧ HeldLoc.tail h = h.b) ∨ (HeldLoc.head h = h.b ∧ HeldLoc.tail h = h.a) := by
  unfold HeldLoc.head HeldLoc.tail
  cases h.headEnd
  · exact .inl ⟨rfl, rfl⟩
  · exact .inr ⟨rfl, rfl⟩

theorem mem_locatedClaims {e : OwnClaim} (he : e ∈ locatedClaims h) :
    e.st = (if h.pad then .standing else .firm) ∧ e.convoy = false ∧ e.points = none ∧ e.leg = .none ∧
    (e.seg = h.a.seg ∨ e.seg = h.b.seg) := by
  have hends : ∀ x, x = HeldLoc.head h ∨ x = HeldLoc.tail h → x.seg = h.a.seg ∨ x.seg = h.b.seg := by
    rintro x (rfl | rfl)
    · rcases ends_of_head_tail h with ⟨hx, -⟩ | ⟨hx, -⟩ <;> rw [hx] <;> simp
    · rcases ends_of_head_tail h with ⟨-, hx⟩ | ⟨-, hx⟩ <;> rw [hx] <;> simp
  rw [locatedClaims_eq] at he
  split at he
  · next hpad =>
    obtain rfl := List.mem_singleton.mp he
    exact ⟨(if_pos hpad).symm, rfl, rfl, rfl, hends _ (.inl rfl)⟩
  · next hpad =>
    have hfirm : ClaimState.firm = (if h.pad = true then .standing else .firm) := (if_neg hpad).symm
    split at he
    · obtain rfl := List.mem_singleton.mp he
      exact ⟨hfirm, rfl, rfl, rfl, hends _ (.inl rfl)⟩
    · rcases List.mem_cons.mp he with rfl | he
      · exact ⟨hfirm, rfl, rfl, rfl, hends _ (.inr rfl)⟩
      · obtain rfl := List.mem_singleton.mp he
        exact ⟨hfirm, rfl, rfl, rfl, hends _ (.inl rfl)⟩

/-- The entries run from the tail's segment on, each in the head's direction (R75). -/
theorem locatedClaims_map (hpad : h.pad = true → h.a.seg = h.b.seg) : (locatedClaims h).map (fun e => (e.seg, e.dir)) =
    (if (HeldLoc.tail h).seg = (HeldLoc.head h).seg then [] else [((HeldLoc.tail h).seg, turn h.headEnd (HeldLoc.tail h).aSense)]) ++
      [((HeldLoc.head h).seg, turn h.headEnd (HeldLoc.head h).aSense)] := by
  rw [locatedClaims_eq]
  by_cases hp : h.pad = true
  · have hsame : (HeldLoc.tail h).seg = (HeldLoc.head h).seg := by
      rcases ends_of_head_tail h with ⟨hx, hy⟩ | ⟨hx, hy⟩ <;> rw [hx, hy, hpad hp]
    rw [if_pos hp, if_pos hsame] <;> rfl
  · rw [if_neg hp]
    split <;> rfl

/-! ## Taking it -/

/-- Those segments are at most those of the two ends. -/
theorem unclaimed_of_ends
    (hfree : ∀ e ∈ s.ov.claims, e.stale = true ∨ firmState e.st = false ∨ (e.seg ≠ h.a.seg ∧ e.seg ≠ h.b.seg)) :
    Unclaimed h s := by
  intro o ho e he hon
  obtain ⟨-, -, -, -, hseg⟩ := mem_locatedClaims ho
  rcases hfree e he with hst | hst | ⟨ha, hb⟩
  · exact .inl hst
  · exact .inr hst
  · exact (hseg.elim (fun hx => ha (hon.trans hx)) fun hx => hb (hon.trans hx)).elim

theorem clashesOf_of_unclaimed {e : OwnClaim} (hfree : Unclaimed h s) (he : e ∈ locatedClaims h) : clashesOf e s = [] := by
  refine List.filter_eq_nil_iff.mpr fun c hc hclash => ?_
  rw [Bool.and_eq_true, Bool.and_eq_true, Bool.and_eq_true, decide_eq_true_iff] at hclash
  obtain ⟨⟨⟨hon, hfirm⟩, hlive⟩, -⟩ := hclash
  rcases hfree e he c hc hon with hst | hst
  · rw [hst] at hlive
    cases hlive
  · rw [hst] at hfirm
    cases hfirm

/-- With no claim in the way and no input asserted the location is taken whole. -/
theorem takeLocation_of_unclaimed (hstate : s.cs.state = .unlocated) (hfree : Unclaimed h s) (hstop : s.cs.eStop = false)
    (hdrive : s.cs.driveFault = false) :
    blank (takeLocation h s) = blank (entered (locatedState h) (withOwn (locatedClaims h) (placed h s))) ∧
    Steady s (takeLocation h s) := by
  have hset : blank (queueClaim .plain 3 (locatedClaims h) (setOwn (locatedClaims h) (placed h s))) =
      blank (withOwn (locatedClaims h) (placed h s)) := (blank_queueClaim ..).trans (blank_setOwn ..)
  have hstate' : (queueClaim .plain 3 (locatedClaims h) (setOwn (locatedClaims h) (placed h s))).cs.state = .unlocated := by
    rw [cs_of_blank hset]
    exact hstate
  have hne : locatedState h ≠ (queueClaim .plain 3 (locatedClaims h) (setOwn (locatedClaims h) (placed h s))).cs.state := by
    rw [hstate', locatedState]
    split <;> exact CarState.noConfusion
  have hblank := (blank_enterState hne).trans (blank_entered hset)
  have hsteady : Steady s (enterState (locatedState h) (queueClaim .plain 3 (locatedClaims h) (setOwn (locatedClaims h) (placed h s)))) :=
    (enterState_steady _ _).after ((queueClaim_steady _ _ _ _).after ((setOwn_steady _ _).after (.setPu _ _ rfl)))
  have htake : takeLocation h s = inputFaults ((locatedClaims h).foldl (fun t e =>
      (clashesOf e (enterState (locatedState h) (queueClaim .plain 3 (locatedClaims h) (setOwn (locatedClaims h) (placed h s))))).foldl
        (fun u c => raiseClash c.holder e.seg u) t)
      (enterState (locatedState h) (queueClaim .plain 3 (locatedClaims h) (setOwn (locatedClaims h) (placed h s))))) := rfl
  rw [htake]
  generalize enterState (locatedState h) (queueClaim .plain 3 (locatedClaims h) (setOwn (locatedClaims h) (placed h s))) = u at *
  have hview : u.ov = s.ov := (ov_of_blank hblank).trans rfl
  have hcs : u.cs.eStop = false ∧ u.cs.driveFault = false := by
    rw [cs_of_blank hblank]
    exact ⟨hstop, hdrive⟩
  have hnone : ∀ l : List OwnClaim, (∀ e ∈ l, e ∈ locatedClaims h) → l.foldl (fun t e =>
      (clashesOf e u).foldl (fun u c => raiseClash c.holder e.seg u) t) u = u := by
    intro l hl
    induction l with
    | nil => rfl
    | cons e l ih =>
      have hfree' : Unclaimed h u := by unfold Unclaimed; rw [hview]; exact hfree
      rw [List.foldl_cons, clashesOf_of_unclaimed hfree' (hl e List.mem_cons_self), List.foldl_nil]
      exact ih fun x hx => hl x (List.mem_cons_of_mem _ hx)
  have hquiet : inputFaults u = u := by
    unfold inputFaults
    rw [hcs.1, if_neg Bool.false_ne_true]
    exact if_neg (by rw [hcs.2]; exact Bool.false_ne_true)
  rw [hnone _ fun _ he => he, hquiet]
  exact ⟨hblank, hsteady⟩

/-- What a location taken leaves. -/
theorem takeLocation_parts (hstate : s.cs.state = .unlocated) (hfree : Unclaimed h s) (hstop : s.cs.eStop = false)
    (hdrive : s.cs.driveFault = false) :
    let t := takeLocation h s
    t.cs = { s.cs with state := locatedState h, stopCond := none } ∧ (t.pu.known = true ∧ t.pu.endA = some h.a ∧
    t.pu.endB = some h.b ∧ t.pu.held = none ∧ t.pu.noticeHead = some h.headEnd ∧ t.pu.stillDist = 0) ∧
    t.ce.own = locatedClaims h ∧ t.os = s.os ∧ t.eu.brake = .service ∧ t.eu.demand = 0 ∧ t.ov = s.ov := by
  obtain ⟨hblank, -⟩ := takeLocation_of_unclaimed hstate hfree hstop hdrive
  intro t
  have hstand (b : BrakeMode) : movingState (locatedState h) = false ∧ entryBrake (locatedState h) b = .service ∧
      driftState (locatedState h) = true ∧ locatedState h ≠ .stopping := by
    unfold locatedState
    split <;> exact ⟨rfl, rfl, rfl, CarState.noConfusion⟩
  have hpu := pu_of_blank hblank
  have hsup : t.cs = { s.cs with state := locatedState h,
                                 stopCond := if locatedState h = .stopping then s.cs.stopCond else none } := cs_of_blank hblank
  have hbrake : t.eu.brake = entryBrake (locatedState h) s.eu.brake := congrArg Envelope.brake (eu_of_blank hblank)
  have hdemand : t.eu.demand = if movingState (locatedState h) then s.eu.demand else 0 :=
    congrArg Envelope.demand (eu_of_blank hblank)
  have hstill : t.pu.stillDist = if driftState (locatedState h) then 0 else (placed h s).pu.stillDist :=
    congrArg PosUnit.stillDist hpu
  obtain ⟨hmoving, hservice, hdrift, hnot⟩ := hstand s.eu.brake
  rw [if_neg hnot] at hsup
  rw [hmoving, if_neg Bool.false_ne_true] at hdemand
  rw [hdrift, if_pos rfl] at hstill
  refine ⟨hsup, ⟨?_, ?_, ?_, ?_, ?_, hstill⟩, own_of_blank hblank, (os_of_blank hblank).trans rfl, hbrake.trans hservice, hdemand,
    (ov_of_blank hblank).trans rfl⟩
  · exact (congrArg PosUnit.known hpu).trans rfl
  · exact (congrArg PosUnit.endA hpu).trans rfl
  · exact (congrArg PosUnit.endB hpu).trans rfl
  · exact (congrArg PosUnit.held hpu).trans rfl
  · exact (congrArg PosUnit.noticeHead hpu).trans rfl

theorem tryLocate_of_held (hheld : s.pu.held = some h) (hstate : s.cs.state = .unlocated) (hlisten : s.ov.listen = none)
    (hsilent : s.tli.silent = false) : tryLocate s = takeLocation h s := by
  unfold tryLocate
  rw [hheld]
  exact if_pos ⟨hstate, by rw [hlisten]; rfl, hsilent⟩

theorem tryLocate_of_waiting (hwait : s.ov.listen.isSome = true ∨ s.tli.silent = true ∨ s.pu.held = none) : tryLocate s = s := by
  unfold tryLocate
  cases hheld : s.pu.held with
  | none => rfl
  | some h =>
    refine if_neg ?_
    rintro ⟨-, hlisten, hsilent⟩
    rcases hwait with hw | hw | hw
    · rw [Option.isNone_iff_eq_none.mp hlisten] at hw
      cases hw
    · rw [hsilent] at hw
      cases hw
    · rw [hheld] at hw
      cases hw

end

end Sys2Proof.Machine
end

section
/-! O24: LOCATE. -/

namespace Sys2Proof.Machine

open Sys2Proof

section
variable {s : State} {src : Addr} {l : LocRec}

/-! ## LOCATE -/

theorem exec_locate_carriage (hfront : atFront src (.locate l) s = true) (hkind : s.tli.kind = .carriage) :
    exec (.locate src l) s = .next (takeLocate l (taken s)) := by
  show execLocate src l s = _
  rw [execLocate, deliver_of_atFront _ hfront rfl]
  refine next_congr ?_
  rw [show (taken s).tli.kind = .carriage from hkind]

theorem exec_locate_points (hfront : atFront src (.locate l) s = true) (hkind : s.tli.kind = .points) :
    exec (.locate src l) s = .next (wrongKind .locate (taken s)) := by
  show execLocate src l s = _
  rw [execLocate, deliver_of_atFront _ hfront rfl]
  refine next_congr ?_
  rw [show (taken s).tli.kind = .points from hkind]

/-- The location held, its LOCATE accepted. -/
def locateHeld (l : LocRec) (s : State) : State :=
  ((report .cs .locate .accepted 0 s).setPu { s.pu with held := heldOf (cfg s) l }).setOs { s.os with memory := [] }

theorem takeLocate_accepted (hstate : s.cs.state = .unlocated) (hstill : s.pu.standstill = true)
    (hgood : badLocation (cfg s) s.ds.pos l = false) : takeLocate l s = tryLocate (locateHeld l s) := by
  have hcfg : cfg (report .cs .locate .accepted 0 s) = cfg s := by unfold cfg; rw [report_cs]
  unfold takeLocate
  refine (if_neg (not_not_intro hstate)).trans ((if_neg (by rw [hstill]; exact Bool.false_ne_true)).trans
    ((if_neg (by rw [hgood]; exact Bool.false_ne_true)).trans ?_))
  dsimp only
  rw [hcfg, report_pu, State.setPu_os, report_os] <;> rfl

/-- What the location held leaves as it was. -/
theorem locateHeld_parts (l : LocRec) (s : State) : (locateHeld l s).cs = s.cs ∧ (locateHeld l s).ov = s.ov ∧
    (locateHeld l s).pu.held = heldOf (cfg s) l ∧ (locateHeld l s).tli.silent = s.tli.silent ∧
    (locateHeld l s).os.memory = [] :=
  ⟨report_cs .., report_ov .., rfl, (report_steady .cs .locate .accepted 0 s).silent, rfl⟩

end

/-- Settles O24: the records refused, the ends of a good one, and LOCATE by its tests in order. -/
theorem locateTaken : Obligations.LocateTaken := by
  refine ⟨badLocation_cases, heldOf_cases, fun src l s hfront => ⟨exec_locate_points hfront, fun hkind => ?_⟩⟩
  have hexec := exec_locate_carriage hfront hkind
  refine ⟨fun hstate => ?_, fun hstate hmoving => ?_, fun hstate hstill hbad => ?_, fun hstate hstill hgood => ?_⟩
  · exact hexec.trans (next_congr (if_pos hstate))
  · exact hexec.trans (next_congr ((if_neg (not_not_intro hstate)).trans
      (if_pos (by rw [show (taken s).pu.standstill = false from hmoving]; rfl))))
  · exact hexec.trans (next_congr ((if_neg (not_not_intro hstate)).trans
      ((if_neg (by rw [show (taken s).pu.standstill = true from hstill]; exact Bool.false_ne_true)).trans (if_pos hbad))))
  · rw [takeLocate_accepted (s := taken s) hstate hstill hgood] at hexec
    obtain ⟨hcs, hov, hheld, hsilent, hmemory⟩ := locateHeld_parts l (taken s)
    refine ⟨fun hwait => hexec.trans (next_congr (tryLocate_of_waiting ?_)), ?_⟩
    · rw [hov, hsilent, hheld]
      exact hwait
    · intro h hlisten hquiet hl hstop hdrive hfree head tail
      have htry := tryLocate_of_held (hheld.trans hl) (by rw [hcs]; exact hstate) (by rw [hov]; exact hlisten)
        (hsilent.trans hquiet)
      obtain ⟨hcs', ⟨hknown, hendA, hendB, hnone, hnotice, hdist⟩, hown, hos, hbrake, hdemand, hov'⟩ :=
        takeLocation_parts (s := locateHeld l (taken s)) (h := h) (by rw [hcs]; exact hstate)
          (unclaimed_of_ends (by rw [hov]; exact hfree)) (by rw [hcs]; exact hstop) (by rw [hcs]; exact hdrive)
      rw [hcs] at hcs'
      refine ⟨_, hexec.trans (next_congr htry), by rw [hcs'] <;> rfl, hknown, hendA, hendB, hnone, hnotice, hdist, hown,
        (congrArg OrderStore.memory hos).trans hmemory, hbrake, hdemand, hov'.trans hov, by rw [hcs'] <;> rfl, ?_, fun e he => ?_⟩
      · rw [hown]
        exact locatedClaims_map (heldOf_pad_seg hl)
      · rw [hown] at he
        obtain ⟨hst, hconvoy, hpoints, hleg, -⟩ := mem_locatedClaims he
        exact ⟨hst, hconvoy, hpoints, hleg⟩

end Sys2Proof.Machine
end

section
/-! O25: COMMISSION of a carriage. -/

namespace Sys2Proof.Machine

open Sys2Proof

section
variable {s : State} {src : Addr} {r : CommRec} {l : LocRec}

theorem exec_commission_carriage (hfront : atFront src (.commission r l) s = true) (hkind : s.tli.kind = .carriage) :
    exec (.commission src r l) s = .next (takeCommission src r l (taken s)) := by
  show execCommission src r l s = _
  rw [execCommission, deliver_of_atFront _ hfront (by simp [fits, hkind]), onKind_of_eq _ (by simpa using hkind)]

/-! ## A countdown just restarted is not disturbed by the frames queued -/

theorem settleRefresh_zero (h : s.ce.refresh = some 0) : (settleRefresh s).ce.refresh = some 0 := by
  unfold settleRefresh
  split
  · rfl
  · exact h

theorem report_zero (b : Block) (u : Subject) (out : ReportOutcome) (n : Nat) (h : s.ce.refresh = some 0) :
    (report b u out n s).ce.refresh = some 0 := by
  unfold report
  split
  · exact h
  · exact settleRefresh_zero (s := s.setTli _) h

theorem queuePosition_zero (h : s.ce.refresh = some 0) : (queuePosition s).ce.refresh = some 0 := by
  unfold queuePosition
  split
  · exact h
  · exact settleRefresh_zero (s := s.setTli _) h

theorem enterState_zero (st : CarState) (h : s.ce.refresh = some 0) : (enterState st s).ce.refresh = some 0 := by
  unfold enterState
  split
  · exact h
  · refine queuePosition_zero ?_
    cases st <;> exact h

/-! ## A record taken -/

/-- The state with the record kept, its sender the console, the location held and the refresh countdown started. -/
def recorded (src : Addr) (r : CommRec) (l : LocRec) (s : State) : State :=
  ((s.setCs { s.cs with comm := some (clampComm r), console := some src }).setPu
    { s.pu with held := heldOf (clampComm r) l }).setCe { s.ce with refresh := some 0 }

/-- The outcome the REPORT names. -/
def commOutcome (r : CommRec) : ReportOutcome := if clampComm r = r then .accepted else .clamped (commMarks r)

/-- The carriage commissioned, before a location is tried. -/
def recordTaken (src : Addr) (r : CommRec) (l : LocRec) (s : State) : State :=
  enterState .unlocated (report .cs .commission (commOutcome r) 0 (recorded src r l s))

theorem takeCommission_accepted (hstate : s.cs.state = .uncommissioned)
    (hgood : badLocation (clampComm r) s.ds.pos l = false) :
    takeCommission src r l s = tryLocate (recordTaken src r l s) := by
  unfold takeCommission
  rw [if_neg (not_not_intro hstate), if_neg (by rw [hgood]; exact Bool.false_ne_true)] <;> rfl

theorem blank_recordTaken (hstate : s.cs.state = .uncommissioned) :
    blank (recordTaken src r l s) = blank (entered .unlocated (recorded src r l s)) :=
  (blank_enterState (by rw [report_cs]; show CarState.unlocated ≠ s.cs.state; rw [hstate]; exact CarState.noConfusion)).trans
    (blank_entered (blank_report ..))

theorem recordTaken_steady (src : Addr) (r : CommRec) (l : LocRec) (s : State) :
    Steady (recorded src r l s) (recordTaken src r l s) :=
  (enterState_steady _ _).after (report_steady ..)

theorem recordTaken_zero (src : Addr) (r : CommRec) (l : LocRec) (s : State) : (recordTaken src r l s).ce.refresh = some 0 := by
  unfold recordTaken
  exact enterState_zero _ (report_zero _ _ _ _ (s := recorded src r l s) rfl)

/-- What the record taken leaves. -/
theorem recordTaken_parts (hstate : s.cs.state = .uncommissioned) :
    let t := recordTaken src r l s
    t.cs = { s.cs with comm := some (clampComm r), console := some src, state := .unlocated, stopCond := none } ∧
    (t.pu.held = heldOf (clampComm r) l ∧ t.pu.known = s.pu.known) ∧ t.ce.refresh = some 0 ∧ t.eu.demand = 0 ∧
    t.eu.brake = .emergency ∧ t.os = s.os ∧ t.ov = s.ov ∧ t.tli.silent = s.tli.silent := by
  intro t
  have hblank : blank t = blank (entered .unlocated (recorded src r l s)) := blank_recordTaken hstate
  have hsilent : t.tli.silent = (recorded src r l s).tli.silent := (recordTaken_steady src r l s).silent
  have hzero : t.ce.refresh = some 0 := recordTaken_zero src r l s
  have hov : (entered .unlocated (recorded src r l s)).ov = s.ov := by simp [entered, recorded]
  generalize t = u at *
  refine ⟨(cs_of_blank hblank).trans rfl, ⟨?_, ?_⟩, hzero, ?_, ?_,
    (os_of_blank hblank).trans rfl, (ov_of_blank hblank).trans hov, hsilent⟩
  · exact (congrArg PosUnit.held (pu_of_blank hblank)).trans rfl
  · exact (congrArg PosUnit.known (pu_of_blank hblank)).trans rfl
  · exact (congrArg Envelope.demand (eu_of_blank hblank)).trans rfl
  · exact (congrArg Envelope.brake (eu_of_blank hblank)).trans rfl

/-- Its REPORT waits. -/
theorem recordTaken_reported (hkind : s.tli.kind = .carriage) (hclash : s.tli.clash = false) :
    Frame.report src { subject := .commission, outcome := commOutcome r, oid := 0 } ∈
      waiting .cs (recordTaken src r l s).tli :=
  (enterState_steady _ _).waits .cs _ (mem_waiting_report (s := recorded src r l s) hclash
    (by show console (recorded src r l s) = some src; unfold console; rw [show (recorded src r l s).tli.kind = .carriage from hkind] <;> rfl))

end

/-- Settles O25: COMMISSION by its tests, and the record clamped field by field. -/
theorem commissionTaken : Obligations.CommissionTaken := by
  refine ⟨fun src r l s hfront hkind => ?_, fun r => ?_⟩
  · have hexec := exec_commission_carriage hfront hkind
    refine ⟨fun hstate => hexec.trans (next_congr (if_pos hstate)), fun hstate hbad => ?_, fun hstate hgood => ?_⟩
    · exact hexec.trans (next_congr ((if_neg (not_not_intro hstate)).trans (if_pos hbad)))
    · have hexec := hexec.trans (next_congr (takeCommission_accepted hstate hgood))
      obtain ⟨hcs, ⟨hheld, hknown⟩, hrefresh, hdemand, hbrake, hos, hov, hsilent⟩ :=
        recordTaken_parts (src := src) (r := r) (l := l) (s := taken s) hstate
      have hreported := fun hclash => recordTaken_reported (src := src) (r := r) (l := l) (s := taken s) hkind hclash
      intro reported
      refine ⟨fun hwait => ?_, fun h hlisten hquiet hl hstop hdrive hfree => ?_⟩
      · refine ⟨_, hexec.trans (next_congr (tryLocate_of_waiting ?_)), by rw [hcs], by rw [hcs], by rw [hcs], hheld, hknown,
          hrefresh, hdemand, hbrake, hos, hov, by rw [hcs] <;> rfl, fun hclash => queued_of_mem_waiting (hreported hclash)⟩
        rw [hov, hsilent, hheld]
        exact hwait
      · have hstate' : (recordTaken src r l (taken s)).cs.state = .unlocated := by rw [hcs]
        have hfree' : Unclaimed h (recordTaken src r l (taken s)) := unclaimed_of_ends (by rw [hov]; exact hfree)
        have hstop' : (recordTaken src r l (taken s)).cs.eStop = false := by rw [hcs]; exact hstop
        have hdrive' : (recordTaken src r l (taken s)).cs.driveFault = false := by rw [hcs]; exact hdrive
        have htry := tryLocate_of_held (hheld.trans hl) hstate' (by rw [hov]; exact hlisten) (hsilent.trans hquiet)
        obtain ⟨hcs', ⟨hknown', hendA, hendB, hnone, -, -⟩, hown, -, hbrake', -, -⟩ :=
          takeLocation_parts hstate' hfree' hstop' hdrive'
        obtain ⟨-, hsteady⟩ := takeLocation_of_unclaimed hstate' hfree' hstop' hdrive'
        rw [hcs] at hcs'
        exact ⟨_, hexec.trans (next_congr htry), by rw [hcs'], by rw [hcs'], by rw [hcs'] <;> rfl, hknown', hendA, hendB, hnone,
          hown, hbrake', by rw [hcs'] <;> rfl, fun hclash => hsteady.queued (hreported hclash)⟩
  · intro c near
    have hranged := clampComm_ranged r
    refine ⟨⟨clampTo_eq (by decide), clampTo_eq (by decide), (nearBound_zero 3 r.accel).symm, clampTo_eq (by decide),
        clampTo_eq (le_trans (by decide) hranged.ceiling.1), clampTo_eq (by decide), clampTo_eq (by decide), clampTo_eq (by decide),
        clampTo_eq (by decide), clampTo_eq (by decide), clampPeriod_eq _, clampTo_eq (by decide),
        clampTo_eq (le_trans hranged.standoff.2 (by decide)), clampResume_eq _ _, clampTo_eq (by decide), clampTo_eq (by decide)⟩,
      ⟨hranged.gust.1, hranged.gust.2, hranged.hold.1, hranged.resume.1, hranged.resume.2⟩, hranged.clampComm⟩

end Sys2Proof.Machine
end

section
/-! What STATION-RESET does after its REPORT keeps the frame that is being sent and the REPORT that goes first (R189, R198);
the complete refresh it queues (R68, R79). -/

namespace Sys2Proof.Machine

open Sys2Proof

/-! ## The pinned frames through the carriage's operations -/

/-- From one state to the next the pinned frames stay. -/
def PinsStay (s t : State) : Prop := Pinned s.tli t.tli

namespace PinsStay

theorem of_eq {s t : State} (h : t.tli = s.tli) : PinsStay s t := Pinned.of_eq h

theorem refl (s : State) : PinsStay s s := .of_eq rfl

theorem after {s t u : State} (h' : PinsStay t u) (h : PinsStay s t) : PinsStay s u := Pinned.trans h h'

theorem ite {c : Prop} [Decidable c] {s t u : State} (ht : c → PinsStay s t) (hu : ¬ c → PinsStay s u) :
    PinsStay s (if c then t else u) := by
  split
  case isTrue h => exact ht h
  case isFalse h => exact hu h

theorem foldl {α : Type} (f : State → α → State) (l : List α) (s : State) (h : ∀ t a, PinsStay t (f t a)) :
    PinsStay s (l.foldl f s) := by
  induction l generalizing s with
  | nil => exact .refl s
  | cons a l ih => exact (ih _).after (h s a)

end PinsStay

theorem offer_pinsStay (b : Block) (p : Bool) (g : TxTag) (f : Frame) (s : State) : PinsStay s (offer b p g f s) :=
  offer_pinned b p g f s

theorem queuePosition_pinsStay (s : State) : PinsStay s (queuePosition s) := by
  unfold queuePosition
  exact .ite (fun _ => .refl s) (fun _ => PinsStay.after (.of_eq rfl) (offer_pinsStay ..))

theorem queueClaim_pinsStay (g : TxTag) (c : Nat) (l : List OwnClaim) (s : State) : PinsStay s (queueClaim g c l s) :=
  .ite (fun _ => .refl s) (fun _ => offer_pinsStay ..)

theorem setOwn_pinsStay (own : List OwnClaim) (s : State) : PinsStay s (setOwn own s) := by
  unfold setOwn
  exact .ite (fun _ => (queuePosition_pinsStay _).after (.of_eq rfl)) (fun _ => .of_eq rfl)

theorem releaseStep_pinsStay (gone named : List Seg) (frees : List Addr) (s : State) :
    PinsStay s (releaseStep gone named frees s) := by
  have hedit (t : State) : PinsStay t (settleRefresh (t.setTli (editClaims gone t.tli))) := by
    unfold PinsStay
    rw [settleRefresh_tli]
    exact editClaims_pinned gone t.tli
  unfold releaseStep
  exact (PinsStay.foldl _ _ _ fun _ _ => offer_pinsStay ..).after ((PinsStay.foldl _ _ _ fun _ _ => offer_pinsStay ..).after
    ((hedit _).after (setOwn_pinsStay _ s)))

theorem releaseOwn_pinsStay (gone : List Seg) (s : State) : PinsStay s (releaseOwn gone s) :=
  .ite (fun _ => .refl s) (fun _ => releaseStep_pinsStay ..)

theorem endSpan_pinsStay (more : List Seg) (s : State) : PinsStay s (endSpan more s) := by
  unfold endSpan
  split
  · exact releaseOwn_pinsStay _ s
  · refine PinsStay.after (t := setNextClaim _ _) (.of_eq rfl) ?_
    rw [setNextClaim_eq]
    exact PinsStay.after (.of_eq rfl) ((releaseStep_pinsStay _ _ _ _).after (withdrawSpanFrames_pinned _ _))

theorem orderLeaves_pinsStay (s : State) : PinsStay s (orderLeaves s) := by
  rw [orderLeaves_eq]
  exact PinsStay.after (.of_eq rfl) (endSpan_pinsStay [] s)

theorem enterState_pinsStay (st : CarState) (s : State) : PinsStay s (enterState st s) := by
  unfold enterState
  refine .ite (fun _ => .refl s) (fun _ => (queuePosition_pinsStay _).after (.of_eq ?_))
  cases st <;> rfl

theorem enterParked_pinsStay (s : State) : PinsStay s (enterParked s) := by
  refine (enterState_pinsStay _ _).after ?_
  exact .ite (fun _ => (queueClaim_pinsStay ..).after (setOwn_pinsStay ..)) (fun _ => .refl s)

theorem enterUnlocated_pinsStay (s : State) : PinsStay s (enterUnlocated s) := by
  rw [enterUnlocated_eq]
  exact (enterState_pinsStay _ _).after (PinsStay.after (.of_eq rfl) (releaseOwn_pinsStay ..))

/-! ## A complete refresh (R68) -/

/-- The frames of a refresh. -/
def refreshFrames (groups : List (List OwnClaim)) (cls : Nat) (period : Ms) (s : State) : State :=
  groups.foldl (fun t g => offer .ce true .refresh (.claim cls period (g.map itemOf)) t) s

theorem refreshNow_eq (s : State) : refreshNow s =
    if (chunk4 (refreshEntries s)).isEmpty then s.setCe { s.ce with refresh := some 0, refreshOut := false }
    else
      let t := refreshFrames (chunk4 (refreshEntries s)) (claimClass s) (cfg s).refresh
        (s.setCe { s.ce with refresh := none, refreshOut := false })
      settleRefresh (t.setCe { t.ce with refreshOut := true }) := rfl

theorem blank_refreshFrames (groups : List (List OwnClaim)) (cls : Nat) (period : Ms) (s : State) :
    blank (refreshFrames groups cls period s) = blank s := by
  induction groups generalizing s with
  | nil => rfl
  | cons g groups ih => exact (ih _).trans (blank_offer ..)

theorem blank_refreshNow (s : State) : blank (refreshNow s) = blank s := by
  rw [refreshNow_eq]
  split
  · exact blank_refresh ..
  · dsimp only
    rw [blank_settleRefresh]
    exact (blank_congr (F := fun u => u.setCe { u.ce with refreshOut := true }) (fun _ => rfl) (blank_refreshFrames ..)).trans
      (blank_refresh none true s)

/-- The entry of a frame of a refresh. -/
def refreshEntry (cls : Nat) (period : Ms) (g : List OwnClaim) : TxEntry :=
  { frame := .claim cls period (g.map itemOf), block := .ce, periodic := true, tag := .refresh, sending := false, cut := [],
    withdrawn := false }

theorem offer_refresh_line (cls : Nat) (period : Ms) (g : List OwnClaim) (s : State) :
    (offer .ce true .refresh (.claim cls period (g.map itemOf)) s).tli =
      if s.tli.clash then s.tli
      else if s.tli.txq.length < 10 then { s.tli with txq := s.tli.txq ++ [refreshEntry cls period g] }
      else { s.tli with counters := s.tli.counters.displace } := by
  rw [offer, settleRefresh_tli, State.setTli_tli]
  unfold offerTli
  split
  · rfl
  · exact offerPlain_periodic rfl

/-- While there is room every frame of a refresh joins. -/
theorem refreshFrames_txq (groups : List (List OwnClaim)) (cls : Nat) (period : Ms) (s : State) (hclash : s.tli.clash = false)
    (hroom : s.tli.txq.length + groups.length ≤ 10) :
    (refreshFrames groups cls period s).tli.txq = s.tli.txq ++ groups.map (refreshEntry cls period) := by
  induction groups generalizing s with
  | nil => exact (List.append_nil _).symm
  | cons g groups ih =>
    rw [List.length_cons] at hroom
    have hline := offer_refresh_line cls period g s
    rw [if_neg (by rw [hclash]; exact Bool.false_ne_true), if_pos (by omega)] at hline
    have hstep := ih (offer .ce true .refresh (.claim cls period (g.map itemOf)) s) (by rw [hline]; exact hclash)
      (by rw [hline, List.length_append, List.length_singleton]; omega)
    rw [hline, List.append_assoc] at hstep
    exact hstep

/-- While no frames of a refresh are awaited, further frames leave its countdown alone. -/
theorem refreshFrames_none (groups : List (List OwnClaim)) (cls : Nat) (period : Ms) (s : State)
    (hrefresh : s.ce.refresh = none) (hout : s.ce.refreshOut = false) :
    (refreshFrames groups cls period s).ce.refresh = none ∧ (refreshFrames groups cls period s).ce.refreshOut = false := by
  induction groups generalizing s with
  | nil => exact ⟨hrefresh, hout⟩
  | cons g groups ih =>
    have hce : (offer .ce true .refresh (.claim cls period (g.map itemOf)) s).ce = s.ce := by
      unfold offer settleRefresh
      rw [State.setTli_ce, hout, Bool.false_and, if_neg Bool.false_ne_true] <;> rfl
    exact ih _ (by rw [hce]; exact hrefresh) (by rw [hce]; exact hout)

theorem offer_refresh_framesStay (cls : Nat) (period : Ms) (g : List OwnClaim) (s : State) :
    FramesStay s (offer .ce true .refresh (.claim cls period (g.map itemOf)) s) := by
  intro k hk _ _
  rw [offer_refresh_line]
  split
  · exact hk
  · split
    · rcases List.mem_append.mp hk with h | h
      · exact List.mem_append_left _ (List.mem_append_left _ h)
      · exact List.mem_append_right _ h
    · exact hk

theorem refreshNow_framesStay (s : State) : FramesStay s (refreshNow s) := by
  rw [refreshNow_eq]
  refine .ite (fun _ => .of_eq rfl) (fun _ => ?_)
  have hframes (groups : List (List OwnClaim)) (cls : Nat) (period : Ms) (u : State) :
      FramesStay u (refreshFrames groups cls period u) := by
    induction groups generalizing u with
    | nil => exact .refl u
    | cons g groups ih => exact (ih _).after (offer_refresh_framesStay _ _ _ _)
  exact FramesStay.after (.of_eq (settleRefresh_tli _)) (FramesStay.after (.of_eq rfl) ((hframes _ _ _ _).after (.of_eq rfl)))

theorem refreshNow_pinsStay (s : State) : PinsStay s (refreshNow s) := by
  rw [refreshNow_eq]
  refine .ite (fun _ => .of_eq rfl) (fun _ => ?_)
  refine PinsStay.after (.of_eq (settleRefresh_tli _)) (PinsStay.after (.of_eq rfl) ?_)
  exact PinsStay.after (PinsStay.foldl _ _ _ fun _ _ => offer_pinsStay ..) (.of_eq rfl)

end Sys2Proof.Machine
end

section
/-! The carriage node after STATION-RESET, before it chooses its state (R178, R6, R12, R39, R40, R79). -/

namespace Sys2Proof.Machine

open Sys2Proof

section
variable {s t u : State}

/-! ## The orders discarded -/

/-- The segments of the own list that are not occupied. -/
def looseSegs (s : State) : List Seg := (s.ce.own.map OwnClaim.seg).filter (fun g => decide (g ∉ occupied s))

/-- The occupied claims, those of a span in flight apart. -/
def stayingClaims (s : State) : List OwnClaim :=
  s.ce.own.filter (fun e => decide (e.seg ∈ occupied s ∧ e.seg ∉ spanSegs s))

/-- The state without its span and without the claims that are not occupied. -/
def spanCleared (s : State) : State :=
  match s.ce.span with
  | none => releasedOwn (looseSegs s) s
  | some sp => withoutSpan sp (looseSegs s) s

theorem blank_endSpan_loose (s : State) : blank (endSpan (looseSegs s) s) = blank (spanCleared s) := by
  unfold spanCleared
  cases hspan : s.ce.span with
  | none =>
    unfold endSpan
    rw [hspan]
    exact blank_releaseOwn_plain _ s
  | some sp => exact blank_endSpan hspan

theorem filter_loose (l : List Seg) (s : State) (hl : ∀ g, g ∈ l ↔ g ∈ spanSegs s ∨ g ∈ looseSegs s) :
    s.ce.own.filter (fun e => decide (e.seg ∉ l)) = stayingClaims s := by
  refine List.filter_congr fun e he => decide_eq_decide.mpr ?_
  have hloose : e.seg ∈ looseSegs s ↔ e.seg ∉ occupied s := by
    unfold looseSegs
    rw [List.mem_filter, decide_eq_true_iff]
    exact and_iff_right (List.mem_map_of_mem he)
  rw [hl, hloose, not_or, not_not]
  exact and_comm

theorem endPos_withoutSpan (sp : Span) (more : List Seg) (s : State) (e : End) : endPos (withoutSpan sp more s) e = endPos s e := by
  have hactive : (withoutSpan sp more s).os.active = s.os.active.map (fun a => { a with nextClaim := sp.first }) := rfl
  have hpu : (withoutSpan sp more s).pu = s.pu := rfl
  unfold endPos
  rw [hactive, hpu]
  cases s.pu.route with
  | none => cases s.os.active <;> rfl
  | some r => cases s.os.active <;> rfl

theorem headPos_withoutSpan (sp : Span) (more : List Seg) (s : State) : headPos (withoutSpan sp more s) = headPos s := by
  unfold headPos
  rw [endPos_withoutSpan] <;> rfl

/-- What a span cleared leaves. -/
theorem spanCleared_parts (s : State) : (spanCleared s).ce.span = none ∧ (spanCleared s).ce.own = stayingClaims s ∧
    headPos (spanCleared s) = headPos s ∧ (spanCleared s).cs = s.cs ∧ (spanCleared s).ds = s.ds ∧
    (spanCleared s).pu = s.pu ∧ (spanCleared s).tli = s.tli := by
  unfold spanCleared
  cases hspan : s.ce.span with
  | none =>
    obtain ⟨f, hf⟩ := releasedOwn_eq (looseSegs s) s
    have hown := filter_loose (looseSegs s) s fun g => by simp [spanSegs, hspan]
    dsimp only
    rw [hf]
    exact ⟨hspan, hown, rfl, rfl, rfl, rfl, rfl⟩
  | some sp =>
    have hown := filter_loose (spanSegs s ++ looseSegs s) s fun g => List.mem_append
    exact ⟨rfl, hown, headPos_withoutSpan .., rfl, rfl, rfl, rfl⟩

/-- The state with its orders discarded. -/
def discarded (s : State) : State :=
  (leftOrder (spanCleared s)).setOs { (leftOrder (spanCleared s)).os with pending := none }

theorem blank_discardOrders (s : State) : blank (discardOrders s) = blank (discarded s) :=
  blank_congr (F := fun u => u.setOs { u.os with pending := none }) (fun _ => rfl)
    ((blank_orderLeaves_plain _).trans (blank_leftOrder (blank_endSpan_loose s)))

/-! ## The blocks reset -/

/-- The blocks reset, and the supervisor's records gone. -/
def wiped (s : State) : State :=
  (resetBlocks s).setCs { s.cs with watcher := none, fault := none, stopCond := none }

theorem blank_wiped (h : blank s = blank t) : blank (wiped s) = blank (wiped t) := by
  refine blank_congr (F := wiped) (fun v => ?_) h
  rfl

theorem blank_resetReport (b : Block) (s : State) : blank (resetReport b s) = blank (s.setTli (resetTli s.tli)) := by
  cases hcons : console s with
  | none => rw [resetReport_of_no_console hcons]
  | some c =>
    rw [resetReport_of_console hcons]
    exact blank_offer ..

/-- The node as it chooses its state. -/
def resetStart (s : State) : State := wiped (discardOrders (resetReport .cs s))

theorem headPos_congr (hactive : t.os.active = s.os.active) (hcfg : cfg t = cfg s) (hknown : t.pu.known = s.pu.known)
    (hroute : t.pu.route = s.pu.route) (hnotice : t.pu.noticeHead = s.pu.noticeHead) (ha : t.pu.endA = s.pu.endA)
    (hb : t.pu.endB = s.pu.endB) : headPos t = headPos s := by
  unfold headPos noticeEnd endPos endRec routeTail tailCoord
  rw [hactive, hcfg, hknown, hroute, hnotice, ha, hb]

theorem wiped_pu (s : State) : (wiped s).pu =
    { s.pu with lastCorrection := 0, tailMisses := 0, padRead := none, held := none, stillDist := 0,
                deferral := s.pu.deferral.filter (fun g => s.ce.own.any (fun e => decide (e.seg = g))) } := by
  simp [wiped, resetBlocks, resetAttempts, clearConvoy, jacksOff]

theorem wiped_os (s : State) : (wiped s).os = s.os := by
  simp [wiped, resetBlocks, resetAttempts, clearConvoy, jacksOff]

theorem wiped_ds (s : State) : (wiped s).ds = { s.ds with cmd := .off, dockTimer := none, undockTimer := none } := by
  simp [wiped, resetBlocks, resetAttempts, clearConvoy, jacksOff]

theorem wiped_tli (s : State) : (wiped s).tli = s.tli := by
  simp [wiped, resetBlocks, resetAttempts, clearConvoy, jacksOff]

theorem wiped_cs (s : State) : (wiped s).cs = { s.cs with watcher := none, fault := none, stopCond := none } := rfl

theorem wiped_headPos (s : State) : headPos (wiped s) = headPos s := by
  have hcfg : cfg (wiped s) = cfg s := rfl
  have hpu := wiped_pu s
  refine headPos_congr (by rw [wiped_os]) hcfg ?_ ?_ ?_ ?_ ?_ <;> rw [hpu]

/-- What else the reset of the blocks leaves. -/
theorem wiped_parts (s : State) : (wiped s).ce.own = s.ce.own ∧ (wiped s).ce.span = s.ce.span ∧
    (wiped s).ov = { claims := [], viewFull := false, pointsTab := [], posTab := [], listen := some 0 } ∧
    (wiped s).ce.abort = none ∧ (wiped s).ce.abortCount = 0 ∧ (wiped s).ce.attempts = 0 ∧ (wiped s).ce.backoff = none ∧
    (wiped s).eu.demand = 0 ∧ (wiped s).cr.leader = none ∧ (wiped s).cr.hold = false :=
  ⟨rfl, rfl, rfl, rfl, rfl, rfl, rfl, rfl, rfl, rfl⟩

/-- What the orders discarded leave. -/
theorem discarded_parts (s : State) : (discarded s).cs = s.cs ∧ (discarded s).os.active = none ∧ (discarded s).os.pending = none ∧
    (discarded s).pu.known = s.pu.known ∧ (discarded s).ds = s.ds ∧ (discarded s).tli = s.tli ∧
    (discarded s).ce.own = (stayingClaims s).map untied ∧ (discarded s).ce.span = none ∧ headPos (discarded s) = headPos s := by
  obtain ⟨hspan, hown, hhead, hcs, hds, hpu, htli⟩ := spanCleared_parts s
  obtain ⟨hcs', hds', -, hactive, -, -, -, hspan', -, -, hknown', -, hown'⟩ := leftOrder_parts (spanCleared s)
  have htli' : (leftOrder (spanCleared s)).tli = (spanCleared s).tli := by
    obtain ⟨-, -, -, -, -, -, h, -⟩ := spanless_parts (spanCleared s)
    exact h
  have hhead' := headPos_leftOrder hspan
  rw [outsideSpan_of_none hspan, hown] at hown'
  rw [hcs] at hcs'
  rw [hds] at hds'
  rw [hpu] at hknown'
  rw [htli] at htli'
  rw [hhead] at hhead'
  unfold discarded
  generalize leftOrder (spanCleared s) = u at *
  exact ⟨hcs', hactive, rfl, hknown', hds', htli', hown', hspan', hhead'⟩

/-- The plain state the node chooses its state from. -/
def resetBase (s : State) : State := wiped (discarded (resetReport .cs s))

theorem blank_resetStart (s : State) : blank (resetStart s) = blank (resetBase s) := blank_wiped (blank_discardOrders _)

theorem stayingClaims_of_blank (h : blank s = blank t) : stayingClaims s = stayingClaims t := by
  unfold stayingClaims
  rw [own_of_blank h, occupied_of_blank h, spanSegs_of_blank h]

/-- What the node keeps of its state. -/
theorem resetBase_kept (s : State) : (resetBase s).cs = { s.cs with watcher := none, fault := none, stopCond := none } ∧
    (resetBase s).pu.known = s.pu.known ∧ (resetBase s).ds = (jacksOff s).ds ∧
    (resetBase s).ce.own = (stayingClaims s).map untied ∧ headPos (resetBase s) = headPos s ∧
    (resetBase s).tli = (resetReport .cs s).tli := by
  have hblank := blank_resetReport .cs s
  have hcs : (resetReport .cs s).cs = s.cs := (cs_of_blank hblank).trans rfl
  have hds : (resetReport .cs s).ds = s.ds := (ds_of_blank hblank).trans rfl
  have hknown : (resetReport .cs s).pu.known = s.pu.known := (congrArg PosUnit.known (pu_of_blank hblank)).trans rfl
  have hhead : headPos (resetReport .cs s) = headPos s := (headPos_of_blank hblank).trans rfl
  have hstay : stayingClaims (resetReport .cs s) = stayingClaims s := (stayingClaims_of_blank hblank).trans rfl
  obtain ⟨hcs', -, -, hknown', hds', htli', hown', -, hhead'⟩ := discarded_parts (resetReport .cs s)
  rw [hcs] at hcs'
  rw [hknown] at hknown'
  rw [hds] at hds'
  rw [hstay] at hown'
  rw [hhead] at hhead'
  unfold resetBase
  generalize discarded (resetReport .cs s) = u at *
  obtain ⟨hown'', -⟩ := wiped_parts u
  exact ⟨by rw [wiped_cs, hcs'], by rw [wiped_pu, hknown'], by rw [wiped_ds, hds'] <;> rfl, hown''.trans hown',
    (wiped_headPos u).trans hhead', (wiped_tli u).trans htli'⟩

/-- What is gone. -/
theorem resetBase_gone (s : State) : (resetBase s).os.active = none ∧ (resetBase s).os.pending = none ∧
    (resetBase s).ov = { claims := [], viewFull := false, pointsTab := [], posTab := [], listen := some 0 } ∧
    (resetBase s).ce.span = none ∧ (resetBase s).ce.abort = none ∧ (resetBase s).ce.abortCount = 0 ∧
    (resetBase s).ce.attempts = 0 ∧ (resetBase s).ce.backoff = none ∧ (resetBase s).eu.demand = 0 ∧
    (resetBase s).cr.leader = none ∧ (resetBase s).cr.hold = false := by
  obtain ⟨-, hactive, hpending, -, -, -, -, hspan, -⟩ := discarded_parts (resetReport .cs s)
  unfold resetBase
  generalize discarded (resetReport .cs s) = u at *
  have hos := wiped_os u
  obtain ⟨-, hspan', hov, habort, hcount, hattempts, hbackoff, hdemand, hleader, hhold⟩ := wiped_parts u
  exact ⟨by rw [hos, hactive], by rw [hos, hpending], hov, hspan'.trans hspan, habort, hcount, hattempts, hbackoff, hdemand,
    hleader, hhold⟩

end

end Sys2Proof.Machine
end

section
/-! O29: STATION-RESET on a carriage node, the state it chooses and what it queues (R178, R68, R71, R198). -/

namespace Sys2Proof.Machine

open Sys2Proof

section
variable {s t u : State}

/-! ## The state chosen -/

/-- What entering any state after the reset leaves as it was. -/
structure Chosen (u t : State) : Prop where
  cs : ∃ st c, t.cs = { u.cs with state := st, stopCond := c }
  orders : t.os.active = u.os.active ∧ t.os.pending = u.os.pending
  view : t.ov = u.ov
  jacks : t.ds = u.ds
  engine : t.ce.span = u.ce.span ∧ t.ce.abort = u.ce.abort ∧ t.ce.abortCount = u.ce.abortCount ∧
    t.ce.attempts = u.ce.attempts ∧ t.ce.backoff = u.ce.backoff
  demand : u.eu.demand = 0 → t.eu.demand = 0
  convoy : u.cr.leader = none → u.cr.hold = false → t.cr.leader = none ∧ t.cr.hold = false
  line : (blank t).tli = (blank u).tli

namespace Chosen

theorem refl (u : State) : Chosen u u :=
  ⟨⟨_, _, rfl⟩, ⟨rfl, rfl⟩, rfl, rfl, ⟨rfl, rfl, rfl, rfl, rfl⟩, id, fun h h' => ⟨h, h'⟩, rfl⟩

theorem trans {v : State} (h : Chosen u t) (k : Chosen t v) : Chosen u v := by
  obtain ⟨st, c, hcs⟩ := h.cs
  obtain ⟨st', c', hcs'⟩ := k.cs
  obtain ⟨hactive, hpending⟩ := h.orders
  obtain ⟨hactive', hpending'⟩ := k.orders
  obtain ⟨h1, h2, h3, h4, h5⟩ := h.engine
  obtain ⟨k1, k2, k3, k4, k5⟩ := k.engine
  refine ⟨⟨st', c', by rw [hcs', hcs]⟩, ⟨hactive'.trans hactive, hpending'.trans hpending⟩, k.view.trans h.view,
    k.jacks.trans h.jacks, ⟨k1.trans h1, k2.trans h2, k3.trans h3, k4.trans h4, k5.trans h5⟩, fun hd => k.demand (h.demand hd),
    fun hl hh => ?_, k.line.trans h.line⟩
  obtain ⟨hl', hh'⟩ := h.convoy hl hh
  exact k.convoy hl' hh'

theorem of_blank (h : blank t = blank u) : Chosen u t := by
  have hce := ce_of_blank h
  refine ⟨⟨_, _, cs_of_blank h⟩, ?_, ov_of_blank h, ds_of_blank h, ?_, fun hd => ?_, fun hl hh => ?_, congrArg State.tli h⟩
  · rw [os_of_blank h]
    exact ⟨rfl, rfl⟩
  · rw [hce]
    exact ⟨rfl, rfl, rfl, rfl, rfl⟩
  · rw [eu_of_blank h]
    exact hd
  · rw [cr_of_blank h]
    exact ⟨hl, hh⟩

theorem entered (st : CarState) (u : State) : Chosen u (Machine.entered st u) := by
  refine ⟨⟨_, _, rfl⟩, ⟨rfl, rfl⟩, rfl, rfl, ⟨rfl, rfl, rfl, rfl, rfl⟩, fun hd => ?_, fun hl hh => ?_, rfl⟩
  · show (if movingState st then u.eu.demand else 0) = 0
    rw [hd, ite_self]
  · show (if movingState st then u.cr.leader else none) = none ∧ (movingState st && u.cr.hold) = false
    rw [hl, hh, ite_self, Bool.and_false]
    exact ⟨rfl, rfl⟩

theorem enterState (st : CarState) (u : State) : Chosen u (Machine.enterState st u) := by
  by_cases h : st = u.cs.state
  · rw [enterState_of_eq h]
    exact refl u
  · exact (entered st u).trans (of_blank (blank_enterState h))

theorem enterParked (u : State) : Chosen u (Machine.enterParked u) := by
  obtain ⟨f, hf⟩ := blank_makeStanding_eq u
  have hstanding : Chosen u (u.setCe
      { u.ce with own := u.ce.own.map (fun e => if e.seg = (headPos u).1 then { e with st := .standing } else e), firmEnd := f }) :=
    ⟨⟨_, _, rfl⟩, ⟨rfl, rfl⟩, rfl, rfl, ⟨rfl, rfl, rfl, rfl, rfl⟩, id, fun h h' => ⟨h, h'⟩, rfl⟩
  exact (hstanding.trans (of_blank hf)).trans (enterState _ _)

theorem stripped (u : State) : Chosen u (Machine.stripped u) :=
  ⟨⟨_, _, rfl⟩, ⟨rfl, rfl⟩, rfl, rfl, ⟨rfl, rfl, rfl, rfl, rfl⟩, id, fun h h' => ⟨h, h'⟩, rfl⟩

theorem enterUnlocated (u : State) : Chosen u (Machine.enterUnlocated u) := by
  obtain ⟨f, hf⟩ := blank_releaseOwn_eq (u.ce.own.map OwnClaim.seg) u
  have hreleased : Chosen u (u.setCe
      { u.ce with own := u.ce.own.filter (fun e => decide (e.seg ∉ u.ce.own.map OwnClaim.seg)), firmEnd := f }) :=
    ⟨⟨_, _, rfl⟩, ⟨rfl, rfl⟩, rfl, rfl, ⟨rfl, rfl, rfl, rfl, rfl⟩, id, fun h h' => ⟨h, h'⟩, rfl⟩
  rw [enterUnlocated_eq]
  exact ((hreleased.trans (of_blank hf)).trans (stripped _)).trans (enterState _ _)

end Chosen

theorem chooseState_chosen (p : Bool) (u : State) : Chosen u (chooseState p u) := by
  unfold chooseState
  split
  · exact .enterUnlocated u
  · split
    · exact .enterState _ u
    · exact .enterParked u

theorem chooseState_pinsStay (p : Bool) (u : State) : PinsStay u (chooseState p u) :=
  .ite (fun _ => enterUnlocated_pinsStay u) fun _ => .ite (fun _ => enterState_pinsStay _ u) fun _ => enterParked_pinsStay u

theorem enterState_state (st : CarState) (s : State) : (enterState st s).cs.state = st := by
  by_cases h : st = s.cs.state
  · rw [enterState_of_eq h, h]
  · rw [cs_of_blank (blank_enterState h)] <;> rfl

/-- Of the claims and the position entering a state touches neither. -/
theorem enterState_own_known (st : CarState) (s : State) :
    (enterState st s).ce.own = s.ce.own ∧ (enterState st s).pu.known = s.pu.known := by
  by_cases h : st = s.cs.state
  · rw [enterState_of_eq h]
    exact ⟨rfl, rfl⟩
  · have hblank := blank_enterState h
    exact ⟨(own_of_blank hblank).trans rfl, (congrArg PosUnit.known (pu_of_blank hblank)).trans rfl⟩

theorem enterUnlocated_parts (s : State) : (enterUnlocated s).cs.state = .unlocated ∧ (enterUnlocated s).ce.own = [] ∧
    (enterUnlocated s).pu.known = false := by
  have hown : (releaseOwn (s.ce.own.map OwnClaim.seg) s).ce.own = [] := by
    rw [releaseOwn_own]
    exact List.filter_eq_nil_iff.mpr fun e he hn => of_decide_eq_true hn (List.mem_map_of_mem he)
  rw [enterUnlocated_eq]
  obtain ⟨hown', hknown⟩ := enterState_own_known .unlocated (stripped (releaseOwn (s.ce.own.map OwnClaim.seg) s))
  exact ⟨enterState_state .., hown'.trans hown, hknown.trans rfl⟩

theorem enterParked_own_known (s : State) : (enterParked s).ce.own = standingAt (headPos s).1 s.ce.own ∧
    (enterParked s).pu.known = s.pu.known := by
  obtain ⟨f, hf⟩ := blank_makeStanding_eq s
  obtain ⟨hown, hknown⟩ := enterState_own_known .parked (makeStanding s)
  exact ⟨hown.trans ((own_of_blank hf).trans rfl), hknown.trans ((congrArg PosUnit.known (pu_of_blank hf)).trans rfl)⟩

/-! ## What the node announces -/

/-- The complete refresh and the POSITION queued last. -/
def reannounced (s : State) : State := queuePosition (refreshAtReset s)

theorem blank_reannounced (s : State) : blank (reannounced s) = blank s := by
  unfold reannounced
  rw [blank_queuePosition]
  exact (blank_refresh (some 0) (refreshNow s).ce.refreshOut (refreshNow s)).trans (blank_refreshNow s)

theorem reannounced_zero (s : State) : (reannounced s).ce.refresh = some 0 := queuePosition_zero rfl

theorem reannounced_pinsStay (s : State) : PinsStay s (reannounced s) :=
  (queuePosition_pinsStay _).after (PinsStay.after (.of_eq rfl) (refreshNow_pinsStay s))

theorem reannounced_framesStay (s : State) : FramesStay s (reannounced s) :=
  (queuePosition_framesStay _).after (FramesStay.after (.of_eq rfl) (refreshNow_framesStay s))

/-- The state the node chooses, before the announcement. -/
def resetChosen (s : State) : State := chooseState (s.cs.fault.any FaultRec.positional) (resetStart s)

theorem stationReset_eq (s : State) : stationReset s =
    if located (reannounced (resetChosen s)) then inputFaults (reannounced (resetChosen s)) else reannounced (resetChosen s) := rfl

theorem inputFaults_of_quiet (hstop : s.cs.eStop = false) (hdrive : s.cs.driveFault = false) : inputFaults s = s := by
  unfold inputFaults
  rw [hstop, if_neg Bool.false_ne_true]
  exact if_neg (by rw [hdrive]; exact Bool.false_ne_true)

end

end Sys2Proof.Machine
end

section
/-! O29 settled: STATION-RESET on a carriage node. -/

namespace Sys2Proof.Machine

open Sys2Proof

section
variable {s : State}

theorem exec_stationReset_carriage {src : Addr} (hfront : atFront src .stationReset s = true) (hkind : s.tli.kind = .carriage) :
    exec (.stationReset src) s = .next (takeStationReset (taken s)) := by
  show execStationReset src s = _
  rw [execStationReset, onKind_of_eq _ hkind, deliver_of_atFront _ hfront rfl]

/-- The node once the reset is done. -/
def stationWasReset (s : State) : State := reannounced (resetChosen s)

theorem resetChosen_chosen (s : State) : Chosen (resetBase s) (resetChosen s) :=
  (Chosen.of_blank (blank_resetStart s)).trans (chooseState_chosen _ _)

theorem stationWasReset_chosen (s : State) : Chosen (resetBase s) (stationWasReset s) :=
  (resetChosen_chosen s).trans (.of_blank (blank_reannounced _))

theorem resetStart_pinsStay (s : State) : PinsStay (resetReport .cs s) (resetStart s) := by
  unfold resetStart
  refine PinsStay.after (.of_eq (wiped_tli _)) ?_
  exact PinsStay.after (.of_eq rfl) ((orderLeaves_pinsStay _).after (endSpan_pinsStay _ _))

theorem stationWasReset_pinsStay (s : State) : PinsStay (resetReport .cs s) (stationWasReset s) :=
  (reannounced_pinsStay _).after ((chooseState_pinsStay _ _).after (resetStart_pinsStay s))

/-- The line once the reset is done, its queues apart. -/
theorem stationWasReset_line (s : State) :
    (blank (stationWasReset s)).tli = (blank (s.setTli (resetTli s.tli))).tli := by
  have htli : (resetBase s).tli = (resetReport .cs s).tli := (resetBase_kept s).2.2.2.2.2
  have hbase : (blank (resetBase s)).tli = (blank (resetReport .cs s)).tli := by
    generalize resetBase s = u at *
    unfold blank
    simp only [State.setPu_tli, State.setCe_tli, State.setTli_tli, htli]
  exact (stationWasReset_chosen s).line.trans (hbase.trans (congrArg State.tli (blank_resetReport .cs s)))

theorem stationWasReset_cleared (s : State) : let t := (stationWasReset s).tli
    t.clash = false ∧ t.inbound = [] ∧ t.counters.malformed = 0 ∧ t.counters.unacked = 0 ∧ t.counters.overflow = 0 := by
  have h := stationWasReset_line s
  generalize stationWasReset s = u at *
  have hclash : u.tli.clash = false := congrArg Tli.clash h
  have hinbound : u.tli.inbound = [] := congrArg Tli.inbound h
  have hmalformed : u.tli.counters.malformed = 0 := congrArg (fun t => t.counters.malformed) h
  have hunacked : u.tli.counters.unacked = 0 := congrArg (fun t => t.counters.unacked) h
  have hoverflow : u.tli.counters.overflow = 0 := congrArg (fun t => t.counters.overflow) h
  exact ⟨hclash, hinbound, hmalformed, hunacked, hoverflow⟩

theorem stationReset_of_quiet (hstop : s.cs.eStop = false) (hdrive : s.cs.driveFault = false) :
    stationReset s = stationWasReset s := by
  obtain ⟨st, c, hcs⟩ := (stationWasReset_chosen s).cs
  obtain ⟨hcs', -⟩ := resetBase_kept s
  rw [hcs'] at hcs
  rw [stationReset_eq]
  have hquiet : inputFaults (stationWasReset s) = stationWasReset s :=
    inputFaults_of_quiet (by rw [hcs]; exact hstop) (by rw [hcs]; exact hdrive)
  exact (if_congr Iff.rfl hquiet rfl).trans (ite_self _)

/-- The state the node chooses from, as the reset found it. -/
theorem resetStart_parts (s : State) : (resetStart s).pu.known = s.pu.known ∧ (resetStart s).ds.pos = s.ds.pos ∧
    (resetStart s).ce.own = (stayingClaims s).map untied ∧ headPos (resetStart s) = headPos s := by
  have hblank := blank_resetStart s
  obtain ⟨-, hknown, hds, hown, hhead, -⟩ := resetBase_kept s
  refine ⟨?_, ?_, (own_of_blank hblank).trans hown, (headPos_of_blank hblank).trans hhead⟩
  · rw [pu_of_blank hblank, ← hknown]
  · rw [ds_of_blank hblank, hds] <;> rfl

theorem stationWasReset_of_chosen {u : State} (h : resetChosen s = u) : (stationWasReset s).cs = u.cs ∧
    (stationWasReset s).ce.own = u.ce.own ∧ (stationWasReset s).pu.known = u.pu.known := by
  have hblank : blank (stationWasReset s) = blank u := h ▸ blank_reannounced (resetChosen s)
  exact ⟨cs_of_blank hblank, own_of_blank hblank, (congrArg PosUnit.known (pu_of_blank hblank)).trans rfl⟩

/-- A position unknown or marked wrong leaves the carriage UNLOCATED. -/
theorem stationWasReset_unlocated (h : s.pu.known = false ∨ s.cs.fault.any FaultRec.positional = true) :
    (stationWasReset s).cs.state = .unlocated ∧ (stationWasReset s).ce.own = [] ∧ (stationWasReset s).pu.known = false := by
  have hknown := (resetStart_parts s).1
  have hchosen : resetChosen s = enterUnlocated (resetStart s) := by
    refine if_pos ?_
    rw [hknown, Bool.or_eq_true, Bool.not_eq_true']
    exact h.symm
  obtain ⟨hcs, hown, hknown⟩ := stationWasReset_of_chosen hchosen
  rw [hcs, hown, hknown]
  exact enterUnlocated_parts _

section
variable (hknown : s.pu.known = true) (hgood : s.cs.fault.any FaultRec.positional = false)
include hknown hgood

theorem resetChosen_located : resetChosen s =
    if s.ds.pos = .up then enterState .ready (resetStart s) else enterParked (resetStart s) := by
  obtain ⟨hknown', hpos, -⟩ := resetStart_parts s
  unfold resetChosen chooseState
  rw [hknown', hknown, hgood, hpos, if_neg (by decide)]

theorem stationWasReset_ready (hup : s.ds.pos = .up) : (stationWasReset s).cs.state = .ready ∧
    (stationWasReset s).pu.known = true ∧ (stationWasReset s).ce.own = (stayingClaims s).map untied := by
  have hchosen := resetChosen_located hknown hgood
  rw [if_pos hup] at hchosen
  obtain ⟨hcs, hown, hknown'⟩ := stationWasReset_of_chosen hchosen
  obtain ⟨hstart, -, hclaims, -⟩ := resetStart_parts s
  obtain ⟨hown', hknown''⟩ := enterState_own_known .ready (resetStart s)
  exact ⟨by rw [hcs, enterState_state], by rw [hknown', hknown'', hstart, hknown], by rw [hown, hown', hclaims]⟩

theorem stationWasReset_parked (hup : s.ds.pos ≠ .up) : (stationWasReset s).cs.state = .parked ∧
    (stationWasReset s).pu.known = true ∧
    (stationWasReset s).ce.own = standingAt (headPos s).1 ((stayingClaims s).map untied) ∧
    ((∃ e ∈ (stayingClaims s).map untied, e.seg = (headPos s).1 ∧ e.st ≠ .standing) → queued (.claim 3 (cfg s).refresh
      (((standingAt (headPos s).1 ((stayingClaims s).map untied)).filter
        (fun e => decide (e.seg = (headPos s).1))).map itemOf)) (stationWasReset s)) := by
  have hchosen := resetChosen_located hknown hgood
  rw [if_neg hup] at hchosen
  obtain ⟨hcs, hown, hknown'⟩ := stationWasReset_of_chosen hchosen
  obtain ⟨hstart, -, hclaims, hhead⟩ := resetStart_parts s
  obtain ⟨hown', hknown''⟩ := enterParked_own_known (resetStart s)
  refine ⟨by rw [hcs]; exact enterState_state .., by rw [hknown', hknown'', hstart, hknown],
    by rw [hown, hown', hclaims, hhead], fun hex => ?_⟩
  have hblank := blank_resetStart s
  have hclash : (resetStart s).tli.clash = false := by
    have hline := (stationWasReset_chosen s).line
    have hclear : (blank (stationWasReset s)).tli.clash = false := (stationWasReset_cleared s).1
    rw [hline] at hclear
    exact (clash_of_blank hblank).trans hclear
  have hclaim := enterParked_claim (s := resetStart s) hclash (by rw [hclaims, hhead]; exact hex)
  have hactive : (resetStart s).os.active = none := (congrArg OrderStore.active (os_of_blank hblank)).trans (resetBase_gone s).1
  have hcfg : cfg (resetStart s) = cfg s := by
    unfold cfg
    rw [cs_of_blank hblank, (resetBase_kept s).1]
  rw [claimClass_of_none hactive, hcfg, hclaims, hhead, ← hchosen] at hclaim
  exact queued_of_mem (reannounced_framesStay _ _ hclaim rfl rfl)

end

end

/-- Settles O29: the REPORT goes first, the orders and the blocks go, and the state chosen is announced. -/
theorem stationResetTaken : Obligations.StationResetTaken := by
  intro src s hfront hkind stay head standing
  have hexec := exec_stationReset_carriage hfront hkind
  refine ⟨fun hmoving => hexec.trans (next_congr (if_neg ?_)), fun hstill hstop hdrive => ?_⟩
  · rw [show (taken s).pu.standstill = false from hmoving]
    exact Bool.false_ne_true
  · have htake : exec (.stationReset src) s = .next (stationWasReset (taken s)) :=
      hexec.trans (next_congr ((if_pos hstill).trans (stationReset_of_quiet hstop hdrive)))
    have hchosen := stationWasReset_chosen (taken s)
    have hpins := stationWasReset_pinsStay (taken s)
    obtain ⟨hclash, hinbound, hmalformed, hunacked, hoverflow⟩ := stationWasReset_cleared (taken s)
    obtain ⟨hcs', hknown', hds', hown', hhead', -⟩ := resetBase_kept (taken s)
    obtain ⟨hactive, hpending, hov, hspan, habort, hcount, hattempts, hbackoff, hdemand, hleader, hhold⟩ := resetBase_gone (taken s)
    obtain ⟨st, c, hcs⟩ := hchosen.cs
    obtain ⟨hactive', hpending'⟩ := hchosen.orders
    obtain ⟨hspan', habort', hcount', hattempts', hbackoff'⟩ := hchosen.engine
    obtain ⟨hleader', hhold'⟩ := hchosen.convoy hleader hhold
    have hview := hchosen.view
    have hjacks := hchosen.jacks
    have hdemand' := hchosen.demand hdemand
    have hrefresh : (stationWasReset (taken s)).ce.refresh = some 0 := reannounced_zero _
    have hconsole (c : Addr) (hc : s.cs.console = some c) : console (taken s) = some c := by
      unfold console
      rw [show (taken s).tli.kind = .carriage from hkind]
      exact hc
    rw [hcs'] at hcs
    have hunlocated := stationWasReset_unlocated (s := taken s)
    have hready := stationWasReset_ready (s := taken s)
    have hparked := stationWasReset_parked (s := taken s)
    refine ⟨_, htake, ?_⟩
    generalize stationWasReset (taken s) = t at *
    refine ⟨hactive'.trans hactive, hpending'.trans hpending, by rw [hcs] <;> rfl, by rw [hcs] <;> rfl, by rw [hcs] <;> rfl,
      by rw [hcs], by rw [hcs], hview.trans hov, hspan'.trans hspan, habort'.trans habort, hcount'.trans hcount,
      hattempts'.trans hattempts, hbackoff'.trans hbackoff, hrefresh, hclash, hinbound, fun e he hs => ?_, hmalformed, hunacked,
      hoverflow, hdemand', by rw [hjacks, hds'] <;> rfl, hleader', hhold', fun c hc => ?_, fun c hc hclashed hfree => ?_,
      hunlocated, fun hknown hgood => ⟨fun hup => hready hknown hgood hup, fun hup => ?_⟩⟩
    · obtain ⟨k, hk, hks, hkw, hkf, hkt⟩ := resetReport_finishes (b := .cs) (s := taken s) he hs
      obtain ⟨l, hl, hls, hlw, hlf, hlt⟩ := hpins.sent k hk hks hkw
      exact ⟨l, hl, hls, hlw, hlf.trans hkf, fun htag => hlt.trans (hkt htag)⟩
    · exact queued_of_reportWaits (hpins.waits _ _ (resetReport_waits (hconsole c hc)))
    · exact exec_lineIdle_of_firstWaits (hpins.first _ _ (resetReport_first (hconsole c hc) hclashed hfree))
    · obtain ⟨hstate, hknown'', hown'', hqueued⟩ := hparked hknown hgood hup
      refine ⟨hstate, hknown'', hown'', fun hex => ?_⟩
      have h := hqueued hex
      rw [standingAt_filter] at h
      exact h

end Sys2Proof.Machine
end

section
/-! O49: what a POSITION carries, and the ends of the carriage's timers (R119, R120, R58, R68, R37). -/

namespace Sys2Proof.Machine

open Sys2Proof

section
variable {s : State}

/-! ## What a POSITION carries (R119) -/

theorem noticeOffset_of_le {o : Mm} (h : o ≤ 1048575) : noticeOffset o = o := if_pos h

theorem headPos_of_known (h : s.pu.known = true) : headPos s = endPos s (noticeEnd s) := if_pos h

theorem tailPos_of_known (h : s.pu.known = true) : tailPos s = endPos s (otherEnd (noticeEnd s)) := if_pos h

theorem positionNotice_dir (h : s.pu.known = true) : (positionNotice s).dir = travelDir s := if_pos h

/-- Without a position it shows none. -/
theorem positionNotice_unknown (h : s.pu.known = false) : let n := positionNotice s
    n.headSeg = 0 ∧ n.headOff = 0 ∧ n.tailSeg = 0 ∧ n.tailOff = 0 ∧ n.dir = .up := by
  have hk : ¬ s.pu.known = true := by rw [h]; exact Bool.false_ne_true
  have hhead : headPos s = (0, 0) := if_neg hk
  have htail : tailPos s = (0, 0) := if_neg hk
  have hzero : noticeOffset 0 = 0 := noticeOffset_of_le (Nat.zero_le _)
  unfold positionNotice
  rw [hhead, htail]
  exact ⟨rfl, hzero, rfl, hzero, if_neg hk⟩

/-- A field that gives an offset where it fits. -/
def Carries (field offset : Mm) : Prop := offset ≤ 1048575 → field = offset

theorem carries_noticeOffset {o p : Mm} (h : o = p) : Carries (noticeOffset o) p := by
  subst h
  exact noticeOffset_of_le

/-- The end form: each end where its record has it. -/
theorem positionNotice_ends {e : End} {x y : EndRec} (hknown : s.pu.known = true) (hroute : s.pu.route = none)
    (hnotice : s.pu.noticeHead = some e) (hx : endRec s e = some x) (hy : endRec s (otherEnd e) = some y) :
    let n := positionNotice s
    n.headSeg = x.seg ∧ Carries n.headOff x.off ∧ n.tailSeg = y.seg ∧ Carries n.tailOff y.off ∧ n.dir = turn e x.aSense := by
  have hend : noticeEnd s = e := by unfold noticeEnd; rw [hnotice] <;> rfl
  have hhead : headPos s = (x.seg, x.off) := by rw [headPos_of_known hknown, hend, endPos_of_no_route hroute hx]
  have htail : tailPos s = (y.seg, y.off) := by rw [tailPos_of_known hknown, hend, endPos_of_no_route hroute hy]
  have hdir : travelDir s = turn e x.aSense := by
    simp only [travelDir, hroute, hend, hx]
  refine ⟨congrArg Prod.fst hhead, ?_, congrArg Prod.fst htail, ?_, (positionNotice_dir hknown).trans hdir⟩
  · exact carries_noticeOffset (congrArg Prod.snd hhead)
  · exact carries_noticeOffset (congrArg Prod.snd htail)

/-- A travel coordinate held within a leg, as an offset of its segment. -/
def withinLeg (l : Leg) (travel : Int) : Mm :=
  match l.dir with
  | .up => min travel.toNat l.len
  | .down => l.len - min travel.toNat l.len

theorem onLeg_eq_withinLeg {legs : List Leg} {k : Nat} {l : Leg} (c : Int) (hl : legAt legs k = some l) :
    onLeg legs k c = (l.seg, withinLeg l (c - legStart legs k)) := by
  rw [onLeg_of_legAt c hl]
  unfold withinLeg
  cases l.dir <;> rfl

theorem routeTail_of_leg {r : Route} {a : ActiveOrder} {k : Nat} {m : Leg} (hk : a.tailLeg = .leg k) (hm : legAt a.ord.legs k = some m) :
    routeTail s a r = (m.seg, withinLeg m (tailCoord s r - legStart a.ord.legs k)) := by
  unfold routeTail
  rw [hk]
  exact onLeg_eq_withinLeg _ hm

theorem routeTail_of_rear {r : Route} {a : ActiveOrder} {k : Rear} (hk : a.tailLeg = .rear) (hr : a.rear = some k) :
    routeTail s a r = (k.seg, rearOffset k.dir r.rearOff (tailCoord s r - r.tail0)) := by
  unfold routeTail
  rw [hk]
  dsimp only
  rw [hr]

section
variable {r : Route} {a : ActiveOrder} (hknown : s.pu.known = true) (hroute : s.pu.route = some r)
  (hactive : s.os.active = some a) (hnotice : s.pu.noticeHead = some a.ord.lead)
include hknown hroute hactive hnotice

theorem headPos_of_route : headPos s = routeHead a r := by
  rw [headPos_of_known hknown, noticeEnd, hnotice]
  unfold endPos
  rw [hroute, hactive]
  exact if_pos rfl

theorem tailPos_of_route : tailPos s = routeTail s a r := by
  rw [tailPos_of_known hknown, noticeEnd, hnotice]
  unfold endPos
  rw [hroute, hactive]
  refine if_neg ?_
  show ¬ otherEnd a.ord.lead = a.ord.lead
  cases a.ord.lead <;> exact End.noConfusion

/-- The route form: the head as R109 has it. -/
theorem positionNotice_route_head {l : Leg} (hl : legAt a.ord.legs a.headLeg = some l) : let n := positionNotice s
    n.dir = l.dir ∧ n.headSeg = l.seg ∧ Carries n.headOff (withinLeg l (r.x - legStart a.ord.legs a.headLeg)) := by
  have hhead : headPos s = (l.seg, withinLeg l (r.x - legStart a.ord.legs a.headLeg)) :=
    (headPos_of_route hknown hroute hactive hnotice).trans (onLeg_eq_withinLeg _ hl)
  have hdir : travelDir s = l.dir := by
    unfold travelDir
    rw [hroute, hactive]
    dsimp only
    rw [hl]
  exact ⟨(positionNotice_dir hknown).trans hdir, congrArg Prod.fst hhead, carries_noticeOffset (congrArg Prod.snd hhead)⟩

theorem positionNotice_route_tail {p : Seg × Mm} (htail : routeTail s a r = p) :
    (positionNotice s).tailSeg = p.1 ∧ Carries (positionNotice s).tailOff p.2 := by
  have h : tailPos s = p := (tailPos_of_route hknown hroute hactive hnotice).trans htail
  exact ⟨congrArg Prod.fst h, carries_noticeOffset (congrArg Prod.snd h)⟩

end

/-! ## The effective period (R120) -/

theorem effPeriod_of_none (h : s.cs.comm = none) : effPeriod s = 0 := by unfold effPeriod; rw [h]

theorem effPeriod_of_some {c : CommRec} (h : s.cs.comm = some c) : effPeriod s =
    if s.ce.own.any OwnClaim.convoy then (if c.posPeriod = 0 then 250 else min c.posPeriod 250) else c.posPeriod := by
  unfold effPeriod
  rw [h]

/-! ## The timers -/

section
variable (hkind : s.tli.kind = .carriage)
include hkind

theorem exec_backoffExpiry : exec .backoffExpiry s =
    .next (if s.ce.backoff.isNone then s else testTrigger (s.setCe { s.ce with backoff := none })) :=
  next_congr (if_pos hkind)

theorem exec_refreshExpiry : exec .refreshExpiry s = .next (if s.ce.refresh.isNone then s else refreshNow s) :=
  next_congr (if_pos hkind)

theorem exec_listenInExpiry_carriage : exec .listenInExpiry s =
    .next (if s.ov.listen.isNone then s else testTrigger (tryLocate (s.setOv { s.ov with listen := none }))) :=
  next_congr (if_pos hkind)

theorem exec_positionPeriodExpiry : exec .positionPeriodExpiry s =
    .next (if effPeriod s = 0 ∨ s.pu.timer.isNone then s else queuePosition s) :=
  next_congr (if_pos hkind)

end

theorem tryLocate_of_state (h : s.cs.state ≠ .unlocated) : tryLocate s = s := by
  unfold tryLocate
  cases s.pu.held with
  | none => rfl
  | some l => exact if_neg fun hall => h hall.1

/-- The span in flight, if any, announced: a refresh carries the whole list. -/
theorem refreshEntries_of_announced (h : ∀ sp, s.ce.span = some sp → sp.announced = true) : refreshEntries s = s.ce.own := by
  unfold refreshEntries
  cases hspan : s.ce.span with
  | none => rfl
  | some sp => exact if_pos (h sp hspan)

theorem chunk4_length_le {α : Type} (l : List α) : (chunk4 l).length * 4 ≤ l.length + 3 := by
  induction l using chunk4.induct with
  | case1 a b c d rest ih =>
    simp only [chunk4, List.length_cons]
    omega
  | case2 => simp [chunk4]
  | case3 l h1 h2 =>
    have hne : l ≠ [] := fun h => h2 h
    have hpos := List.length_pos_iff.mpr hne
    simp only [chunk4, List.length_singleton]
    omega

theorem chunk4_isEmpty {α : Type} {l : List α} : (chunk4 l).isEmpty = true ↔ l = [] := by
  constructor
  · intro h
    by_contra hne
    obtain ⟨a, ha⟩ := List.exists_mem_of_ne_nil l hne
    obtain ⟨ids, hids, -⟩ := mem_chunk4 ha
    rw [List.isEmpty_iff.mp h] at hids
    exact List.not_mem_nil hids
  · rintro rfl
    rfl

theorem refreshNow_of_empty (h : s.ce.own = []) : refreshNow s = s.setCe { s.ce with refresh := some 0, refreshOut := false } := by
  rw [refreshNow_eq]
  refine if_pos (chunk4_isEmpty.mpr ?_)
  unfold refreshEntries
  rw [h]
  cases s.ce.span with
  | none => rfl
  | some sp => exact ite_self _

/-- With room for its frames a refresh joins whole, and the countdown stands until they have gone (R68). -/
theorem refreshNow_queued (hne : s.ce.own ≠ []) (hlen : s.ce.own.length ≤ 12) (hroom : s.tli.txq.length ≤ 7)
    (hclash : s.tli.clash = false) (hspan : ∀ sp, s.ce.span = some sp → sp.announced = true) :
    (refreshNow s).ce.refresh = none ∧ (refreshNow s).ce.refreshOut = true ∧
    (refreshNow s).tli.txq = s.tli.txq ++ (chunk4 s.ce.own).map (refreshEntry (claimClass s) (cfg s).refresh) := by
  have hchunks : ¬ (chunk4 s.ce.own).isEmpty = true := fun h => hne (chunk4_isEmpty.mp h)
  have hgroups := chunk4_length_le s.ce.own
  have hfit : s.tli.txq.length + (chunk4 s.ce.own).length ≤ 10 := by omega
  have htxq := refreshFrames_txq (chunk4 s.ce.own) (claimClass s) (cfg s).refresh
    (s.setCe { s.ce with refresh := none, refreshOut := false }) hclash hfit
  rw [refreshNow_eq, refreshEntries_of_announced hspan, if_neg hchunks]
  dsimp only
  have hrefresh := refreshFrames_none (chunk4 s.ce.own) (claimClass s) (cfg s).refresh
    (s.setCe { s.ce with refresh := none, refreshOut := false }) rfl rfl
  generalize refreshFrames (chunk4 s.ce.own) (claimClass s) (cfg s).refresh
    (s.setCe { s.ce with refresh := none, refreshOut := false }) = u at *
  have hwaits : u.tli.txq.any (fun e => decide (e.tag = .refresh)) = true := by
    obtain ⟨g, hg⟩ := List.exists_mem_of_ne_nil (chunk4 s.ce.own) fun h => hchunks (List.isEmpty_iff.mpr h)
    rw [htxq, List.any_append, Bool.or_eq_true]
    exact .inr (List.any_eq_true.mpr ⟨_, List.mem_map_of_mem hg, rfl⟩)
  have hsettle : settleRefresh (u.setCe { u.ce with refreshOut := true }) = u.setCe { u.ce with refreshOut := true } :=
    if_neg (by rw [State.setCe_tli, hwaits, Bool.not_true, Bool.and_false]; exact Bool.false_ne_true)
  rw [hsettle]
  exact ⟨hrefresh.1, rfl, htxq⟩

theorem mem_chunk4_le {α : Type} {l : List α} {a : α} (h : a ∈ l) : ∃ ids ∈ chunk4 l, a ∈ ids ∧ ids.length ≤ 4 := by
  obtain ⟨ids, hids, ha⟩ := mem_chunk4 h
  refine ⟨ids, hids, ha, ?_⟩
  clear h ha
  induction l using chunk4.induct with
  | case1 b c d e rest ih =>
    simp only [chunk4, List.mem_cons] at hids
    rcases hids with rfl | hids
    · exact le_rfl
    · exact ih hids
  | case2 => simp [chunk4] at hids
  | case3 l h1 h2 =>
    simp only [chunk4, List.mem_singleton] at hids
    rw [hids]
    rcases l with _ | ⟨a, _ | ⟨b, _ | ⟨c, _ | ⟨d, rest⟩⟩⟩⟩
    · exact Nat.zero_le _
    · exact Nat.le_add_left 1 3
    · exact Nat.le_add_left 2 2
    · exact Nat.le_add_left 3 1
    · exact (h1 a b c d rest rfl).elim

/-! ## The position period (R120) -/

/-- The entry of a POSITION offered. -/
def positionEntry (s : State) : TxEntry :=
  { frame := .position (positionNotice s), block := .pu, periodic := true, tag := .plain, sending := false, cut := [],
    withdrawn := false }

/-- A POSITION queued with none being sent waits, where one waits already or there is room. -/
theorem queuePosition_queued (hclash : s.tli.clash = false) (hnone : ∀ k ∈ s.tli.txq, k.sending = false)
    (hroom : s.tli.txq.length < 10 ∨ ∃ k ∈ s.tli.txq, isPosition k = true) :
    queued (.position (positionNotice s)) (queuePosition s) := by
  have hline : (queuePosition s).tli = offerTli (positionEntry s) s.tli := by
    refine (congrArg State.tli (if_neg (by rw [hclash]; exact Bool.false_ne_true) : queuePosition s = _)).trans ?_
    dsimp only
    rw [State.setPu_tli, offer, settleRefresh_tli] <;> rfl
  refine List.mem_map.mpr ?_
  rw [hline]
  by_cases hlike : ∃ k ∈ s.tli.txq, isPosition k = true
  · obtain ⟨k, hk, hpos⟩ := hlike
    rw [offerTli_position_replaces hclash rfl ⟨k, hk, hpos, hnone k hk⟩]
    refine ⟨{ k with frame := .position (positionNotice s) }, List.mem_append_left _ (List.mem_map.mpr ⟨k, hk, ?_⟩), rfl⟩
    rw [hpos, hnone k hk]
    rfl
  · have hroom := hroom.resolve_right hlike
    have hother : isPeriodicPoints (positionEntry s) = false := rfl
    rw [offerTli_of_no_like hclash (fun _ k hk => Bool.eq_false_iff.mpr fun h => hlike ⟨k, hk, h⟩)
        (fun h => absurd (hother.symm.trans h) Bool.false_ne_true),
      offerPlain_periodic rfl, if_pos hroom]
    exact ⟨_, List.mem_append_left _ (List.mem_append_right _ (List.mem_singleton.mpr rfl)), rfl⟩

theorem queuePosition_parts (hclash : s.tli.clash = false) (hcomm : s.cs.comm.isSome = true) :
    (queuePosition s).pu = { s.pu with timer := some 0 } ∧ (queuePosition s).cs = s.cs := by
  have hblank := blank_offer .pu true .plain (.position (positionNotice s)) s
  have hq : queuePosition s = _ := if_neg (by rw [hclash]; exact Bool.false_ne_true)
  rw [hq]
  refine ⟨?_, (cs_of_blank (s := offer _ _ _ _ s) hblank).trans rfl⟩
  have hcs := cs_of_blank hblank
  have hpu : (offer .pu true .plain (.position (positionNotice s)) s).pu = s.pu := offer_pu ..
  dsimp only
  rw [State.setPu_pu, hpu, hcs, hcomm] <;> rfl

end

/-- Settles O49: what a POSITION carries field by field, and each timer's end. -/
theorem carriageTimers : Obligations.CarriageTimers := by
  refine ⟨fun s => ?_, fun s hkind => ?_⟩
  · intro n carries onLeg start
    refine ⟨rfl, by show min (s.pu.window.sum.natAbs * 10) 4095 = _; rw [Nat.mul_comm], rfl, effPeriod_of_none,
      fun c hc => ⟨fun hplain => ?_, fun ⟨e, he, hconvoy⟩ => ?_⟩, positionNotice_unknown,
      fun hknown hroute a b ha hb => ⟨fun hnotice => ?_, fun hnotice => ?_⟩,
      fun hknown r a l hroute hactive hnotice hl => ?_⟩
    · rw [effPeriod_of_some hc, if_neg]
      rw [List.any_eq_true]
      rintro ⟨e, he, hconvoy⟩
      rw [hplain e he] at hconvoy
      cases hconvoy
    · rw [effPeriod_of_some hc, if_pos (List.any_eq_true.mpr ⟨e, he, hconvoy⟩)]
    · exact positionNotice_ends hknown hroute hnotice ha hb
    · exact positionNotice_ends hknown hroute hnotice hb ha
    · intro tail
      obtain ⟨hdir, hseg, hoff⟩ := positionNotice_route_head hknown hroute hactive hnotice hl
      refine ⟨hdir, hseg, hoff, fun k m hk hm => ?_, fun k hk hr => ?_⟩
      · exact positionNotice_route_tail hknown hroute hactive hnotice (routeTail_of_leg hk hm)
      · obtain ⟨hseg', hoff'⟩ := positionNotice_route_tail hknown hroute hactive hnotice (routeTail_of_rear (s := s) (r := r) hk hr)
        refine ⟨hseg', fun hup => ?_, fun hdown => ?_⟩
        · rw [rearOffset_eq, if_pos hup] at hoff'
          exact hoff'
        · rw [rearOffset_eq, if_neg (by rw [hdown]; exact Dir.noConfusion)] at hoff'
          exact hoff'
  · refine ⟨fun hsome => ?_, fun hsome => ⟨fun hempty => ?_, fun hne hlen hroom hclash hspan => ?_⟩, fun hnone => ?_, fun hnone => ?_,
      fun hnone => ?_, fun hsome => ⟨fun hwait => ?_, fun h hheld hstate hsilent hstop hdrive hfree => ?_⟩, fun hstopped => ?_,
      fun hperiod htimer hclash => ?_⟩
    · rw [exec_backoffExpiry hkind, if_neg (by rw [Option.isNone_iff_eq_none]; exact Option.isSome_iff_ne_none.mp hsome),
        testTrigger_eq] <;> rfl
    · rw [exec_refreshExpiry hkind, if_neg (by rw [Option.isNone_iff_eq_none]; exact Option.isSome_iff_ne_none.mp hsome),
        refreshNow_of_empty hempty]
    · obtain ⟨hrefresh, hout, htxq⟩ := refreshNow_queued hne hlen hroom hclash hspan
      have hblank := blank_refreshNow s
      refine ⟨refreshNow s, ?_, own_of_blank hblank, hrefresh, hout, os_of_blank hblank, cs_of_blank hblank, fun e he => ?_⟩
      · rw [exec_refreshExpiry hkind, if_neg (by rw [Option.isNone_iff_eq_none]; exact Option.isSome_iff_ne_none.mp hsome)]
      · obtain ⟨g, hg, heg, hshort⟩ := mem_chunk4_le he
        refine ⟨g.map itemOf, List.mem_map_of_mem heg, by rw [List.length_map]; exact hshort, ?_⟩
        refine queued_of_mem (e := refreshEntry (claimClass s) (cfg s).refresh g) (List.mem_append_left _ ?_)
        rw [htxq]
        exact List.mem_append_right _ (List.mem_map_of_mem hg)
    · rw [exec_refreshExpiry hkind, hnone] <;> rfl
    · rw [exec_backoffExpiry hkind, hnone] <;> rfl
    · rw [exec_listenInExpiry_carriage hkind, hnone] <;> rfl
    · have hquiet : tryLocate (s.setOv { s.ov with listen := none }) = s.setOv { s.ov with listen := none } := by
        rcases hwait with hheld | hstate | hsilent
        · exact tryLocate_of_waiting (.inr (.inr hheld))
        · exact tryLocate_of_state hstate
        · exact tryLocate_of_waiting (.inr (.inl hsilent))
      rw [exec_listenInExpiry_carriage hkind, if_neg (by rw [Option.isNone_iff_eq_none]; exact Option.isSome_iff_ne_none.mp hsome),
        hquiet, testTrigger_eq] <;> rfl
    · have htry := tryLocate_of_held (s := s.setOv { s.ov with listen := none }) hheld hstate rfl hsilent
      obtain ⟨hcs, ⟨hknown, hendA, hendB, hnone, hnotice, -⟩, hown, -, hbrake, -, hov⟩ :=
        takeLocation_parts (s := s.setOv { s.ov with listen := none }) (h := h) hstate hfree hstop hdrive
      refine ⟨testTrigger (takeLocation h (s.setOv { s.ov with listen := none })), ?_, ?_⟩
      · rw [exec_listenInExpiry_carriage hkind, if_neg (by rw [Option.isNone_iff_eq_none]; exact Option.isSome_iff_ne_none.mp hsome),
          htry]
      · rw [testTrigger_eq]
        exact ⟨hov, congrArg Supervisor.state hcs, hknown, hendA, hendB, hnone, hnotice, hbrake, hown⟩
    · rw [exec_positionPeriodExpiry hkind, if_pos (by rw [Option.isNone_iff_eq_none]; exact hstopped)]
    · have hcomm : s.cs.comm.isSome = true := Option.isSome_iff_ne_none.mpr fun h => hperiod (effPeriod_of_none h)
      obtain ⟨hpu, hcs⟩ := queuePosition_parts hclash hcomm
      refine ⟨queuePosition s, ?_, hpu, hcs, fun hnone hroom => queuePosition_queued hclash hnone hroom⟩
      rw [exec_positionPeriodExpiry hkind, if_neg]
      rw [Option.isNone_iff_eq_none]
      exact fun h => h.elim hperiod (Option.isSome_iff_ne_none.mp htimer)

end Sys2Proof.Machine
end

section
/-! The limits of the Envelope Unit, and the permit (R124 to R132). -/

namespace Sys2Proof.Machine

open Sys2Proof

/-! ## The lowest of a list -/

theorem foldl_min_le_init (l : List Nat) (a : Nat) : l.foldl min a ≤ a := by
  induction l generalizing a with
  | nil => exact le_rfl
  | cons b l ih => exact (ih _).trans (min_le_left a b)

theorem foldl_min_le_of_mem {l : List Nat} {a b : Nat} (h : b ∈ l) : l.foldl min a ≤ b := by
  induction l generalizing a with
  | nil => cases h
  | cons c l ih =>
    rcases List.mem_cons.mp h with rfl | h
    · exact (foldl_min_le_init l _).trans (min_le_right a b)
    · exact ih h

theorem foldl_min_eq_or_mem (l : List Nat) (a : Nat) : l.foldl min a = a ∨ l.foldl min a ∈ l := by
  induction l generalizing a with
  | nil => exact .inl rfl
  | cons b l ih =>
    rcases ih (min a b) with h | h
    · rcases min_choice a b with hmin | hmin
      · exact .inl (h.trans hmin)
      · exact .inr (List.mem_cons.mpr (.inl (h.trans hmin)))
    · exact .inr (List.mem_cons_of_mem b h)

/-! ## The limits that apply -/

section
variable {s : State} {a : ActiveOrder} {r : Route} {v : Speed}

theorem legAt_eq_some_iff {legs : List Leg} {j : Nat} {l : Leg} : legAt legs j = some l ↔ 1 ≤ j ∧ legs[j - 1]? = some l := by
  unfold legAt
  cases j with
  | zero => simp
  | succ j => simp

/-- The limits of the occupied legs and of the rear segment (R125). -/
theorem mem_occupiedLimits : v ∈ occupiedLimits a ↔ (∃ q, a.rear = some q ∧ v = q.limit) ∨
    ∃ j l, 1 ≤ j ∧ j ≤ a.headLeg ∧ (∀ k, a.tailLeg = .leg k → k ≤ j) ∧ legAt a.ord.legs j = some l ∧ v = l.limit := by
  have hrear (q : Option Rear) : v ∈ (match q with
      | some q => [q.limit]
      | none => []) ↔ ∃ k, q = some k ∧ v = k.limit := by
    cases q <;> simp
  have hlegs (lo : Nat) : v ∈ ((a.ord.legs.take a.headLeg).drop (lo - 1)).map Leg.limit ↔
      ∃ j l, 1 ≤ j ∧ j ≤ a.headLeg ∧ lo ≤ j ∧ legAt a.ord.legs j = some l ∧ v = l.limit := by
    rw [List.mem_map]
    constructor
    · rintro ⟨l, hl, rfl⟩
      obtain ⟨i, hi⟩ := List.mem_iff_getElem?.mp hl
      rw [List.getElem?_drop, List.getElem?_take] at hi
      split at hi
      · next hlt => exact ⟨lo - 1 + i + 1, l, by omega, by omega, by omega, legAt_eq_some_iff.mpr ⟨by omega, hi⟩, rfl⟩
      · cases hi
    · rintro ⟨j, l, hj, hhead, hlo, hl, rfl⟩
      obtain ⟨-, hget⟩ := legAt_eq_some_iff.mp hl
      refine ⟨l, List.mem_iff_getElem?.mpr ⟨j - 1 - (lo - 1), ?_⟩, rfl⟩
      rw [List.getElem?_drop, List.getElem?_take, if_pos (by omega), show lo - 1 + (j - 1 - (lo - 1)) = j - 1 by omega]
      exact hget
  unfold occupiedLimits
  rw [List.mem_append]
  refine or_congr (hrear a.rear) ((hlegs _).trans (exists_congr fun j => exists_congr fun l => ?_))
  refine and_congr_right fun hj => and_congr_right fun _ => and_congr_left fun _ => ?_
  cases a.tailLeg with
  | leg k => exact ⟨fun h m hm => TailLeg.leg.inj hm ▸ h, fun h => h k rfl⟩
  | rear => exact ⟨fun _ m hm => (nomatch hm), fun _ => hj⟩

/-- The approach limits (R126). -/
theorem mem_approachLimits {c : CommRec} {x : Int} {ae : Mm} : v ∈ approachLimits c a x ae ↔
    ∃ j l, a.headLeg < j ∧ legAt a.ord.legs j = some l ∧ legStart a.ord.legs j < ae ∧
      v = brakingLimit c.decel l.limit ((legStart a.ord.legs j : Int) - x).toNat := by
  unfold approachLimits
  rw [List.mem_filterMap]
  constructor
  · rintro ⟨i, -, hi⟩
    dsimp only at hi
    split at hi
    · next l hl =>
      split at hi
      · next hlt => exact ⟨_, l, by omega, hl, hlt, (Option.some.inj hi).symm⟩
      · cases hi
    · cases hi
  · rintro ⟨j, l, hhead, hl, hlt, rfl⟩
    obtain ⟨hj, hget⟩ := legAt_eq_some_iff.mp hl
    obtain ⟨hlen, -⟩ := List.getElem?_eq_some_iff.mp hget
    refine ⟨j - a.headLeg - 1, List.mem_range.mpr (by omega), ?_⟩
    dsimp only
    rw [show a.headLeg + 1 + (j - a.headLeg - 1) = j by omega, hl]
    exact if_pos hlt

theorem mem_limits_of_order (ha : s.os.active = some a) (hr : s.pu.route = some r) : v ∈ limits s ↔ s.cr.limit = some v ∨
    (v ∈ occupiedLimits a ∨ (∃ ae, authorityEnd s = some ae ∧ (v = restLimit (cfg s) r.x ae ∨ v ∈ approachLimits (cfg s) a r.x ae)) ∨
      (∃ p, lastPad a.ord = some p ∧ v = padLimit (cfg s) r.x (padCoord a.ord p)) ∨
      ∃ t, s.eu.stopTarget = some t ∧ v = restLimit (cfg s) r.x t) := by
  unfold limits
  rw [ha, hr]
  dsimp only
  rw [List.mem_append, List.mem_append, List.mem_append, List.mem_append, or_comm, or_assoc, or_assoc]
  refine or_congr ?_ (or_congr Iff.rfl (or_congr ?_ (or_congr ?_ ?_)))
  · cases s.cr.limit <;> simp [eq_comm]
  · cases authorityEnd s <;> simp
  · cases lastPad a.ord <;> simp
  · cases s.eu.stopTarget <;> simp

theorem mem_limits_of_none (h : s.os.active = none ∨ s.pu.route = none) : v ∈ limits s ↔ s.cr.limit = some v := by
  have hnone : limits s = match s.cr.limit with
      | some v => [v]
      | none => [] := by
    unfold limits
    rcases h with h | h
    · rw [h] <;> rfl
    · rw [h] <;> (cases s.os.active <;> rfl)
  rw [hnone]
  cases s.cr.limit <;> simp [eq_comm]

end

end Sys2Proof.Machine
end

section
/-! A full evaluation, step by step (R123, R135, R137 to R139). -/

namespace Sys2Proof.Machine

open Sys2Proof

/-- The gust input read, the permit and the target computed, and the exceedance counted or not. -/
def planned (gust : Bool) (n : Nat) (s : State) : State :=
  s.setEu { s.eu with gust := gust, timer := 0, permit := permitNow (s.setEu { s.eu with gust := gust, timer := 0 }),
                      target := targetNow (s.setEu { s.eu with gust := gust, timer := 0 }), exceed := n }

/-- The demand moved one step, and the brake mode that follows. -/
def stepped (s : State) : State :=
  s.setEu { s.eu with demand := nextDemand (cfg s) s.cs.state s.eu.demand s.eu.target,
                      brake := brakeAfter (nextDemand (cfg s) s.cs.state s.eu.demand s.eu.target) s.eu.target s.pu.standstill s.eu.brake,
                      rest := s.eu.rest && decide (nextDemand (cfg s) s.cs.state s.eu.demand s.eu.target = 0) }

section
variable {s : State} {gust : Bool}

theorem exec_envelopeEvaluation_still (hkind : s.tli.kind = .carriage) (hstill : movingState s.cs.state = false) :
    exec (.envelopeEvaluation gust) s = .next (idleEvaluation (s.setEu { s.eu with gust := gust, timer := 0 })) :=
  next_congr ((onKind_of_eq _ hkind).trans (if_neg (by
    rw [State.setEu_cs, hstill]
    exact Bool.false_ne_true)))

theorem moveDemand_of_resting (h : s.eu.demand ≠ 0 ∧ nextDemand (cfg s) s.cs.state s.eu.demand s.eu.target = 0 ∧
    s.pu.standstill = true) : moveDemand s = testTrigger (restEvent (stepped s)) :=
  congrArg testTrigger (if_pos h)

theorem moveDemand_of_other (h : ¬ (s.eu.demand ≠ 0 ∧ nextDemand (cfg s) s.cs.state s.eu.demand s.eu.target = 0 ∧
    s.pu.standstill = true)) : moveDemand s = testTrigger (stepped s) :=
  congrArg testTrigger (if_neg h)

section
variable (hkind : s.tli.kind = .carriage) (hmoving : movingState s.cs.state = true)
include hkind hmoving

/-- At the second exceedance in a row OVERSPEED is raised. -/
theorem evaluation_overspeed (hfast : overspeedAt s.eu.demand < measuredSpeed s) (hexceed : s.eu.exceed ≠ 0) :
    exec (.envelopeEvaluation gust) s = .next (raiseFault .overspeed (planned gust s.eu.exceed s)) := by
  have hne : (planned gust s.eu.exceed s).cs.state ≠ .fault := fun h => by
    rw [show s.cs.state = .fault from h] at hmoving
    cases hmoving
  obtain ⟨hfault, -⟩ := raiseFault_faultedWith (s := planned gust s.eu.exceed s) .overspeed hne
  rw [exec_envelopeEvaluation_moving hkind hmoving]
  refine next_congr ?_
  have htest : overspeedTest (planned gust s.eu.exceed s) = raiseFault .overspeed (planned gust s.eu.exceed s) :=
    (if_pos hfast).trans (if_neg hexceed)
  have heval : fullEvaluation (s.setEu { s.eu with gust := gust, timer := 0 }) =
      if movingState (overspeedTest (planned gust s.eu.exceed s)).cs.state then moveDemand (overspeedTest (planned gust s.eu.exceed s))
      else overspeedTest (planned gust s.eu.exceed s) := rfl
  rw [heval, htest, hfault]
  exact if_neg Bool.false_ne_true

/-- The count of exceedances after an evaluation that raises no fault. -/
def exceedAfter (s : State) : Nat := if overspeedAt s.eu.demand < measuredSpeed s then 1 else 0

theorem evaluation_moves (hslow : ¬ overspeedAt s.eu.demand < measuredSpeed s ∨ s.eu.exceed = 0) :
    exec (.envelopeEvaluation gust) s = .next (moveDemand (planned gust (exceedAfter s) s)) := by
  rw [exec_envelopeEvaluation_moving hkind hmoving]
  refine next_congr ?_
  have htest : overspeedTest (planned gust s.eu.exceed s) = planned gust (exceedAfter s) s := by
    unfold exceedAfter
    by_cases hfast : overspeedAt s.eu.demand < measuredSpeed s
    · rw [if_pos hfast]
      exact (if_pos hfast).trans (if_pos (hslow.resolve_left (not_not_intro hfast)))
    · rw [if_neg hfast]
      exact if_neg hfast
  have heval : fullEvaluation (s.setEu { s.eu with gust := gust, timer := 0 }) =
      if movingState (overspeedTest (planned gust s.eu.exceed s)).cs.state then moveDemand (overspeedTest (planned gust s.eu.exceed s))
      else overspeedTest (planned gust s.eu.exceed s) := rfl
  rw [heval, htest]
  exact if_pos hmoving

end

/-! ## The demand and the brake mode -/

theorem accelStep_eq (n : Nat) : accelStep n = if n = 0 then 2 else if n = 1 then 4 else if n = 2 then 8 else 12 := by
  unfold accelStep
  split <;> simp_all

theorem nextDemand_up {c : CommRec} {d t : Speed} (h : d < t) : nextDemand c .running d t = min t (d + accelStep c.accel) :=
  (if_pos h).trans (if_pos rfl)

theorem nextDemand_kept {c : CommRec} {st : CarState} {d t : Speed} (h : d < t) (hst : st ≠ .running) : nextDemand c st d t = d :=
  (if_pos h).trans (if_neg hst)

theorem nextDemand_down {c : CommRec} {st : CarState} {d t : Speed} (h : t ≤ d) : nextDemand c st d t = max t (d - c.decel * 50 / 1000) :=
  if_neg (not_lt.mpr h)

/-- OVERSPEED raised: FAULT, the demand 0 and the emergency brake. -/
theorem overspeed_parts (hmoving : movingState s.cs.state = true) : (raiseFault .overspeed s).cs.state = .fault ∧
    (raiseFault .overspeed s).cs.fault.map FaultRec.code = some .overspeed ∧ (raiseFault .overspeed s).eu.demand = 0 ∧
    (raiseFault .overspeed s).eu.brake = .emergency := by
  have hne := not_fault_of_moving hmoving
  obtain ⟨hstate, hcode, -⟩ := raiseFault_faultedWith .overspeed hne
  obtain ⟨-, heu, -⟩ := firstFault_parts .overspeed (headPos s).1 (headPos s).2 s
  have hraise : raiseFault .overspeed s = firstFault .overspeed (headPos s).1 (headPos s).2 s := raiseFaultAt_of_not_fault hne
  refine ⟨hstate, hcode, ?_, ?_⟩
  · rw [hraise, heu]
  · rw [hraise, heu]

/-! ## The rest that an evaluation presents -/

/-- The carriage comes to stand in this evaluation. -/
structure ComesToRest (gust : Bool) (s : State) : Prop where
  kind : s.tli.kind = .carriage
  moving : movingState s.cs.state = true
  slow : ¬ overspeedAt s.eu.demand < measuredSpeed s ∨ s.eu.exceed = 0
  still : s.pu.standstill = true
  demand : s.eu.demand ≠ 0
  near : s.eu.demand ≤ (cfg s).decel * 50 / 1000
  target : targetNow (s.setEu { s.eu with gust := gust }) = 0

/-- The state in which it presents the rest event. -/
def atStand (gust : Bool) (s : State) : State := stepped (planned gust (exceedAfter s) s)

namespace ComesToRest

theorem zero (h : ComesToRest gust s) : nextDemand (cfg s) s.cs.state s.eu.demand (planned gust (exceedAfter s) s).eu.target = 0 := by
  have htarget : (planned gust (exceedAfter s) s).eu.target = 0 := h.target
  rw [htarget, nextDemand_down (Nat.zero_le _)]
  exact max_eq_left (Nat.sub_eq_zero_of_le h.near).le

theorem exec (h : ComesToRest gust s) : exec (.envelopeEvaluation gust) s = .next (testTrigger (restEvent (atStand gust s))) := by
  rw [evaluation_moves h.kind h.moving h.slow]
  exact next_congr (moveDemand_of_resting ⟨h.demand, h.zero, h.still⟩)

/-- At that moment the demand is 0 and the service brake applied; nothing else has changed. -/
theorem parts (h : ComesToRest gust s) : (atStand gust s).eu.demand = 0 ∧ (atStand gust s).eu.brake = .service := by
  have hzero := h.zero
  have htarget : (planned gust (exceedAfter s) s).eu.target = 0 := h.target
  refine ⟨hzero, ?_⟩
  show brakeAfter (nextDemand (cfg s) s.cs.state s.eu.demand (planned gust (exceedAfter s) s).eu.target)
    (planned gust (exceedAfter s) s).eu.target s.pu.standstill s.eu.brake = .service
  rw [hzero, htarget, h.still] <;> rfl

end ComesToRest

section
variable {a : ActiveOrder} {out : ReportOutcome} {ahead : Bool}

/-- An order that ends at that rest, the trigger tested after it. -/
theorem ends_triggered (hne : s.cs.state ≠ .ready) (hstill : s.pu.standstill = true) :
    let t := testTrigger (readied out ahead a s)
    t.cs.state = .ready ∧ t.os.active = none ∧ t.eu.demand = 0 ∧ t.eu.brake = .service ∧ t.pu.route = none ∧
    (s.tli.clash = false → ∀ c, console s = some c →
      queued (.report c { subject := .orderEnd, outcome := out, oid := a.ord.id }) t) := by
  obtain ⟨hstate, hactive, hbrake, hroute, -, -, hqueued⟩ := ends_readied (out := out) (ahead := ahead) (a := a) hne hstill
  have hdemand : (readied out ahead a s).eu.demand = 0 := by
    obtain ⟨-, -, heu, -⟩ := endedReady_parts ahead s
    rw [eu_of_blank (blank_readied hne), heu]
  obtain ⟨hcs', hos', heu', hpu', -, htli', -⟩ := testTrigger_parts (readied out ahead a s)
  dsimp only
  rw [hcs', hos', heu', hpu']
  refine ⟨hstate, hactive, hdemand, hbrake, hroute, fun hclash c hc => ?_⟩
  unfold queued
  rw [htli']
  exact hqueued hclash c hc

theorem startDocking_demand (hstate : s.cs.state = .running) (hpos : s.ds.pos ≠ .down) : (startDocking s).eu.demand = 0 := by
  have h : blank (enterState .docking (s.setDs { s.ds with cmd := .lower, dockTimer := some 0 })) =
      blank (entered .docking (s.setDs { s.ds with cmd := .lower, dockTimer := some 0 })) :=
    blank_enterState (by rw [State.setDs_cs, hstate]; exact CarState.noConfusion)
  have hstart : startDocking s = enterState .docking (s.setDs { s.ds with cmd := .lower, dockTimer := some 0 }) := by
    refine if_neg ?_
    rw [ds_of_blank h]
    exact hpos
  rw [hstart, eu_of_blank h] <;> rfl

end

end

end Sys2Proof.Machine
end

section
/-! O52 settled: a full evaluation. -/

namespace Sys2Proof.Machine

open Sys2Proof

section
variable {s : State} {gust : Bool}

/-- An evaluation that ends no order: the demand moved, the brake mode set, and nothing else. -/
theorem evaluation_plain (hkind : s.tli.kind = .carriage) (hmoving : movingState s.cs.state = true)
    (hslow : ¬ overspeedAt s.eu.demand < measuredSpeed s ∨ s.eu.exceed = 0)
    (hquiet : s.os.active = none ∨ s.pu.standstill = false ∨ s.eu.demand = 0) :
    ∃ b, exec (.envelopeEvaluation gust) s = .next (testTrigger ((atStand gust s).setEu { (atStand gust s).eu with rest := b })) ∧
      (0 < (atStand gust s).eu.demand → b = false) := by
  have hmoves := evaluation_moves (gust := gust) hkind hmoving hslow
  by_cases hrest : (planned gust (exceedAfter s) s).eu.demand ≠ 0 ∧ nextDemand (cfg (planned gust (exceedAfter s) s))
      (planned gust (exceedAfter s) s).cs.state (planned gust (exceedAfter s) s).eu.demand
      (planned gust (exceedAfter s) s).eu.target = 0 ∧ (planned gust (exceedAfter s) s).pu.standstill = true
  · obtain ⟨hdemand, hzero, hstill⟩ := hrest
    have hnone : (atStand gust s).os.active = none := by
      rcases hquiet with h | h | h
      · exact h
      · rw [show s.pu.standstill = true from hstill] at h
        cases h
      · exact absurd h hdemand
    refine ⟨true, hmoves.trans (next_congr ?_), fun hpos => absurd (hzero : (atStand gust s).eu.demand = 0) hpos.ne'⟩
    rw [moveDemand_of_resting ⟨hdemand, hzero, hstill⟩]
    exact congrArg testTrigger (restEvent_of_no_order hnone)
  · refine ⟨(atStand gust s).eu.rest, hmoves.trans (next_congr ?_), fun hpos => ?_⟩
    · rw [moveDemand_of_other hrest] <;> rfl
    · show (s.eu.rest && decide ((atStand gust s).eu.demand = 0)) = false
      rw [decide_eq_false hpos.ne', Bool.and_false]

/-- At rest in RUNNING the three questions of the rest event (R13, R44, R116). -/
theorem restEvent_underway {a : ActiveOrder} {r : Route} (ha : s.os.active = some a) (hr : s.pu.route = some r)
    (hphase : a.phase = .underway) (hstate : s.cs.state = .running) (hpad : s.eu.padStop = false) (hzero : s.eu.demand = 0) :
    let there : Bool := decide (a.ord.legs.length < a.nextClaim) &&
      decide (((routeEnd a.ord.legs : Nat) : Int) - (cfg s).margin ≤ r.x)
    let blocked : Bool := s.ce.span.isNone && firstLegHeld s a && decide (remaining s r.x = 0)
    (there = true → restEvent s = if (lastPad a.ord).isSome then raiseFault .padMarkerMissed (rested s)
      else endOrder .completed false false (rested s)) ∧
    (there = false → blocked = true → restEvent s = endOrder (.failed .routeBlocked) true false (rested s)) ∧
    (there = false → blocked = false → restEvent s = rested s) := by
  intro there blocked
  have hblocked : blockedAtRest a (rested s) = blocked := by
    unfold blockedAtRest
    rw [show (rested s).pu.route = some r from hr] <;> rfl
  have hthere : arrived a (rested s) = there := by
    unfold arrived
    rw [show (rested s).pu.route = some r from hr, show (rested s).eu.demand = 0 from hzero] <;> rfl
  have hopen : there = true → blocked = false := fun h => by
    have hbeyond : a.ord.legs.length < a.nextClaim := of_decide_eq_true (Bool.and_eq_true_iff.mp h).1
    have hleg : firstLegHeld s a = false := by unfold firstLegHeld; rw [legAt_of_beyond hbeyond]
    show (s.ce.span.isNone && firstLegHeld s a && _) = false
    rw [hleg, Bool.and_false, Bool.false_and]
  rw [restEvent_running ha hphase hstate, hpad, hblocked, hthere, if_neg Bool.false_ne_true]
  refine ⟨fun h => ?_, fun _ hb => ?_, fun h hb => ?_⟩
  · rw [hopen h, h, if_neg Bool.false_ne_true, if_pos rfl]
  · rw [hb, if_pos rfl]
  · rw [hb, h, if_neg Bool.false_ne_true, if_neg Bool.false_ne_true]

/-- The limits of an order, each written out (R125 to R131). -/
theorem orderLimits_iff {a : ActiveOrder} {r : Route} {v : Speed} :
    let braking (v : Speed) (d : Int) : Speed := isqrt (v * v + 2 * (cfg s).decel * min d.toNat 2000000)
    (v ∈ occupiedLimits a ∨ (∃ ae, authorityEnd s = some ae ∧ (v = restLimit (cfg s) r.x ae ∨ v ∈ approachLimits (cfg s) a r.x ae)) ∨
      (∃ p, lastPad a.ord = some p ∧ v = padLimit (cfg s) r.x (padCoord a.ord p)) ∨
      ∃ t, s.eu.stopTarget = some t ∧ v = restLimit (cfg s) r.x t) ↔
    ((∃ q, a.rear = some q ∧ v = q.limit) ∨
      (∃ j l, 1 ≤ j ∧ j ≤ a.headLeg ∧ (∀ k, a.tailLeg = .leg k → k ≤ j) ∧ legAt a.ord.legs j = some l ∧ v = l.limit) ∨
      (∃ f, s.ce.firmEnd = some f ∧
        (v = braking 0 (((f - (cfg s).margin : Nat) : Int) - r.x) ∨
          ∃ j l, a.headLeg < j ∧ legAt a.ord.legs j = some l ∧ legStart a.ord.legs j < f - (cfg s).margin ∧
            v = braking l.limit ((legStart a.ord.legs j : Int) - r.x))) ∨
      (∃ p, lastPad a.ord = some p ∧ v = (if r.x + 500 < (padCoord a.ord p : Int)
        then braking 50 ((padCoord a.ord p : Int) - 500 - r.x) else 50)) ∨
      (∃ t, s.eu.stopTarget = some t ∧ v = braking 0 ((t : Int) - r.x))) := by
  intro braking
  rw [mem_occupiedLimits, or_assoc]
  refine or_congr Iff.rfl (or_congr Iff.rfl (or_congr ?_ Iff.rfl))
  unfold authorityEnd
  cases s.ce.firmEnd with
  | none => simp
  | some f =>
    constructor
    · rintro ⟨ae, hae, h⟩
      obtain rfl : f - (cfg s).margin = ae := Option.some.inj hae
      exact ⟨f, rfl, h.imp id mem_approachLimits.mp⟩
    · rintro ⟨k, hk, h⟩
      obtain rfl : f = k := Option.some.inj hk
      exact ⟨_, rfl, h.imp id mem_approachLimits.mpr⟩

end

/-- Settles O52: an evaluation by what it finds, and the permit by the limits that apply. -/
theorem evaluationMade : Obligations.EvaluationMade := by
  refine ⟨fun gust s hkind => ⟨fun hrun hstop hhalt => ?_, fun hstate => ?_⟩, fun n hn => isqrt_spec n hn, fun s => ?_⟩
  · have hstill : movingState s.cs.state = false := by
      rw [Bool.eq_false_iff, ne_eq, movingState_iff]
      exact fun h => h.elim hrun fun h => h.elim hstop hhalt
    exact exec_envelopeEvaluation_still hkind hstill
  · have hmoving : movingState s.cs.state = true := movingState_iff.mpr hstate
    have hne : s.cs.state ≠ .ready := fun h => by rw [h] at hmoving; cases hmoving
    intro fast
    have hslow (h : fast = false ∨ s.eu.exceed = 0) : ¬ overspeedAt s.eu.demand < measuredSpeed s ∨ s.eu.exceed = 0 :=
      h.imp_left of_decide_eq_false
    refine ⟨fun hfast hexceed => ?_, fun h hquiet => ?_, fun h hstill hdemand hnear htarget a r ha hr => ?_⟩
    · exact ⟨_, evaluation_overspeed hkind hmoving (of_decide_eq_true hfast) hexceed, overspeed_parts hmoving⟩
    · obtain ⟨b, hexec, hb⟩ := evaluation_plain (gust := gust) hkind hmoving (hslow h) hquiet
      obtain ⟨hcs, hos, heu, hpu, -, htli, hown⟩ :=
        testTrigger_parts ((atStand gust s).setEu { (atStand gust s).eu with rest := b })
      refine ⟨_, hexec, hcs, hos, hpu, hown, htli, ?_⟩
      rw [heu]
      refine ⟨rfl, ?_, fun hup hrunning => ?_, fun hup hrunning => ?_, fun hdown => ?_, hb, rfl⟩
      · show exceedAfter s = if fast = true then 1 else 0
        exact if_congr decide_eq_true_iff.symm rfl rfl
      · rw [← accelStep_eq]
        show nextDemand (cfg s) s.cs.state s.eu.demand _ = _
        rw [hrunning]
        exact nextDemand_up hup
      · exact nextDemand_kept hup hrunning
      · exact nextDemand_down hdown
    · intro ends runsOn
      have hrest : ComesToRest gust s := ⟨hkind, hmoving, hslow h, hstill, hdemand, hnear, htarget⟩
      obtain ⟨hzero, hbrake⟩ := hrest.parts
      have hexec := hrest.exec
      have hends (out : ReportOutcome) (ahead : Bool) (hpending : s.os.pending = none)
          (hevent : restEvent (atStand gust s) = endOrder out ahead false (rested (atStand gust s))) : ends out := by
        rw [endOrder_readied (s := rested (atStand gust s)) ha hne hpending] at hevent
        rw [hevent] at hexec
        exact ⟨_, hexec, ends_triggered (s := rested (atStand gust s)) hne hstill⟩
      have hruns (hevent : restEvent (atStand gust s) = rested (atStand gust s)) : runsOn := by
        obtain ⟨hcs, hos, heu, hpu, -, htli, hown⟩ := testTrigger_parts (rested (atStand gust s))
        rw [hevent] at hexec
        refine ⟨_, hexec, hcs, hos, hpu, hown, htli, ?_⟩
        rw [heu]
        exact ⟨hzero, hbrake, rfl⟩
      have hfault {code : FaultCode} (hevent : restEvent (atStand gust s) = raiseFault code (rested (atStand gust s))) :
          ∃ t, exec (.envelopeEvaluation gust) s = .next t ∧ t.cs.state = .fault ∧ t.cs.fault.map FaultRec.code = some code := by
        obtain ⟨hfault, hcode, -⟩ := raiseFault_faultedWith (s := rested (atStand gust s)) code (not_fault_of_moving hmoving)
        obtain ⟨hcs, -⟩ := testTrigger_parts (raiseFault code (rested (atStand gust s)))
        rw [hevent] at hexec
        exact ⟨_, hexec, by rw [hcs]; exact hfault, by rw [hcs]; exact hcode⟩
      refine ⟨fun hphase hpending => hends _ true hpending (restEvent_ending (s := atStand gust s) ha hphase hmoving),
        fun hphase hstate hpending => hends _ true hpending (restEvent_stopping (s := atStand gust s) ha hphase hstate),
        fun hphase hstate => hruns (restEvent_halted (s := atStand gust s) ha hphase hstate), fun hphase hstate => ?_⟩
      intro there blocked
      refine ⟨fun hpad hthere => ?_, fun hpad hthere => ?_, fun p hpad hp => ?_⟩
      · obtain ⟨hdone, -⟩ := restEvent_underway (s := atStand gust s) ha hr hphase hstate hpad hzero
        have hdone := hdone hthere
        refine ⟨fun hnopad hpending => hends _ false hpending ?_, fun hsome => hfault ?_⟩
        · rw [hdone, hnopad] <;> rfl
        · rw [hdone, hsome, if_pos rfl]
      · obtain ⟨-, hshut, hon⟩ := restEvent_underway (s := atStand gust s) ha hr hphase hstate hpad hzero
        exact ⟨fun hb hpending => hends _ true hpending (hshut hthere hb), fun hb => hruns (hon hthere hb)⟩
      · have hcheck : restEvent (atStand gust s) = alignmentCheck (rested (atStand gust s)) :=
          (restEvent_running (s := atStand gust s) ha hphase hstate).trans (if_pos hpad)
        refine ⟨fun hwithin hdock hpos => ?_, fun hwithin hdock hpending => hends _ false hpending ?_,
          fun hwide hpending => hends _ false hpending ?_⟩
        · have hdocks := hcheck.trans (alignmentCheck_of_dock (s := rested (atStand gust s)) ha hr hp hdock hwithin)
          obtain ⟨hdocking, hcmd, htimer, hos, -, -, hservice⟩ := startDocking_of_above (s := rested (atStand gust s)) hstate hpos
          have hstopped := startDocking_demand (s := rested (atStand gust s)) hstate hpos
          obtain ⟨hcs', hos', heu', -, hds', -⟩ := testTrigger_parts (startDocking (rested (atStand gust s)))
          rw [hdocks] at hexec
          refine ⟨_, hexec, by rw [hcs']; exact hdocking, by rw [hds']; exact hcmd, by rw [hds']; exact htimer,
            by rw [hos']; exact hos, by rw [heu']; exact hstopped, by rw [heu']; exact hservice⟩
        · rw [hcheck, alignmentCheck_of_no_dock (s := rested (atStand gust s)) ha hr hp hdock,
            alignOutcome_of_within (s := rested (atStand gust s)) hwithin]
        · exact hcheck.trans (alignmentCheck_of_misaligned (s := rested (atStand gust s)) ha hr hp (not_le.mpr hwide))
  · intro braking
    refine ⟨rfl, foldl_min_le_init _ _, fun v hv => foldl_min_le_of_mem hv, foldl_min_eq_or_mem _ _, fun v => ?_⟩
    by_cases horder : ∃ a r, s.os.active = some a ∧ s.pu.route = some r
    · obtain ⟨a, r, ha, hr⟩ := horder
      rw [mem_limits_of_order ha hr]
      refine or_congr Iff.rfl ⟨fun h => ⟨a, r, ha, hr, orderLimits_iff.mp h⟩, ?_⟩
      rintro ⟨b, q, hb, hq, h⟩
      obtain rfl : a = b := Option.some.inj (ha.symm.trans hb)
      obtain rfl : r = q := Option.some.inj (hr.symm.trans hq)
      exact orderLimits_iff.mpr h
    · have hnone : s.os.active = none ∨ s.pu.route = none := by
        cases ha : s.os.active with
        | none => exact .inl rfl
        | some a =>
          cases hr : s.pu.route with
          | none => exact .inr rfl
          | some r => exact absurd ⟨a, r, ha, hr⟩ horder
      rw [mem_limits_of_none hnone]
      refine ⟨.inl, fun h => h.resolve_right ?_⟩
      rintro ⟨a, r, ha, hr, -⟩
      exact horder ⟨a, r, ha, hr⟩

end Sys2Proof.Machine
end
